-- ==== Sys2Proof/Word.lean ====
section
/-! DEFINITION. The words of the block: bytes, the register widths, and FP32 bit patterns (00 R2, 18 R452). -/

namespace Sys2Proof

/-- One byte. -/
abbrev Byte := BitVec 8
/-- A 32-bit register or structure word. -/
abbrev W32 := BitVec 32
/-- A 64-bit register or structure word. -/
abbrev W64 := BitVec 64
/-- An Etoth instruction word (R229). -/
abbrev W128 := BitVec 128
/-- The bit pattern of an FP32 value (R56). -/
abbrev F32 := BitVec 32
/-- A number of nanoseconds of NODE_TIME (R19). -/
abbrev Time := Nat

end Sys2Proof
end

