-- ==== Sys2Proof/Machine/Tab.lean ====
section
/-! DEFINITION. Tables with a default: a list of key and value pairs in which a key that is not listed reads as the
default its reader names. Every numbered thing of the block (a seat, a tenant slot, a context) is held in one. -/

namespace Sys2Proof.Machine

/-- A finite table; `put` keeps at most one pair per key. -/
abbrev Tab (κ α : Type) := List (κ × α)

/-- The value listed for `k`, if any. -/
def Tab.find {κ α : Type} [DecidableEq κ] (t : Tab κ α) (k : κ) : Option α :=
  match t with
  | [] => none
  | (k', v) :: r => if k' = k then some v else Tab.find r k

/-- The value of `k`; the default where `k` is not listed. -/
def Tab.get {κ α : Type} [DecidableEq κ] (t : Tab κ α) (d : α) (k : κ) : α := (Tab.find t k).getD d

/-- Lists `v` for `k`, in place where `k` is listed already. -/
def Tab.put {κ α : Type} [DecidableEq κ] (t : Tab κ α) (k : κ) (v : α) : Tab κ α :=
  match t with
  | [] => [(k, v)]
  | (k', w) :: r => if k' = k then (k, v) :: r else (k', w) :: Tab.put r k v

/-- Lists nothing for `k`. -/
def Tab.del {κ α : Type} [DecidableEq κ] (t : Tab κ α) (k : κ) : Tab κ α := t.filter (fun p => decide (p.1 ≠ k))

/-- Changes the value of `k`, starting from the default where it is not listed. -/
def Tab.upd {κ α : Type} [DecidableEq κ] (t : Tab κ α) (d : α) (k : κ) (f : α → α) : Tab κ α :=
  Tab.put t k (f (Tab.get t d k))

/-- Changes every listed value. -/
def Tab.mapVals {κ α β : Type} (t : Tab κ α) (f : κ → α → β) : Tab κ β := t.map (fun p => (p.1, f p.1 p.2))

/-- The listed keys. -/
def Tab.keys {κ α : Type} (t : Tab κ α) : List κ := t.map Prod.fst

/-- The listed values. -/
def Tab.vals {κ α : Type} (t : Tab κ α) : List α := t.map Prod.snd

/-- The sum of a Nat over a list. -/
def sumBy {α : Type} (f : α → Nat) (l : List α) : Nat := l.foldl (fun n a => n + f a) 0

/-- The largest value of `f` over a list, 0 over none. -/
def maxBy {α : Type} (f : α → Nat) (l : List α) : Nat := l.foldl (fun n a => Nat.max n (f a)) 0

/-- The least number not in the list, up to the list's length. -/
def lowestFree (used : List Nat) : Nat := ((List.range (used.length + 1)).find? (fun n => !used.contains n)).getD 0

/-- Puts an element in front of the first one that it does not come after. -/
def insertBy {α : Type} (le : α → α → Bool) (a : α) : List α → List α
  | [] => [a]
  | b :: r => if le a b then a :: b :: r else b :: insertBy le a r

/-- Sorts by an order, elements of equal rank in the order in which they stand. -/
def sortBy {α : Type} (le : α → α → Bool) (l : List α) : List α := l.foldr (insertBy le) []

/-- The `k`-th number from 0 that a list of distinct numbers does not hold. -/
def kthFree (used : List Nat) (k : Nat) : Nat :=
  (sortBy (· ≤ ·) used).foldl (fun k u => if u ≤ k then k + 1 else k) k

/-- The element of a nonempty list at `i` modulo its length. -/
def pickFrom {α : Type} (l : List α) (i : Nat) : Option α := l[i % l.length]?

/-- Removes repeats, keeping first occurrences. -/
def dedup {α : Type} [DecidableEq α] (l : List α) : List α :=
  (l.foldl (fun acc a => if acc.contains a then acc else a :: acc) []).reverse

/-- Addition that saturates at 2^w − 1. -/
def satAdd (w a b : Nat) : Nat := Nat.min (a + b) (2 ^ w - 1)

end Sys2Proof.Machine
end

