-- ==== Sys2Proof/Machine/Bits.lean ====
section
/-! DEFINITION. Bytes and fields: little-endian payload structures and big-endian headers (R2), and the packing and
unpacking of bit fields written [msb:lsb] with bit 0 least significant (00, Notation). -/

namespace Sys2Proof.Machine
open Sys2Proof

/-- `n` bytes of `v`, least significant first (R2). -/
def leBytes (n v : Nat) : List Byte := (List.range n).map (fun i => BitVec.ofNat 8 (v >>> (8 * i)))

/-- `n` bytes of `v`, most significant first (R2, network byte order). -/
def beBytes (n v : Nat) : List Byte := (leBytes n v).reverse

/-- The number whose little-endian bytes these are. -/
def leNat (bs : List Byte) : Nat := bs.foldr (fun b n => b.toNat + 256 * n) 0

/-- The number whose big-endian bytes these are. -/
def beNat (bs : List Byte) : Nat := bs.foldl (fun n b => 256 * n + b.toNat) 0

/-- The bytes at [off, off + n). -/
def slice (bs : List Byte) (off n : Nat) : List Byte := (bs.drop off).take n

/-- The little-endian number of `n` bytes at `off`. -/
def leAt (bs : List Byte) (off n : Nat) : Nat := leNat (slice bs off n)

/-- Field [hi:lo] of a number. -/
def fld (v hi lo : Nat) : Nat := (v >>> lo) % 2 ^ (hi + 1 - lo)

/-- Bit `i` of a number. -/
def bitN (v i : Nat) : Bool := v.testBit i

/-- 1 for true. -/
def b2n (b : Bool) : Nat := if b then 1 else 0

/-- Fields (width, value) laid out from bit 0 upwards; a value is cut to its width. -/
def packFields (fs : List (Nat × Nat)) : Nat := fs.foldr (fun f acc => f.2 % 2 ^ f.1 + acc * 2 ^ f.1) 0

/-- The bits that fields take. -/
def fieldBits (fs : List (Nat × Nat)) : Nat := sumBy Prod.fst fs

/-- The bytes of a structure given by its fields from bit 0 of byte 0 upwards. -/
def recordBytes (fs : List (Nat × Nat)) : List Byte := leBytes (fieldBits fs / 8) (packFields fs)

/-- Two's complement of width `w`. -/
def twos (w : Nat) (i : Int) : Nat := (i % (2 ^ w : Nat)).toNat

/-- The signed value of a `w`-bit two's complement number. -/
def signedOf (w v : Nat) : Int := if v % 2 ^ w < 2 ^ (w - 1) then (v % 2 ^ w : Nat) else ((v % 2 ^ w : Nat) : Int) - (2 ^ w : Nat)

/-- `n` zero bytes. -/
def zeros (n : Nat) : List Byte := List.replicate n 0

/-- Pads with zero bytes to a multiple of `n`. -/
def padTo (n : Nat) (bs : List Byte) : List Byte := bs ++ zeros ((n - bs.length % n) % n)

/-- Bytes cut or zero-filled to exactly `n`. -/
def fitBytes (n : Nat) (bs : List Byte) : List Byte := (bs ++ zeros (n - bs.length)).take n

/-- Writes bytes at an offset of a buffer, extending it with zeros. -/
def patch (buf : List Byte) (off : Nat) (bs : List Byte) : List Byte :=
  let buf := buf ++ zeros (off + bs.length - buf.length)
  buf.take off ++ bs ++ buf.drop (off + bs.length)

/-- Cuts a list into pieces of `n`; `fuel` bounds the pieces. -/
def chunksFuel {α : Type} : Nat → Nat → List α → List (List α)
  | 0, _, _ => []
  | _, _, [] => []
  | f + 1, n, l => l.take n :: chunksFuel f n (l.drop n)

/-- Pieces of `n` (the last may be shorter). -/
def chunks {α : Type} (n : Nat) (l : List α) : List (List α) := chunksFuel l.length n l

/-- The parity of the set bits below `w`. -/
def parity (w v : Nat) : Bool := (List.range w).foldl (fun p i => p != v.testBit i) false

/-- The number of set bits below `w`. -/
def weight (w v : Nat) : Nat := ((List.range w).filter (fun i => v.testBit i)).length

/-- ⌈a / b⌉. -/
def ceilDiv (a b : Nat) : Nat := (a + b - 1) / b

end Sys2Proof.Machine
end

