-- ==== Sys2Proof/Machine/Ecc.lean ====
section
/-! DEFINITION. The integrity code of 09: the check word, poisoning, the classification of a block as read, correction,
and the table of blocks that differ from what was written (R206 to R215). -/

namespace Sys2Proof.Machine
open Sys2Proof

/-- A block as stored: 512 data bits and the 64-bit check word (R206). In the error table, both are the difference (exclusive
or) from what was last written; the code is linear, so the difference classifies as the block itself does. -/
structure Blk where
  data : BitVec 512
  check : BitVec 64
  deriving DecidableEq, Repr

def Blk.zero : Blk := ⟨0, 0⟩

/-- The 32 bits of row `r` (R206). -/
def rowOf (d : Nat) (r : Nat) : Nat := (d >>> (32 * r)) % 2 ^ 32

/-- The sixteen row parities (R207). -/
def rowPar (d : Nat) : Nat := (List.range 16).foldl (fun acc r => acc + (if parity 32 (rowOf d r) then 2 ^ r else 0)) 0

/-- The thirty-two column parities (R207). -/
def colPar (d : Nat) : Nat := (List.range 16).foldl (fun acc r => acc ^^^ rowOf d r) 0

/-- A check word from its fields (R207). -/
def checkOf (rp cp : Nat) (poison : Bool) : BitVec 64 :=
  BitVec.ofNat 64 (packFields [(16, rp), (32, cp), (1, b2n (parity 16 rp)), (1, b2n (parity 32 cp)), (1, b2n poison), (13, 0)])

/-- The check word written with data (R207). -/
def eccCheck (d : BitVec 512) : BitVec 64 := checkOf (rowPar d.toNat) (colPar d.toNat) false

/-- The check word of a poisoned block over the data as read (R208). -/
def poisonCheck (d : BitVec 512) : BitVec 64 :=
  checkOf (rowPar d.toNat ^^^ 0xFFFF) (colPar d.toNat ^^^ 0xFFFFFFFF) true

/-- The outcome of R209. -/
inductive EccOut where
  | clean
  | corrected (b : Blk)
  | uncorrectable
  | poisoned
  deriving DecidableEq, Repr

/-- The row syndrome, column syndrome, er and ec of a block as stored. -/
def syndromes (b : Blk) : Nat × Nat × Bool × Bool :=
  let c := b.check.toNat
  let rp := fld c 15 0
  let cp := fld c 47 16
  (rp ^^^ rowPar b.data.toNat, cp ^^^ colPar b.data.toNat, bitN c 48 != parity 16 rp, bitN c 49 != parity 32 cp)

/-- The block with correct check word over `d`. -/
def sealedBlk (d : BitVec 512) : Blk := ⟨d, eccCheck d⟩

/-- R209: how a reader classifies a block, the first matching row of the table. -/
def classify (b : Blk) : EccOut :=
  let s := syndromes b
  let wr := weight 16 s.1
  let wc := weight 32 s.2.1
  let er := s.2.2.1
  let ec := s.2.2.2
  let poison := bitN b.check.toNat 50
  let reserved := decide (fld b.check.toNat 63 51 ≠ 0)
  if wr = 16 ∧ wc = 32 then .poisoned
  else if wr = 0 ∧ wc = 0 ∧ !er ∧ !ec then
    (if !poison ∧ !reserved then .clean else .corrected (sealedBlk b.data))
  else if poison then .uncorrectable
  else if wr = 1 ∧ wc = 1 ∧ !er ∧ !ec then
    .corrected (sealedBlk (b.data ^^^ BitVec.ofNat 512 (2 ^ (32 * Nat.log2 s.1 + Nat.log2 s.2.1))))
  else if (wr = 1 ∧ wc = 0 ∧ er ∧ !ec) ∨ (wr = 0 ∧ wc = 1 ∧ !er ∧ ec) ∨ (wr = 0 ∧ wc = 0 ∧ (er != ec)) then
    .corrected (sealedBlk b.data)
  else .uncorrectable

/-- What a reader leaves in the stack after a block (R212). -/
def writeBack (b : Blk) : Blk :=
  match classify b with
  | .clean => b
  | .corrected c => c
  | .uncorrectable => ⟨b.data, poisonCheck b.data⟩
  | .poisoned => b

/-! ### The table of blocks that differ from what was written -/

/-- Block numbers in ascending order with the difference of each; a block not listed reads as written. -/
abbrev ErrTab := List (Nat × Blk)

/-- The difference of block `n`. -/
def ErrTab.read (t : ErrTab) (n : Nat) : Blk :=
  match t with
  | [] => Blk.zero
  | (k, b) :: r => if k = n then b else if n < k then Blk.zero else ErrTab.read r n

/-- Makes `b` the difference of block `n`, keeping the order and listing no zero difference. -/
def ErrTab.write (t : ErrTab) (n : Nat) (b : Blk) : ErrTab :=
  match t with
  | [] => if b = Blk.zero then [] else [(n, b)]
  | (k, c) :: r =>
    if n < k then (if b = Blk.zero then (k, c) :: r else (n, b) :: (k, c) :: r)
    else if n = k then (if b = Blk.zero then r else (n, b) :: r)
    else (k, c) :: ErrTab.write r n b

/-- The keys of a table above `lo` stand in strictly ascending order and no difference is zero. -/
def ErrTab.above : Option Nat → ErrTab → Bool
  | _, [] => true
  | lo, (k, b) :: r => (match lo with | none => true | some l => decide (l < k)) && decide (b ≠ Blk.zero) && ErrTab.above (some k) r

/-- The canonical form. -/
def ErrTab.wf (t : ErrTab) : Bool := ErrTab.above none t

/-- Bits that nature flips in a stored block: block number, data mask, check-word mask. -/
structure Flip where
  block : Nat
  data : BitVec 512
  check : BitVec 64
  deriving DecidableEq, Repr

/-- The table after nature has flipped bits. -/
def ErrTab.flips (t : ErrTab) (fs : List Flip) : ErrTab :=
  fs.foldl (fun t f => let b := ErrTab.read t f.block; ErrTab.write t f.block ⟨b.data ^^^ f.data, b.check ^^^ f.check⟩) t

/-- The table after whole blocks have been written (R213). -/
def ErrTab.clear (t : ErrTab) (bs : List Nat) : ErrTab := bs.foldl (fun t n => ErrTab.write t n Blk.zero) t

/-- The block number of block `blk` of a granule of a stack: 2^27 granules of eight blocks in each stack (R13, R206). -/
def blockNo (stack granule blk : Nat) : Nat := (stack * 2 ^ 27 + granule) * 8 + blk
def blockStack (n : Nat) : Nat := n / 8 / 2 ^ 27
def blockGranule (n : Nat) : Nat := n / 8 % 2 ^ 27
def blockIdx (n : Nat) : Nat := n % 8

end Sys2Proof.Machine
end

