-- ==== Sys2Proof/Syntax.lean ====
section
/-! DEFINITION. The commands: one constructor for each row of spec/opcode_table.json, with what the world or the node's own
agents bring to it. An instruction of a program names the context whose next step issues; its own operands stand in the
program's 128-bit word (R229). -/

namespace Sys2Proof
open Sys2Proof.Machine

/-- A reading of a voltage monitor in mV (R420, R425). -/
structure Reading where
  index : Nat
  mv : Nat
  deriving DecidableEq, Repr

/-- The head of an SMBus or I3C transaction: its 7-bit address and whether its PEC holds (R450). -/
structure Xfer where
  target : Nat
  pecOk : Bool
  deriving DecidableEq, Repr

/-- A path to the registers (R449): REG.RD and REG.WR of a context, the SMBus or I3C port, the JTAG port. -/
inductive Path where
  | ctx (n : Nat)
  | smbus
  | jtag
  deriving DecidableEq, Repr

/-- A received Ethernet frame from destination MAC to the last payload byte, whether its FCS was good, and how many of its FEC codewords were
uncorrectable and how many corrected (R316, R319). -/
structure Frame where
  bytes : List Byte
  fcsOk : Bool
  fecUncorr : Nat
  fecCorrected : Nat
  deriving DecidableEq, Repr

/-- No codeword of the frame was uncorrectable. -/
def Frame.fecOk (f : Frame) : Bool := decide (f.fecUncorr = 0)

/-- What nature and the core bring to one canary run (R312): the core, whether the run could take it within 10 ms, the digest
computed, the run's length and the load of the cluster. -/
structure CanaryRun where
  cluster : Nat
  pcore : Nat
  taken : Bool
  digest : W64
  runNs : Nat
  load : Nat
  deriving DecidableEq, Repr

/-- The outcome of the check of one firmware slot (R395): cause 0 verified, 1 signature, 2 SVN, 4 flash read. -/
structure SlotCheck where
  cause : Nat
  svn : Nat
  digest : List Byte
  deriving DecidableEq, Repr

/-- The settings a configuration gives one seat (SEAT_CTL table of 13). -/
structure SeatCfg where
  mode : Nat
  enable : Bool
  partnerKind : Bool
  deriving DecidableEq, Repr

/-- A configuration image as verified: a setting for each seat (none where it sets none), the host seat, its digest. -/
structure CfgImage where
  seats : List (Option SeatCfg)
  hostSeat : Option Nat
  digest : List Byte
  deriving DecidableEq, Repr

/-- What the primary trust block found at boot (R395): self-tests, both slots, the configuration. -/
structure BootCheck where
  selfTest : Nat
  slotA : SlotCheck
  slotB : SlotCheck
  cfg : Option CfgImage
  deriving DecidableEq, Repr

/-- A JTAG CORE_DEBUG operation on a control core (R417). -/
inductive CoreDebug where
  | halt
  | resume
  | step
  | read (addr : Nat)
  | write (addr : Nat) (data : W64)
  deriving DecidableEq, Repr

/-- Where an uncorrectable line of on-die SRAM lies (R216). -/
inductive SramPlace where
  | core (cluster pcore : Nat)
  | cluster (c : Nat)
  | dieData (die : Nat)
  | dieMeta (die : Nat)
  deriving DecidableEq, Repr

/-- The commands of the block, in the order of spec/opcode_table.json. -/
inductive Instr where
  -- power, boot, resets, monitors (17, 19)
  | powerGood (resetNLow : Bool)
  | pwrgdLow
  | resetNAssert
  | firmwareVerified (check : BootCheck)
  | memoryTrainingDone
  | nodePlaceable (runs : List CanaryRun)
  | nodeReset (cause : Nat)
  | controlReset (cause : Nat)
  | controlResetDone
  | sagWarning (index value durationNs : Nat)
  | sagRelease
  | sagReset (r : Reading)
  | avsTargetChange
  | avsTargetSettled
  | avsFault (status : Nat)
  | monitorSample (kind index value : Nat)
  | thermalThrottleEnd (kind index : Nat)
  | watchdogTrip (die core : Nat)
  | wdogHoldExpiry
  | dieLinkLost
  | refclkSysLost
  | refclkHoldExpiry
  | seatRefclkLost (ref : Nat)
  | trustEpochDisagree
  | canaryScheduled (run : CanaryRun)
  | canaryFastPeriodEnd (cluster pcore : Nat)
  | spareSubstitution (cluster pcore switchNs : Nat)
  | coreDrainDegrade (cluster pcore : Nat)
  | healthDecay
  -- programs (10)
  | programMessage (seat node : Nat) (bytes : List Byte)
  | contextTake (die : Nat)
  | deadlinePasses (lsn : Nat)
  | commitStart (ctx : Nat)
  | commitPoint (ctx : Nat)
  | commitApplyEnd (ctx : Nat)
  -- control, tile and run instructions (12)
  | fence (ctx : Nat)
  | wait (ctx : Nat)
  | emit (ctx : Nat)
  | ledgerRd (ctx : Nat)
  | tileAppend (ctx : Nat)
  | tileSeal (ctx : Nat)
  | runSplice (ctx : Nat)
  | runDrop (ctx : Nat)
  | moveWload (ctx : Nat)
  | moveWfetch (ctx : Nat)
  | moveWdrop (ctx : Nat)
  | prefetch (ctx : Nat)
  -- keys (12, 16)
  | keyAdmit (ctx : Nat)
  | keyRotate (ctx : Nat)
  | keyStageAck (ctx step : Nat)
  | keyRemove (ctx : Nat)
  | keyStatus (ctx : Nat)
  | tenantReclaim (slot : Nat)
  | reencObject (slot die : Nat) (flips : List Flip)
  | keyRetire (slot : Nat)
  -- registers and diagnostics (12, 09)
  | regRd (ctx : Nat)
  | regWr (ctx : Nat)
  | canary (ctx : Nat) (runs : List CanaryRun)
  | scrub (ctx : Nat)
  | scrubPassStart (die : Nat) (flips : List Flip)
  | scrubPassEnd (die : Nat)
  -- compute (11, 04, 05)
  | attDec (ctx : Nat)
  | attPre (ctx : Nat)
  | attBwd (ctx : Nat)
  | attMerge (ctx : Nat)
  | projKv (ctx : Nat)
  | projKvGradient (ctx : Nat)
  | mm (ctx : Nat)
  | nbEw (ctx : Nat)
  | nbRope (ctx : Nat)
  | nbQuant (ctx : Nat)
  | nbAdam (ctx : Nat)
  | plyIssue (ply : Nat) (cores : List Nat) (flips : List Flip)
  | plyComplete (ply : Nat)
  | prefetchProtectExpiry (obj : Nat)
  -- directory (06)
  | dirLookup (half req tenant stream low high : Nat)
  | dirLookupRepeat (half req : Nat)
  | dirStagingRequest (half : Nat)
  | dirStage (half : Nat)
  | dirSpreadingPass (half : Nat)
  -- tiers (07)
  | readsDrained (drain : Nat)
  | t2CopyStart (tile : Nat)
  | t2CopyTimeout (tile target : Nat)
  | eviction (die : Nat)
  | interDieMove (tile : Nat)
  | fetchAttemptTimeout (obj : Nat)
  | fetchRetryRound (obj : Nat)
  | migrationCondition (reason tenant stream target : Nat)
  | migrationAnswerTimeout (tenant stream : Nat)
  | migrationWithdraw (tenant stream : Nat)
  -- near-bank units (08)
  | nbSeqStart (stack unit : Nat)
  | nbRowStepEnd (stack unit domains : Nat) (flips : List Flip)
  | refreshDue (stack unit : Nat)
  | pass1End (stack unit : Nat)
  | refreshComplete (stack unit : Nat)
  | nbSeqFinal (stack unit : Nat)
  | nbPollRead
  | eccEventIntervalEnd
  | sramUncorrectable (place : SramPlace)
  -- seats and transport (13, 14)
  | seatEnable (seat : Nat)
  | trainingComplete (seat : Nat)
  | trainingRetry (seat : Nat)
  | linkLoss (seat : Nat)
  | helloTimer (seat : Nat)
  | hello (seat : Nat) (frame : Frame)
  | keepaliveTimer (seat : Nat)
  | keepalive (seat : Nat) (frame : Frame)
  | partnerLost (seat : Nat)
  | pfcFrame (seat : Nat) (frame : Frame)
  | dataFrame (seat : Nat) (frame : Frame)
  | ackFrame (seat : Nat) (frame : Frame)
  | ackTimer (peer : Nat)
  | rtoExpiry (peer : Nat)
  | peerUnreachable (peer : Nat)
  | rateIncrease (peer : Nat)
  | forwardFrame (seat : Nat) (frame : Frame)
  | egressFrameStart (seat : Nat)
  -- board, discovery, tiers and fabric messages (13, 15)
  | boardWrite (seat node : Nat) (bytes : List Byte)
  | boardCommit (seat node : Nat) (bytes : List Byte)
  | boardAbort (seat node : Nat) (bytes : List Byte)
  | boardGraceEnd
  | discoveryProbe (seat : Nat) (frame : Frame)
  | discoveryAssign (seat : Nat) (frame : Frame)
  | tierPut (node : Nat) (bytes : List Byte)
  | tierPutAck (node : Nat) (bytes : List Byte)
  | tierGet (node : Nat) (bytes : List Byte)
  | tierData (node : Nat) (bytes : List Byte)
  | tierRelease (node : Nat) (bytes : List Byte)
  | tierReleaseAck (node : Nat) (bytes : List Byte)
  | migrationOffer (node : Nat) (bytes : List Byte)
  | migrationAnswer (node : Nat) (bytes : List Byte)
  | tailOffer (node : Nat) (bytes : List Byte)
  | tailOfferKeepExpiry (tenant stream : Nat)
  | handoverFetchDone (tenant stream : Nat)
  | tailAck (node : Nat) (bytes : List Byte)
  | tailAsk (node : Nat) (bytes : List Byte)
  | tailRefuse (node : Nat) (bytes : List Byte)
  | awaitingTimeout (tenant stream : Nat)
  | stallEnd (tenant stream : Nat)
  | reclaimTimeout (tenant stream : Nat)
  | copyAsk (node : Nat) (bytes : List Byte)
  | digestSend
  | digest (node : Nat) (bytes : List Byte)
  | digestUnpairedExpiry (tenant program step : Nat)
  -- SPDM (16)
  | spdmGetVersion (bytes : List Byte)
  | spdmGetCapabilities (bytes : List Byte)
  | spdmNegotiateAlgorithms (bytes : List Byte)
  | spdmGetMeasurements (bytes : List Byte)
  | spdmUnsupported (bytes : List Byte)
  -- registers with behaviour of their own, and the management ports (17, 18)
  | ctlResetWrite (path : Path)
  | nodeResetWrite (path : Path)
  | scanUnlock (path : Path)
  | regSeal (path : Path) (blocks : BitVec 12)
  | spareRetire (path : Path) (cluster pcore : Nat)
  | spareClearList (path : Path)
  | seatRetrain (path : Path) (seat : Nat)
  | policerEnableWrite (path : Path) (transit : Bool) (word : W32)
  | weightReserveWrite (path : Path) (die : Nat) (bytes : W64)
  | rcRead (path : Path) (addr : Nat)
  | registerWrite (path : Path) (addr : Nat) (wide : Bool) (data : W64)
  | smbusRegisterWrite (x : Xfer) (bytes : List Byte)
  | smbusReadRequest (x : Xfer) (bytes : List Byte)
  | smbusReadResult
  | jtagIdcode
  | jtagSamplePreload (bits : List Bool)
  | jtagExtest (bits : List Bool)
  | jtagRegAccess (dr : BitVec 98)
  | jtagCoreDebug (core : Nat) (op : CoreDebug)
  | jtagScan (bits : List Bool)
  | jtagBypass (bits : List Bool)
  | trainingFailed (seat : Nat)
  | resetNDeassert
  | nodeResetRelease
  | refclkSysReturn
  | seatRefclkReturn (ref : Nat)
  | discoveryAnswer (seat : Nat) (frame : Frame)
  | dirQuietWindowEnd (half tenant stream : Nat)
  | i3cDynamicAddress (addr : Nat)
  deriving DecidableEq, Repr

end Sys2Proof
end

