-- ==== Sys2Proof/Machine/Crypto.lean ====
section
/-! DEFINITION. The two published algorithms the manual names and does not print: SHA-256 (FIPS 180-4), used by the
digest of R250 and the measurements of R398, and AES-256-GCM (FIPS 197, SP 800-38D), used by R400 and R404.
PRESUMED (log 9): both are taken from those standards. -/

namespace Sys2Proof.Machine
open Sys2Proof

/-! ### SHA-256 -/

/-- The 64 round constants of FIPS 180-4. -/
def shaK : List W32 :=
  [0x428A2F98, 0x71374491, 0xB5C0FBCF, 0xE9B5DBA5, 0x3956C25B, 0x59F111F1, 0x923F82A4, 0xAB1C5ED5,
   0xD807AA98, 0x12835B01, 0x243185BE, 0x550C7DC3, 0x72BE5D74, 0x80DEB1FE, 0x9BDC06A7, 0xC19BF174,
   0xE49B69C1, 0xEFBE4786, 0x0FC19DC6, 0x240CA1CC, 0x2DE92C6F, 0x4A7484AA, 0x5CB0A9DC, 0x76F988DA,
   0x983E5152, 0xA831C66D, 0xB00327C8, 0xBF597FC7, 0xC6E00BF3, 0xD5A79147, 0x06CA6351, 0x14292967] ++
  [0x27B70A85, 0x2E1B2138, 0x4D2C6DFC, 0x53380D13, 0x650A7354, 0x766A0ABB, 0x81C2C92E, 0x92722C85,
   0xA2BFE8A1, 0xA81A664B, 0xC24B8B70, 0xC76C51A3, 0xD192E819, 0xD6990624, 0xF40E3585, 0x106AA070,
   0x19A4C116, 0x1E376C08, 0x2748774C, 0x34B0BCB5, 0x391C0CB3, 0x4ED8AA4A, 0x5B9CCA4F, 0x682E6FF3,
   0x748F82EE, 0x78A5636F, 0x84C87814, 0x8CC70208, 0x90BEFFFA, 0xA4506CEB, 0xBEF9A3F7, 0xC67178F2]

/-- The initial hash value. -/
def shaH0 : List W32 := [0x6A09E667, 0xBB67AE85, 0x3C6EF372, 0xA54FF53A, 0x510E527F, 0x9B05688C, 0x1F83D9AB, 0x5BE0CD19]

def shaRotr (n : Nat) (x : W32) : W32 := (x >>> n) ||| (x <<< (32 - n))
def shaS0 (x : W32) : W32 := shaRotr 2 x ^^^ shaRotr 13 x ^^^ shaRotr 22 x
def shaS1 (x : W32) : W32 := shaRotr 6 x ^^^ shaRotr 11 x ^^^ shaRotr 25 x
def shas0 (x : W32) : W32 := shaRotr 7 x ^^^ shaRotr 18 x ^^^ (x >>> 3)
def shas1 (x : W32) : W32 := shaRotr 17 x ^^^ shaRotr 19 x ^^^ (x >>> 10)

/-- The message schedule, newest word first. -/
def shaSchedule (blk : List W32) : List W32 :=
  ((List.range 48).foldl (fun (w : List W32) _ =>
    (shas1 (w.getD 1 0) + w.getD 6 0 + shas0 (w.getD 14 0) + w.getD 15 0) :: w) blk.reverse).reverse

/-- One round over (a … h). -/
def shaRound (h : List W32) (kw : W32 × W32) : List W32 :=
  match h with
  | [a, b, c, d, e, f, g, hh] =>
    let t1 := hh + shaS1 e + ((e &&& f) ^^^ ((~~~ e) &&& g)) + kw.1 + kw.2
    let t2 := shaS0 a + ((a &&& b) ^^^ (a &&& c) ^^^ (b &&& c))
    [t1 + t2, a, b, c, d + t1, e, f, g]
  | _ => h

/-- The compression of one 64-byte block. -/
def shaBlock (h : List W32) (bs : List Byte) : List W32 :=
  let w := shaSchedule ((chunks 4 bs).map (fun c => BitVec.ofNat 32 (beNat c)))
  List.zipWith (fun x y => x + y) h (List.foldl shaRound h (shaK.zip w))

/-- SHA-256: 32 bytes. -/
def sha256 (msg : List Byte) : List Byte :=
  let n := msg.length
  let padded := msg ++ [0x80] ++ zeros ((119 - n % 64) % 64) ++ beBytes 8 (8 * n)
  ((chunks 64 padded).foldl shaBlock shaH0).flatMap (fun w => beBytes 4 w.toNat)

/-! ### AES-256 -/

/-- Multiplication by x in GF(2^8). -/
def gfDouble (a : Nat) : Nat := (if a ≥ 128 then (2 * a) ^^^ 0x11B else 2 * a) % 256

/-- Multiplication in GF(2^8). -/
def gfMul (a b : Nat) : Nat :=
  ((List.range 8).foldl (fun (acc : Nat × Nat) i => (if b.testBit i then acc.1 ^^^ acc.2 else acc.1, gfDouble acc.2)) (0, a)).1

/-- The inverse a^254 in GF(2^8), 0 for 0. -/
def gfInv (a : Nat) : Nat :=
  let a2 := gfMul a a
  let a4 := gfMul a2 a2
  let a8 := gfMul a4 a4
  let a16 := gfMul a8 a8
  let a32 := gfMul a16 a16
  let a64 := gfMul a32 a32
  let a128 := gfMul a64 a64
  gfMul a2 (gfMul a4 (gfMul a8 (gfMul a16 (gfMul a32 (gfMul a64 a128)))))

/-- The substitution of FIPS 197. -/
def aesSub (b : Byte) : Byte :=
  let i := gfInv b.toNat
  let rotl := fun (n : Nat) => ((i <<< n) ||| (i >>> (8 - n))) % 256
  BitVec.ofNat 8 (i ^^^ rotl 1 ^^^ rotl 2 ^^^ rotl 3 ^^^ rotl 4 ^^^ 0x63)

def xorBytes (a b : List Byte) : List Byte := List.zipWith (fun x y => x ^^^ y) a b

/-- The 60 words of the key schedule of a 32-byte key. -/
def aesSchedule (key : List Byte) : List (List Byte) :=
  ((List.range 52).foldl (fun (acc : List (List Byte) × Nat) k =>
      let i := k + 8
      let prev := acc.1.headD []
      let t :=
        if i % 8 = 0 then xorBytes ((prev.drop 1 ++ prev.take 1).map aesSub) [BitVec.ofNat 8 acc.2, 0, 0, 0]
        else if i % 8 = 4 then prev.map aesSub else prev
      (xorBytes (acc.1.getD 7 []) t :: acc.1, if i % 8 = 0 then gfDouble acc.2 else acc.2))
    ((chunks 4 (fitBytes 32 key)).reverse, 1)).1.reverse

def aesShiftRows (s : List Byte) : List Byte := (List.range 16).map (fun i => s.getD ((i + 4 * (i % 4)) % 16) 0)

def aesMixColumn (c : List Byte) : List Byte :=
  let g := fun (i : Nat) => (c.getD (i % 4) 0).toNat
  (List.range 4).map (fun i => BitVec.ofNat 8 (gfMul 2 (g i) ^^^ gfMul 3 (g (i + 1)) ^^^ g (i + 2) ^^^ g (i + 3)))

/-- The AES-256 encryption of one 16-byte block under an expanded key. -/
def aesBlock (rk : List (List Byte)) (blk : List Byte) : List Byte :=
  let keyAt := fun (r : Nat) => (slice rk.flatten (16 * r) 16)
  (List.range 14).foldl (fun s r =>
      let t := aesShiftRows (s.map aesSub)
      xorBytes (if r = 13 then t else (chunks 4 t).flatMap aesMixColumn) (keyAt (r + 1)))
    (xorBytes (fitBytes 16 blk) (keyAt 0))

/-! ### GCM -/

/-- Multiplication in GF(2^128) with GCM's bit order. -/
def gcmMul (x y : Nat) : Nat :=
  ((List.range 128).foldl (fun (acc : Nat × Nat) i =>
      (if x.testBit (127 - i) then acc.1 ^^^ acc.2 else acc.1,
       if acc.2 % 2 = 1 then (acc.2 / 2) ^^^ (0xE1 * 2 ^ 120) else acc.2 / 2)) (0, y)).1

/-- GHASH over whole 16-byte blocks. -/
def ghash (h : Nat) (bs : List Byte) : Nat := (chunks 16 bs).foldl (fun y c => gcmMul (y ^^^ beNat c) h) 0

/-- The key stream applied from counter `ctr`. -/
def gcmCtr (rk : List (List Byte)) (nonce : List Byte) (ctr : Nat) (bs : List Byte) : List Byte :=
  let cs := chunks 16 bs
  ((List.range cs.length).zip cs).flatMap (fun c => xorBytes c.2 (aesBlock rk (nonce ++ beBytes 4 (ctr + c.1))))

/-- The tag over associated data and ciphertext. -/
def gcmTag (rk : List (List Byte)) (nonce aad ct : List Byte) : List Byte :=
  let h := beNat (aesBlock rk (zeros 16))
  let s := ghash h (padTo 16 aad ++ padTo 16 ct ++ beBytes 8 (8 * aad.length) ++ beBytes 8 (8 * ct.length))
  xorBytes (beBytes 16 s) (aesBlock rk (nonce ++ beBytes 4 1))

/-- AES-256-GCM encryption with a 12-byte nonce: ciphertext and 16-byte tag. -/
def gcmSeal (key nonce aad pt : List Byte) : List Byte × List Byte :=
  let rk := aesSchedule key
  let ct := gcmCtr rk nonce 2 pt
  (ct, gcmTag rk nonce aad ct)

/-- AES-256-GCM decryption: none where the tag does not verify. -/
def gcmOpen (key nonce aad ct tag : List Byte) : Option (List Byte) :=
  let rk := aesSchedule key
  if gcmTag rk nonce aad ct = tag then some (gcmCtr rk nonce 2 ct) else none

end Sys2Proof.Machine
end

