-- ==== Sys2Proof/Machine/Kem.lean ====
section
/-! DEFINITION. SHA-3 and SHAKE (FIPS 202) and ML-KEM-1024 (FIPS 203), which R393, R396 and R400 name and do not print.
PRESUMED (log 10): both are taken from those standards. -/

namespace Sys2Proof.Machine
open Sys2Proof

/-! ### Keccak-f[1600] (FIPS 202) -/

/-- The round constants. -/
def keccakRC : List W64 :=
  [0x0000000000000001, 0x0000000000008082, 0x800000000000808A, 0x8000000080008000, 0x000000000000808B, 0x0000000080000001] ++
  [0x8000000080008081, 0x8000000000008009, 0x000000000000008A, 0x0000000000000088, 0x0000000080008009, 0x000000008000000A] ++
  [0x000000008000808B, 0x800000000000008B, 0x8000000000008089, 0x8000000000008003, 0x8000000000008002, 0x8000000000000080] ++
  [0x000000000000800A, 0x800000008000000A, 0x8000000080008081, 0x8000000000008080, 0x0000000080000001, 0x8000000080008008]

/-- How far each lane turns, lane x + 5 y. -/
def keccakRot : List Nat := [0, 1, 62, 28, 27, 36, 44, 6, 55, 20, 3, 10, 43, 25, 39, 41, 45, 15, 21, 8, 18, 2, 61, 56, 14]

/-- A lane turned left. -/
def rotl64 (x : W64) (n : Nat) : W64 := (x <<< n) ||| (x >>> (64 - n))

/-- One round over 25 lanes: θ, ρ and π, χ, ι. -/
def keccakRound (a : List W64) (rc : W64) : List W64 :=
  let g := fun (l : List W64) (x y : Nat) => l.getD (x % 5 + 5 * (y % 5)) 0
  let c := (List.range 5).map (fun x => g a x 0 ^^^ g a x 1 ^^^ g a x 2 ^^^ g a x 3 ^^^ g a x 4)
  let d := (List.range 5).map (fun x => c.getD ((x + 4) % 5) 0 ^^^ rotl64 (c.getD ((x + 1) % 5) 0) 1)
  let t := (List.range 25).map (fun i => a.getD i 0 ^^^ d.getD (i % 5) 0)
  -- the lane that π brings to x, y comes from (x + 3 y, x)
  let b := (List.range 25).map (fun i => let j := (i % 5 + 3 * (i / 5)) % 5 + 5 * (i % 5); rotl64 (t.getD j 0) (keccakRot.getD j 0))
  let e := (List.range 25).map (fun i => g b (i % 5) (i / 5) ^^^ ((~~~ g b (i % 5 + 1) (i / 5)) &&& g b (i % 5 + 2) (i / 5)))
  (e.headD 0 ^^^ rc) :: e.drop 1

def keccakF (a : List W64) : List W64 := keccakRC.foldl keccakRound a

/-- A block of `rate` bytes is taken in. -/
def keccakAbsorb (rate : Nat) (a : List W64) (blk : List Byte) : List W64 :=
  keccakF ((List.range 25).map (fun i => a.getD i 0 ^^^ (if 8 * i < rate then BitVec.ofNat 64 (leAt blk (8 * i) 8) else 0)))

/-- The bytes of a rate from the lanes. -/
def keccakOut (rate : Nat) (a : List W64) : List Byte := ((a.map (fun w => leBytes 8 w.toNat)).flatten).take rate

/-- The sponge: message, suffix bits, padding; `n` bytes out. -/
def keccakSponge (rate : Nat) (suffix : Byte) (msg : List Byte) (n : Nat) : List Byte :=
  let q := rate - msg.length % rate
  let pad : List Byte := if q = 1 then [suffix ||| 0x80] else [suffix] ++ zeros (q - 2) ++ [0x80]
  let a := (chunks rate (msg ++ pad)).foldl (keccakAbsorb rate) (List.replicate 25 0)
  (((List.range (ceilDiv n rate)).foldl (fun (acc : List Byte × List W64) _ => (acc.1 ++ keccakOut rate acc.2, keccakF acc.2)) ([], a)).1).take n

def sha3_256 (msg : List Byte) : List Byte := keccakSponge 136 0x06 msg 32
def sha3_512 (msg : List Byte) : List Byte := keccakSponge 72 0x06 msg 64
def shake128 (msg : List Byte) (n : Nat) : List Byte := keccakSponge 168 0x1F msg n
def shake256 (msg : List Byte) (n : Nat) : List Byte := keccakSponge 136 0x1F msg n

/-! ### Polynomials over Z_q (FIPS 203) -/

/-- q of FIPS 203. -/
def kemQ : Nat := 3329

/-- The 256 coefficients of a polynomial, or of its transform. -/
abbrev Poly := List Nat

def polyOf (f : Nat → Nat) : Poly := (List.range 256).map f
def polyAdd (a b : Poly) : Poly := polyOf (fun i => (a.getD i 0 + b.getD i 0) % kemQ)
def polySub (a b : Poly) : Poly := polyOf (fun i => (a.getD i 0 + kemQ - b.getD i 0) % kemQ)
def polyZero : Poly := List.replicate 256 0

/-- The seven bits of a number in reverse order. -/
def bitRev7 (i : Nat) : Nat := sumBy (fun k => b2n (i.testBit k) * 2 ^ (6 - k)) (List.range 7)

/-- 17 ^ n modulo q; the order of 17 is 256. -/
def zetaPow (n : Nat) : Nat := 17 ^ (n % 256) % kemQ

/-- The transform: coefficients 2 i and 2 i + 1 are the residue modulo X² − ζ^(2 BitRev7(i) + 1). -/
def polyNtt (f : Poly) : Poly :=
  polyOf (fun k =>
    let e := 2 * bitRev7 (k / 2) + 1
    sumBy (fun j => f.getD (2 * j + k % 2) 0 * zetaPow (e * j)) (List.range 128) % kemQ)

/-- Its inverse; 3303 is 1 / 128 modulo q. -/
def polyInvNtt (g : Poly) : Poly :=
  polyOf (fun k =>
    3303 * sumBy (fun i => g.getD (2 * i + k % 2) 0 * zetaPow (256 - (2 * bitRev7 i + 1) * (k / 2) % 256)) (List.range 128) % kemQ)

/-- The product in the transform. -/
def polyMul (a b : Poly) : Poly :=
  polyOf (fun k =>
    let i := k / 2
    let x := fun (p : Poly) (j : Nat) => p.getD (2 * i + j) 0
    if k % 2 = 0 then (x a 0 * x b 0 + x a 1 * x b 1 % kemQ * zetaPow (2 * bitRev7 i + 1)) % kemQ else (x a 0 * x b 1 + x a 1 * x b 0) % kemQ)

/-- The inner product of two vectors in the transform. -/
def polyDot (a b : List Poly) : Poly := (a.zip b).foldl (fun acc p => polyAdd acc (polyMul p.1 p.2)) polyZero

/-- ByteEncode_d. -/
def polyEncode (d : Nat) (f : Poly) : List Byte := leBytes (32 * d) (f.foldr (fun v acc => v % 2 ^ d + 2 ^ d * acc) 0)

/-- ByteDecode_d. -/
def polyDecode (d : Nat) (bs : List Byte) : Poly :=
  let n := leNat (bs.take (32 * d))
  polyOf (fun i => let v := (n >>> (d * i)) % 2 ^ d; if d = 12 then v % kemQ else v)

/-- Compress_d and Decompress_d, rounded to nearest. -/
def polyCompress (d : Nat) (f : Poly) : Poly := f.map (fun x => (2 ^ (d + 1) * x + kemQ) / (2 * kemQ) % 2 ^ d)
def polyDecompress (d : Nat) (f : Poly) : Poly := f.map (fun y => (2 * kemQ * y + 2 ^ d) / 2 ^ (d + 1))

/-- The two candidates of three bytes of the stream, q or more refused. -/
def sampleTwo (bs : List Byte) : List Nat :=
  let c := fun (i : Nat) => (bs.getD i 0).toNat
  [c 0 + 256 * (c 1 % 16), c 1 / 16 + 16 * c 2].filter (fun v => decide (v < kemQ))

/-- SampleNTT; 840 bytes of the stream, the least bound that FIPS 203 allows. -/
def sampleNtt (seed : List Byte) : Poly :=
  let l := ((chunks 3 (shake128 seed 840)).map sampleTwo).flatten
  polyOf (fun i => l.getD i 0)

/-- SamplePolyCBD_2 of PRF_2. -/
def samplePoly (seed : List Byte) (n : Nat) : Poly :=
  let v := leNat (shake256 (seed ++ [BitVec.ofNat 8 n]) 128)
  polyOf (fun i => let b := fun (k : Nat) => b2n (v.testBit (4 * i + k)); (b 0 + b 1 + kemQ - b 2 - b 3) % kemQ)

/-! ### K-PKE and ML-KEM-1024: k = 4, η₁ = η₂ = 2, d_u = 11, d_v = 5 -/

/-- The matrix from ρ: row i, column j. -/
def kemMatrix (rho : List Byte) : List (List Poly) :=
  (List.range 4).map (fun i => (List.range 4).map (fun j => sampleNtt (rho ++ [BitVec.ofNat 8 j, BitVec.ofNat 8 i])))

/-- A vector of four sampled polynomials, numbered from `n`. -/
def sampleVec (seed : List Byte) (n : Nat) : List Poly := (List.range 4).map (fun i => samplePoly seed (n + i))

def encodeVec (d : Nat) (v : List Poly) : List Byte := (v.map (polyEncode d)).flatten
def decodeVec (d : Nat) (bs : List Byte) : List Poly := (List.range 4).map (fun i => polyDecode d (slice bs (32 * d * i) (32 * d)))

/-- Encryption and decryption key of K-PKE from d. -/
def pkeKeyGen (d : List Byte) : List Byte × List Byte :=
  let g := sha3_512 (d ++ [4])
  let rho := g.take 32
  let s := (sampleVec (g.drop 32) 0).map polyNtt
  let e := (sampleVec (g.drop 32) 4).map polyNtt
  let t := List.zipWith (fun row ei => polyAdd (polyDot row s) ei) (kemMatrix rho) e
  (encodeVec 12 t ++ rho, encodeVec 12 s)

/-- K-PKE encryption of 32 bytes. -/
def pkeEncrypt (ek m r : List Byte) : List Byte :=
  let t := decodeVec 12 ek
  let a := kemMatrix (slice ek 1536 32)
  let y := (sampleVec r 0).map polyNtt
  let e1 := sampleVec r 4
  let e2 := samplePoly r 8
  let u := (List.range 4).map (fun i => polyAdd (polyInvNtt (polyDot (a.map (fun row => row.getD i polyZero)) y)) (e1.getD i polyZero))
  let mu := polyDecompress 1 (polyDecode 1 m)
  let v := polyAdd (polyAdd (polyInvNtt (polyDot t y)) e2) mu
  encodeVec 11 (u.map (polyCompress 11)) ++ polyEncode 5 (polyCompress 5 v)

/-- K-PKE decryption. -/
def pkeDecrypt (dk c : List Byte) : List Byte :=
  let u := (decodeVec 11 c).map (polyDecompress 11)
  let v := polyDecompress 5 (polyDecode 5 (slice c 1408 160))
  let w := polySub v (polyInvNtt (polyDot (decodeVec 12 dk) (u.map polyNtt)))
  polyEncode 1 (polyCompress 1 w)

/-- The public key of the pair that 64 random bytes d and z give (R396, R398 KEM_PUB). -/
def kemPub (seed : List Byte) : List Byte := (pkeKeyGen (fitBytes 32 seed)).1

/-- Encapsulation to a public key with 32 random bytes: shared secret and ciphertext. -/
def kemEncaps (ek m : List Byte) : List Byte × List Byte :=
  let g := sha3_512 (fitBytes 32 m ++ sha3_256 ek)
  (g.take 32, pkeEncrypt ek (fitBytes 32 m) (g.drop 32))

/-- Decapsulation with the pair of a seed; a ciphertext that does not encrypt anew to itself gives an unrelated secret (R401). -/
def kemDecaps (seed c : List Byte) : List Byte :=
  let k := pkeKeyGen (fitBytes 32 seed)
  let m := pkeDecrypt k.2 c
  let g := sha3_512 (m ++ sha3_256 k.1)
  if pkeEncrypt k.1 m (g.drop 32) = c then g.take 32 else shake256 (fitBytes 32 (seed.drop 32) ++ c) 32

end Sys2Proof.Machine
end

