-- ==== Sys2Proof/Config.lean ====
section
/-! DEFINITION. What one part fixes and the manual leaves open: fused values, boot-flash contents at first power, the
open results, and the free values. Every constant here has no body, so no proof can see its value. -/

namespace Sys2Proof

/-- What an address of a control core names (R416, R417): a sealed memory, an 8-byte word of the metadata in unsealed die SRAM, other SRAM, or the
core's own state and memory. -/
inductive DebugPlace where
  | isSealed
  | desc (d word : Nat)
  | tiles (d word : Nat)
  | ledger (die slot word : Nat)
  | weightRecord (set : Nat × Nat × Nat) (mat part group word : Nat)
  | lseRecord (key : Nat × Nat × Nat × Nat) (word : Nat)
  | sram
  | own
  deriving DecidableEq, Repr, Inhabited

end Sys2Proof

namespace Sys2Proof.Config
open Sys2Proof

/-- The unit identifier of the identity block (R459), fused. -/
opaque unitId : W64
/-- The base MAC address (R459), fused; bits [47:0]. -/
opaque macBase : BitVec 48
/-- The fused core-rail target in mV (R419, R461). -/
opaque avsFused : Nat
/-- How far the warning, the reset and the floor threshold of a voltage monitor lie from their typical values: that many mV less 5 (R420). -/
opaque sagTrim : Nat → Nat → Fin 11
/-- OWNER_KEY_HASH as fused (R395, R398). -/
opaque ownerKeyHash : BitVec 256
/-- The set bits of the security-version thermometer at manufacture (R395). -/
opaque fusedThermometer : Nat
/-- Identifier and seed of tree `n` of the device identity key, 48 bytes, from the fused private seed (R396). -/
opaque hssSeed : Nat → List Byte
/-- The randomizers of the device key's signatures, 32 bytes (R394). -/
opaque hssRandom : Nat → List Byte
/-- The certificate over it, 2,964 bytes (R396, R398). -/
opaque deviceCert : List Byte
/-- The ledger generation in the boot flash at first power (R254, R471). -/
opaque flashLedgerGen : Nat
/-- The evidence counter in the boot flash at first power (R397). -/
opaque flashEvidence : Nat
/-- The retirement list in the boot flash at first power: the 9-bit mask of each cluster (R440). -/
opaque flashRetired : Nat → BitVec 9
/-- The value of the two address-select straps, sampled at power good (R450, R483). -/
opaque smbStraps : BitVec 2

/-- A fresh free value: the value of the `n`-th draw (random numbers, contents nobody wrote, unread operands). -/
opaque freeWord : Nat → W64
/-- A fresh free choice of the node: the `n`-th draw, taken modulo the number of candidates (R20, R159, R160). -/
opaque freePick : Nat → Nat
/-- The channel of a stack that holds a granule wholly (R182), taken modulo 32. -/
opaque channelOf : Nat → Nat → Nat
/-- The estimated service time in ns of a ply of `n` members (R95). -/
opaque plyServiceNs : Nat → Nat
/-- The WINDOW a receiver advertises to a peer: its share of `free` bytes of reassembly space (R331, R335). -/
opaque windowShare : Nat → Nat → Nat
/-- The WINDOW a sender assumes before the first acknowledgement from a peer (R332). -/
opaque firstWindow : Nat

/-- The result of x / 0 for a finite x, which no rule states (R60). -/
opaque divByZero : F32 → F32
/-- The square root of a negative value, which no rule states (R60). -/
opaque sqrtNegative : F32 → F32
/-- ln of zero or of a negative value, which no rule states outside R48 (R60). -/
opaque lnNotPositive : F32 → F32
/-- K_FMT and V_FMT of the tiles that PROJ.KV opens where the stream holds no own tile in the layer, as a number below 9; no rule
gives them (R123, R270). -/
opaque projKFmt : Nat
opaque projVFmt : Nat
/-- The code of HEAD_DIM that PROJ.KV takes where no tile gives it; no rule gives it (R122, R123). -/
opaque projDimCode : Nat → Nat
/-- The rotation fields by which the gradient mode of PROJ.KV turns dK back; no operand gives them (R125). -/
opaque gradRopeBase : F32
opaque gradRopeDims : Nat → Nat
opaque gradRopeSplit : Bool
/-- The format of a weight-gradient area that the gradient mode of PROJ.KV writes first, a code of R110 (R80, R125). -/
opaque gradAreaFmt : Nat
/-- The element code of a value whose pip · s2 rounds to zero under a supplied scale, where R66 divides by zero. -/
opaque quantByZero : F32 → Nat
/-- The content of a byte of T1 or SRAM that nobody has written since it was allocated: the `n`-th draw. -/
opaque freeByte : Nat → Byte

/-- The IV of a transfer on the private channel, by its number (R393). -/
opaque channelIv : Nat → List Byte
/-- The golden digest of a canary suite (R311, R312). -/
opaque goldenDigest : Nat → W64
/-- Whether the firmware holds a canary suite of this number, other than suite 0 (R311). -/
opaque hasSuite : Nat → Bool
/-- What an address of a control core names: for a core and an address (R416, R417). -/
opaque debugPlace : Nat → Nat → DebugPlace
/-- The handle of a descriptor's tile lists (R30). -/
opaque tileMap : Nat → Nat
/-- What an unlocked internal scan chain shifts out: draw, bits shifted in (R417, R451). -/
opaque scanOut : Nat → List Bool → List Bool
/-- What the boundary register captures of the package lands: draw (R451). -/
opaque boundaryCapture : Nat → List Bool
/-- The hash of the peer and the frame that spreads UDP source ports (R320). -/
opaque udpPortHash : Nat → Nat → Nat → Nat
/-- The hash that chooses the first pool target of a tile: tenant, stream, layer, BASE_POS (R164). -/
opaque poolHash : Nat → Nat → Nat → Nat → Nat

end Sys2Proof.Config
end

