-- ==== Sys2Proof/Machine/Fp.lean ====
section
/-! DEFINITION. The number formats of R56, the one rounding rule of R59, the special values of R62, and the correctly
rounded FP32 operations of R60. Values are handled as exact dyadic numbers and rounded once. -/

namespace Sys2Proof.Machine
open Sys2Proof

/-- What a code of a floating or integer format stands for: a NaN, an infinity, or (−1)^neg · m · 2^e (R56). -/
inductive Num where
  | nan
  | inf (neg : Bool)
  | fin (neg : Bool) (m : Nat) (e : Int)
  deriving DecidableEq, Repr

/-- What a floating format does beyond its largest finite value (R56, R61). -/
inductive Special where
  | ieee      -- exponent all ones holds infinity and NaN
  | e4m3      -- no infinity, one NaN code
  | none      -- neither
  deriving DecidableEq, Repr

/-- A floating format: exponent bits, mantissa bits, bias, specials (R56). -/
structure FloatFmt where
  eb : Nat
  mb : Nat
  bias : Nat
  special : Special
  deriving DecidableEq, Repr

def fmtFp32 : FloatFmt := ⟨8, 23, 127, .ieee⟩
def fmtBf16 : FloatFmt := ⟨8, 7, 127, .ieee⟩
def fmtFp16 : FloatFmt := ⟨5, 10, 15, .ieee⟩
def fmtE5m2 : FloatFmt := ⟨5, 2, 15, .ieee⟩
def fmtE4m3 : FloatFmt := ⟨4, 3, 7, .e4m3⟩
def fmtE3m2 : FloatFmt := ⟨3, 2, 3, .none⟩
def fmtE2m3 : FloatFmt := ⟨2, 3, 1, .none⟩
def fmtE2m1 : FloatFmt := ⟨2, 1, 1, .none⟩
/-- The pip's format without its absent sign bit (R56). -/
def fmtUe4m3 : FloatFmt := ⟨4, 3, 7, .e4m3⟩

/-- The bits of one element. -/
def FloatFmt.bits (f : FloatFmt) : Nat := 1 + f.eb + f.mb

/-- The value of a code (R56). -/
def FloatFmt.decode (f : FloatFmt) (code : Nat) : Num :=
  let m := code % 2 ^ f.mb
  let e := (code >>> f.mb) % 2 ^ f.eb
  let neg := code.testBit (f.eb + f.mb)
  let top := 2 ^ f.eb - 1
  if f.special = .ieee ∧ e = top then (if m = 0 then .inf neg else .nan)
  else if f.special = .e4m3 ∧ e = top ∧ m = 2 ^ f.mb - 1 then .nan
  else if e = 0 then .fin neg m (1 - (f.bias : Int) - f.mb)
  else .fin neg (2 ^ f.mb + m) ((e : Int) - f.bias - f.mb)

/-- The code of the largest finite magnitude (R56). -/
def FloatFmt.maxCode (f : FloatFmt) : Nat :=
  match f.special with
  | .ieee => 2 ^ (f.eb + f.mb) - 2 ^ f.mb - 1
  | .e4m3 => 2 ^ (f.eb + f.mb) - 2
  | .none => 2 ^ (f.eb + f.mb) - 1

/-- The magnitude code of infinity in a format that has it. -/
def FloatFmt.infCode (f : FloatFmt) : Nat := 2 ^ (f.eb + f.mb) - 2 ^ f.mb

/-- The canonical positive quiet NaN (R62); for E4M3 its one NaN code. -/
def FloatFmt.nanCode (f : FloatFmt) : Nat :=
  match f.special with
  | .ieee => f.infCode + 2 ^ (f.mb - 1)
  | .e4m3 => 2 ^ (f.eb + f.mb) - 1
  | .none => 0

/-- ⌊log2(num / den)⌋ for positive num and den. -/
def log2Rat (num den : Nat) : Int :=
  let l : Int := (Nat.log2 num : Int) - Nat.log2 den
  -- 2^l ≤ num/den exactly when num ≥ den·2^l
  if l ≥ 0 then (if num ≥ den * 2 ^ l.toNat then l else l - 1)
  else (if num * 2 ^ (-l).toNat ≥ den then l else l - 1)

/-- num · 2^k / den rounded to the nearest integer, ties to even. -/
def roundDiv (num den : Nat) (k : Int) : Nat :=
  let n := if k ≥ 0 then num * 2 ^ k.toNat else num
  let d := if k ≥ 0 then den else den * 2 ^ (-k).toNat
  let q := n / d
  let r := n % d
  if 2 * r < d then q else if 2 * r > d then q + 1 else if q % 2 = 0 then q else q + 1

/-- The magnitude code nearest to (num / den) · 2^e, ties to even, not limited by the largest finite value (R59). -/
def FloatFmt.roundMag (f : FloatFmt) (num den : Nat) (e : Int) : Nat :=
  if num = 0 then 0 else
  let emin : Int := 1 - (f.bias : Int)
  let l := log2Rat num den + e
  let q := (if l < emin then emin else l) - f.mb
  let r := roundDiv num den (e - q)
  -- a code is linear in the significand across the carry into the next binade
  if l < emin then r else ((l + f.bias).toNat - 1) * 2 ^ f.mb + r

/-- The code nearest to (−1)^neg (num / den) 2^e by R61: overflow gives infinity where the format has it, else the largest
finite value. The second component says that a finite value saturated or became infinite (R71). -/
def FloatFmt.roundRat (f : FloatFmt) (neg : Bool) (num den : Nat) (e : Int) : Nat × Bool :=
  let c := f.roundMag num den e
  let ovr := decide (c > f.maxCode)
  let mag := if ovr then (if f.special = .ieee then f.infCode else f.maxCode) else c
  (mag + (if neg then 2 ^ (f.eb + f.mb) else 0), ovr)

/-- The code of a number by R61 (NaN gives the canonical NaN code). -/
def FloatFmt.round (f : FloatFmt) (x : Num) : Nat × Bool :=
  match x with
  | .nan => (f.nanCode, false)
  | .inf neg => ((if f.special = .ieee then f.infCode else f.maxCode) + (if neg then 2 ^ (f.eb + f.mb) else 0), false)
  | .fin neg m e => f.roundRat neg m 1 e

/-- The number an FP32 pattern stands for. -/
def F32.num (x : F32) : Num := fmtFp32.decode x.toNat

/-- Rounds a number to FP32 (R59). -/
def toF32 (x : Num) : F32 := BitVec.ofNat 32 (fmtFp32.round x).1

def f32Nan : F32 := 0x7FC00000
def f32PosInf : F32 := 0x7F800000
def f32NegInf : F32 := 0xFF800000
def f32Zero : F32 := 0
def f32One : F32 := 0x3F800000

def F32.isNan (x : F32) : Bool := decide (F32.num x = .nan)
def F32.isFinite (x : F32) : Bool := match F32.num x with | .fin _ _ _ => true | _ => false
def F32.isZero (x : F32) : Bool := decide (x.toNat % 2 ^ 31 = 0)
def F32.neg (x : F32) : F32 := if F32.isNan x then f32Nan else x ^^^ 0x80000000

/-- The exact sum; the sum of zeros of unlike sign and an exact cancellation give +0. -/
def Num.add (a b : Num) : Num :=
  match a, b with
  | .nan, _ => .nan
  | _, .nan => .nan
  | .inf s, .inf t => if s = t then .inf s else .nan
  | .inf s, _ => .inf s
  | _, .inf t => .inf t
  | .fin s m e, .fin t n g =>
    let lo := if e < g then e else g
    let m' : Int := (m * 2 ^ (e - lo).toNat : Nat)
    let n' : Int := (n * 2 ^ (g - lo).toNat : Nat)
    let v := (if s then -m' else m') + (if t then -n' else n')
    if v = 0 then .fin (s && t) 0 lo else .fin (decide (v < 0)) v.natAbs lo

/-- The exact product (0 · ∞ is a NaN). -/
def Num.mul (a b : Num) : Num :=
  match a, b with
  | .nan, _ => .nan
  | _, .nan => .nan
  | .inf s, .inf t => .inf (s != t)
  | .inf s, .fin t n _ => if n = 0 then .nan else .inf (s != t)
  | .fin s m _, .inf t => if m = 0 then .nan else .inf (s != t)
  | .fin s m e, .fin t n g => .fin (s != t) (m * n) (e + g)

/-- −x. -/
def Num.neg (a : Num) : Num :=
  match a with
  | .nan => .nan
  | .inf s => .inf (!s)
  | .fin s m e => .fin (!s) m e

/-- a ≤ b for numbers that are not NaN; the two zeros are equal. -/
def Num.le (a b : Num) : Bool :=
  match a, b with
  | .nan, _ => false
  | _, .nan => false
  | .inf true, _ => true
  | _, .inf false => true
  | .inf false, _ => false
  | _, .inf true => false
  | .fin s m e, .fin t n g =>
    let lo := if e < g then e else g
    let m' : Int := (m * 2 ^ (e - lo).toNat : Nat)
    let n' : Int := (n * 2 ^ (g - lo).toNat : Nat)
    decide ((if s then -m' else m') ≤ (if t then -n' else n'))

def Num.lt (a b : Num) : Bool := Num.le a b && !Num.le b a

def fadd (a b : F32) : F32 := toF32 (Num.add (F32.num a) (F32.num b))
def fsub (a b : F32) : F32 := toF32 (Num.add (F32.num a) (Num.neg (F32.num b)))
def fmul (a b : F32) : F32 := toF32 (Num.mul (F32.num a) (F32.num b))

/-- The correctly rounded quotient (R60). A finite value divided by zero is left open. -/
def fdiv (a b : F32) : F32 :=
  match F32.num a, F32.num b with
  | .nan, _ => f32Nan
  | _, .nan => f32Nan
  | .inf _, .inf _ => f32Nan
  | .inf s, .fin t _ _ => toF32 (.inf (s != t))
  | .fin s _ _, .inf t => toF32 (.fin (s != t) 0 0)
  | .fin s m e, .fin t n g =>
    if n = 0 then Config.divByZero a
    else BitVec.ofNat 32 (fmtFp32.roundRat (s != t) m n (e - g)).1

/-- The integer square root, by `fuel` halvings from the top bit. -/
def isqrtFuel : Nat → Nat → Nat → Nat
  | 0, _, r => r
  | k + 1, n, r => let r' := r + 2 ^ k; if r' * r' ≤ n then isqrtFuel k n r' else isqrtFuel k n r

def isqrt (n : Nat) : Nat := isqrtFuel (Nat.log2 n / 2 + 1) n 0

/-- The correctly rounded square root (R60). -/
def fsqrt (a : F32) : F32 :=
  match F32.num a with
  | .nan => f32Nan
  | .inf false => f32PosInf
  | .inf true => Config.sqrtNegative a
  | .fin s m e =>
    if m = 0 then a
    else if s then Config.sqrtNegative a
    else
      -- an even exponent, 64 more bits, and a sticky bit below the root
      let e' := if e % 2 = 0 then e else e - 1
      let m' := (if e % 2 = 0 then m else 2 * m) * 2 ^ 128
      let r := isqrt m'
      toF32 (.fin false (2 * r + (if r * r = m' then 0 else 1)) (e' / 2 - 65))

/-- max and min of two values that are not NaN; a NaN operand gives NaN (R184). Of two zeros the first is taken. -/
def fmax (a b : F32) : F32 :=
  if F32.isNan a || F32.isNan b then f32Nan else if Num.lt (F32.num a) (F32.num b) then b else a
def fmin (a b : F32) : F32 :=
  if F32.isNan a || F32.isNan b then f32Nan else if Num.lt (F32.num b) (F32.num a) then b else a
def flt (a b : F32) : Bool := Num.lt (F32.num a) (F32.num b)
def fle (a b : F32) : Bool := Num.le (F32.num a) (F32.num b)

/-- An integer as FP32, rounded once. -/
def intF32 (i : Int) : F32 := toF32 (.fin (decide (i < 0)) i.natAbs 0)

/-! ### exp, ln, cos and sin

Fixed-point numbers with `fxBits` fraction bits enclose the exact result far more tightly than any FP32 argument comes to
a rounding boundary, so one rounding of the fixed-point value is the correctly rounded result of R60. -/

/-- Fraction bits of the fixed-point evaluation. -/
def fxBits : Nat := 320

/-- 1 in fixed point. -/
def fxOne : Nat := 2 ^ fxBits

/-- Σ over k of num / (odd · base^odd), the series of artanh(1/base), `n` terms. -/
def fxAtanhInv (base n : Nat) : Nat :=
  ((List.range n).foldl (fun (acc : Nat × Nat) k => (acc.1 + acc.2 / (2 * k + 1), acc.2 / (base * base))) (0, fxOne / base)).1

/-- Σ over k of (−1)^k / (odd · base^odd), the series of arctan(1/base), `n` terms. -/
def fxAtanInv (base n : Nat) : Int :=
  ((List.range n).foldl (fun (acc : Int × Nat) k =>
      (acc.1 + (if k % 2 = 0 then ((acc.2 / (2 * k + 1) : Nat) : Int) else -((acc.2 / (2 * k + 1) : Nat) : Int)), acc.2 / (base * base)))
    ((0 : Int), fxOne / base)).1

/-- ln 2 = 2 artanh(1/3). -/
def fxLn2 : Nat := 2 * fxAtanhInv 3 110

/-- π by Machin's formula. -/
def fxPi : Nat := (16 * fxAtanInv 5 75 - 4 * fxAtanInv 239 25).toNat

/-- A dyadic magnitude in fixed point, cut below the last fraction bit. -/
def fxOf (m : Nat) (e : Int) : Nat :=
  let k := e + fxBits
  if k ≥ 0 then m * 2 ^ k.toNat else m / 2 ^ (-k).toNat

/-- Σ x^k / k! for x in [0, 1), in fixed point. -/
def fxExpSmall (x : Nat) : Nat :=
  ((List.range 80).foldl (fun (acc : Nat × Nat) k => (acc.1 + acc.2, acc.2 * x / fxOne / (k + 1))) (0, fxOne)).1

/-- exp, correctly rounded (R60); exp(±0) is exactly 1 (R46). -/
def fexp (a : F32) : F32 :=
  match F32.num a with
  | .nan => f32Nan
  | .inf false => f32PosInf
  | .inf true => f32Zero
  | .fin s m e =>
    if m = 0 then f32One
    else if Num.lt (.fin false 200 0) (.fin false m e) then (if s then f32Zero else f32PosInf)
    else
      let x := fxOf m e
      if s then
        -- exp(−x) = 2^(−n) · exp(n ln2 − x) with n ln2 ≥ x
        let n := x / fxLn2 + 1
        toF32 (.fin false (fxExpSmall (n * fxLn2 - x)) (-(fxBits : Int) - n))
      else
        let n := x / fxLn2
        toF32 (.fin false (fxExpSmall (x - n * fxLn2)) (-(fxBits : Int) + n))

/-- ln, correctly rounded (R60); ln 1 is exactly +0. -/
def fln (a : F32) : F32 :=
  match F32.num a with
  | .nan => f32Nan
  | .inf false => f32PosInf
  | .inf true => Config.lnNotPositive a
  | .fin s m e =>
    if m = 0 || s then Config.lnNotPositive a
    else if a = f32One then f32Zero
    else
      -- a = y · 2^k with y in [1, 2); ln y = 2 artanh((y − 1) / (y + 1))
      let l := Nat.log2 m
      let k : Int := e + l
      let z := (m - 2 ^ l) * fxOne / (m + 2 ^ l)
      let z2 := z * z / fxOne
      let ser := ((List.range 110).foldl (fun (acc : Nat × Nat) i => (acc.1 + acc.2 / (2 * i + 1), acc.2 * z2 / fxOne)) (0, z)).1
      let v : Int := k * (fxLn2 : Int) + (2 * ser : Nat)
      toF32 (.fin (decide (v < 0)) v.natAbs (-(fxBits : Int)))

/-- cos x and sin x for x in [0, 2), in signed fixed point. Below the last bit of the series sin x is still less than x, so that no tie of x is one
of sin x. -/
def fxCosSin (x : Nat) : Int × Int :=
  let x2 := x * x / fxOne
  let c := (List.range 45).foldl (fun (acc : Int × Nat) k =>
      (acc.1 + (if k % 2 = 0 then (acc.2 : Int) else -(acc.2 : Int)), acc.2 * x2 / fxOne / ((2 * k + 1) * (2 * k + 2)))) ((0 : Int), fxOne)
  let s := (List.range 45).foldl (fun (acc : Int × Nat) k =>
      (acc.1 + (if k % 2 = 0 then (acc.2 : Int) else -(acc.2 : Int)), acc.2 * x2 / fxOne / ((2 * k + 2) * (2 * k + 3)))) ((0 : Int), x)
  (c.1, if x ≠ 0 ∧ s.1 = (x : Int) then s.1 - 1 else s.1)

/-- cos and sin of the exact product n · θ, each correctly rounded (R89). -/
def cosSinOf (n : Int) (theta : F32) : F32 × F32 :=
  match F32.num theta with
  | .fin _ m e =>
    if m = 0 || n = 0 then (f32One, f32Zero)
    else
      let t := fxOf (m * n.natAbs) e
      let half := fxPi / 2
      let q := t / half
      let cs := fxCosSin (t - q * half)
      let p : Int × Int :=
        match q % 4 with
        | 0 => (cs.1, cs.2)
        | 1 => (-cs.2, cs.1)
        | 2 => (-cs.1, -cs.2)
        | _ => (cs.2, -cs.1)
      let sn := if n < 0 then -p.2 else p.2
      let r := fun (v : Int) => toF32 (.fin (decide (v < 0)) v.natAbs (-(fxBits : Int)))
      (r p.1, r sn)
  | _ => (f32Nan, f32Nan)

/-! ### The pairwise tree of R52 -/

/-- One level of the tree: neighbouring pairs, a missing right partner being a subtree of +0. -/
def pairUp : List F32 → List F32
  | [] => []
  | [a] => [fadd a f32Zero]
  | a :: b :: r => fadd a b :: pairUp r

/-- `fuel` levels at most. -/
def treeFuel : Nat → List F32 → F32
  | _, [] => f32Zero
  | _, [a] => a
  | 0, a :: _ => a
  | k + 1, l => treeFuel k (pairUp l)

/-- tree(x): x padded with +0 to a power of two, neighbouring pairs added level by level, each addition rounded (R52). -/
def tree (xs : List F32) : F32 := treeFuel xs.length xs

end Sys2Proof.Machine
end

