-- ==== Sys2Proof/Machine/Quant.lean ====
section
/-! DEFINITION. Two-level scaling, quantization, the contraction of loaded against stored operands, and the positional
rotation (R35, R37, R56 to R76, R89). -/

namespace Sys2Proof.Machine
open Sys2Proof

/-! ### Stored formats -/

/-- The floating format of a code of R35, of R110 and R226 (0xF is FP32); none for the integer formats and reserved codes. -/
def floatOf (code : Nat) : Option FloatFmt :=
  match code with
  | 1 => some fmtBf16
  | 2 => some fmtFp16
  | 3 => some fmtE5m2
  | 4 => some fmtE4m3
  | 5 => some fmtE3m2
  | 6 => some fmtE2m3
  | 7 => some fmtE2m1
  | 15 => some fmtFp32
  | _ => none

/-- Bits per element (R35). -/
def fmtBits (code : Nat) : Nat :=
  match code with
  | 1 => 16 | 2 => 16 | 3 => 8 | 4 => 8 | 5 => 6 | 6 => 6 | 7 => 4 | 8 => 8 | 9 => 4 | 15 => 32 | _ => 0

/-- The code names a stored format of R35. -/
def fmtOk (code : Nat) : Bool := decide (1 ≤ code ∧ code ≤ 9)
/-- The format carries pips (R35). -/
def hasPips (code : Nat) : Bool := decide ((3 ≤ code ∧ code ≤ 7) ∨ code = 9)
/-- The format allows a zero point (R35). -/
def zpAllowed (code : Nat) : Bool := decide (code = 8 ∨ code = 9)
/-- INT8 or INT4. -/
def isInt (code : Nat) : Bool := zpAllowed code

/-- A stored format lies below the precision floor (R78). -/
def belowFloor (flr code : Nat) : Bool :=
  match flr with
  | 0 => false
  | 1 => decide (fmtBits code < 6)
  | 2 => decide (fmtBits code < 8)
  | _ => decide (code ≠ 1 ∧ code ≠ 2)

/-- The pip byte that marks a NaN block (R63). -/
def pipNan : Nat := 0x7F
/-- The pip 1.0. -/
def pipOne : Nat := 0x38

/-- The value of a pip byte (R56); 0x7F is the NaN of R63. -/
def pipNum (p : Nat) : Num := fmtUe4m3.decode p

/-- Step 1 of R64: the decoded element, exact. -/
def elemNum (fmt : Nat) (zp : Int) (code : Nat) : Num :=
  if fmt = 8 then
    if code % 256 = 128 then .nan
    else let d := signedOf 8 code - zp; .fin (decide (d < 0)) d.natAbs 0
  else if fmt = 9 then let d := signedOf 4 code - zp; .fin (decide (d < 0)) d.natAbs 0
  else match floatOf fmt with
    | some f => f.decode code
    | none => .nan

/-- One quantized domain: its second-level scale and zero point, its pips (none for a format without), its codes. -/
structure QDom where
  scale : F32
  zp : Int
  pips : List Nat
  codes : List Nat
  deriving DecidableEq, Repr

def QDom.empty : QDom := ⟨f32One, 0, [], []⟩

/-- The dequantized value of an element (R64). -/
def dequant (fmt pip : Nat) (s2 : F32) (zp : Int) (code : Nat) : F32 :=
  let d := elemNum fmt zp code
  let dp := if hasPips fmt then Num.mul d (pipNum pip) else d
  toF32 (Num.mul dp (F32.num s2))

/-- The pip in force for element `i` of a domain. -/
def QDom.pipAt (d : QDom) (i : Nat) : Nat := d.pips.getD (i / 16) pipOne

/-- Every element of a domain dequantized. -/
def QDom.values (fmt : Nat) (d : QDom) : List F32 :=
  (List.range d.codes.length).map (fun i => dequant fmt (d.pipAt i) d.scale d.zp (d.codes.getD i 0))

/-! ### Scales and pips -/

/-- The quantization target T of R66 as numerator and denominator. -/
def targetOf (fmt : Nat) : Nat × Nat :=
  match fmt with
  | 4 => (448, 1) | 3 => (32768, 1) | 5 => (28, 1) | 6 => (15, 2) | 7 => (6, 1) | 9 => (7, 1) | _ => (1, 1)

/-- The target of a conversion; probabilities into FP8 E4M3 aim at 256 (R66). -/
def targetFor (prob : Bool) (fmt : Nat) : Nat × Nat := if prob && fmt == 4 then (256, 1) else targetOf fmt

/-- The largest finite magnitude of a list, as a bit pattern (0 over none). -/
def maxMagBits (xs : List F32) : Nat := maxBy (fun x => if F32.isFinite x then x.toNat % 2 ^ 31 else 0) xs

/-- 2^k as FP32, k clamped to −126 … 127 (R67). -/
def pow2F32 (k : Int) : F32 :=
  let k := if k < -126 then -126 else if k > 127 then 127 else k
  BitVec.ofNat 32 ((k + 127).toNat * 2 ^ 23)

/-- ⌈log2(num / den · 2^e)⌉ for positive num. -/
def ceilLog2 (num den : Nat) (e : Int) : Int := -(log2Rat den num) + e

/-- The second-level scale that R67 gives for domain data. -/
def scaleFor (prob : Bool) (fmt : Nat) (xs : List F32) : F32 :=
  if fmt = 1 ∨ fmt = 15 then f32One
  else
    match F32.num (BitVec.ofNat 32 (maxMagBits xs)) with
    | .fin _ m e =>
      if m = 0 then f32One
      else if fmt = 8 then pow2F32 (ceilLog2 m 64 e)
      else if fmt = 2 then pow2F32 (ceilLog2 m 4096 e)
      else let t := targetFor prob fmt; pow2F32 (ceilLog2 (m * t.2) (16 * t.1) e)
    | _ => f32One

/-- Steps 1 to 3 of R66: the pip of a block. -/
def pipFor (prob : Bool) (fmt : Nat) (s2 : F32) (xs : List F32) : Nat :=
  if xs.any F32.isNan then pipNan
  else
    match F32.num (BitVec.ofNat 32 (maxMagBits xs)), F32.num s2 with
    | .fin _ m e, .fin _ sm se =>
      if m = 0 then (if xs.all F32.isFinite then 0 else pipOne)
      else let t := targetFor prob fmt; (fmtUe4m3.roundRat false (m * t.2) (t.1 * sm) (e - se)).1
    | _, _ => pipOne

/-- An FP32 value is a power of two. -/
def isPow2 (s : F32) : Bool :=
  match F32.num s with
  | .fin _ m _ => decide (m ≠ 0 ∧ m = 2 ^ Nat.log2 m)
  | _ => false

/-- The divisor pip · s2 of step 4 of R66; rounded once to FP32 where the scale is not a power of two (R68). -/
def divisorOf (fmt pip : Nat) (s2 : F32) : Num :=
  if hasPips fmt then
    let p := Num.mul (pipNum pip) (F32.num s2)
    if isPow2 s2 then p else F32.num (toF32 p)
  else F32.num s2

/-- The range of an integer format (R57). -/
def intRange (fmt : Nat) : Int × Int := if fmt = 8 then (-127, 127) else (-8, 7)

/-- Saturation to a range; the flag says that the value lay outside (R71). -/
def clampInt (r : Int × Int) (v : Int) : Int × Bool :=
  if v < r.1 then (r.1, true) else if v > r.2 then (r.2, true) else (v, false)

/-- Step 4 of R66 and R61 for one element: its code and whether a finite value saturated. An infinity gives R61's largest finite magnitude,
7 in INT4; a finite value below the range of INT4 gives −8, the end of R66's range (DEDUCED, log 61). -/
def quantElem (fmt : Nat) (div : Num) (zp : Int) (x : F32) : Nat × Bool :=
  let w := fmtBits fmt
  match div with
  | .fin _ dm de =>
    if dm = 0 then (Config.quantByZero x % 2 ^ w, false)
    else if isInt fmt then
      match F32.num x with
      | .nan => (if fmt = 8 then 128 else 0, false)
      | .inf s => (twos w (if s then -(intRange fmt).2 else (intRange fmt).2), false)
      | .fin s m e =>
        let q : Int := (roundDiv m dm (e - de) : Nat)
        let r := clampInt (intRange fmt) ((if s then -q else q) + zp)
        (twos w r.1, r.2)
    else
      match floatOf fmt with
      | none => (0, false)
      | some f =>
        match F32.num x with
        | .nan => (f.nanCode, false)
        | .inf s => f.round (.inf s)
        | .fin s m e => f.roundRat s m dm (e - de)
  | _ => (Config.quantByZero x % 2 ^ w, false)

/-- Quantizes one block under a scale and zero point (R66): pip, codes, saturated conversions. -/
def quantBlock (prob : Bool) (fmt : Nat) (s2 : F32) (zp : Int) (xs : List F32) : Nat × List Nat × Nat :=
  if hasPips fmt then
    let pip := pipFor prob fmt s2 xs
    if pip = pipNan then (pip, xs.map (fun _ => 0), 0)
    else if pip = 0 then (pip, xs.map (fun _ => twos (fmtBits fmt) (if fmt = 9 then zp else 0)), 0)
    else
      let d := divisorOf fmt pip s2
      let es := xs.map (quantElem fmt d zp)
      (pip, es.map Prod.fst, (es.filter (fun e => e.2)).length)
  else
    let es := xs.map (quantElem fmt (F32.num s2) zp)
    (pipOne, es.map Prod.fst, (es.filter (fun e => e.2)).length)

/-- Quantizes a whole domain under a given scale and zero point; the second component counts saturations (R71). -/
def quantWith (prob : Bool) (fmt : Nat) (s2 : F32) (zp : Int) (xs : List F32) : QDom × Nat :=
  let bs := (chunks 16 xs).map (quantBlock prob fmt s2 zp)
  (⟨s2, zp, if hasPips fmt then bs.map Prod.fst else [], (bs.map (fun b => b.2.1)).flatten⟩, sumBy (fun b => b.2.2) bs)

/-- Quantizes a domain with a fresh scale by R67 and no zero point. -/
def quantFresh (prob : Bool) (fmt : Nat) (xs : List F32) : QDom × Nat := quantWith prob fmt (scaleFor prob fmt xs) 0 xs

/-- The scale and zero point of a loaded INT8 operand with a zero point (R76). -/
def zpOperand (xs : List F32) : F32 × Int :=
  let fs := xs.filter F32.isFinite
  -- lo and hi over the finite values; 0 only where there are none
  let lo := match fs with | [] => f32Zero | x :: r => r.foldl (fun a y => if flt y a then y else a) x
  let hi := match fs with | [] => f32Zero | x :: r => r.foldl (fun a y => if flt a y then y else a) x
  match Num.add (F32.num hi) (Num.neg (F32.num lo)), Num.add (F32.num hi) (F32.num lo) with
  | .fin _ m e, .fin sn sm se =>
    if m = 0 then
      -- hi = lo: s = 1.0
      let q : Int := (roundDiv sm 2 se : Nat)
      (f32One, (clampInt (-127, 127) (if sn then q else -q)).1)
    else
      let k0 := ceilLog2 m 254 e
      let k : Int := if k0 < -126 then -126 else if k0 > 127 then 127 else k0
      let q : Int := (roundDiv sm 2 (se - k) : Nat)
      (pow2F32 k, (clampInt (-127, 127) (if sn then q else -q)).1)
  | _, _ => (f32One, 0)

/-- A loaded operand in format `fmt`, with its own zero point where `zp` asks for one (R74, R76). -/
def loadOperand (fmt : Nat) (zp : Bool) (xs : List F32) : QDom × Nat :=
  if zp && fmt == 8 then let sz := zpOperand xs; quantWith false fmt sz.1 sz.2 xs else quantFresh false fmt xs

/-- A supplied scale is acceptable for a format (R68). -/
def scaleOk (fmt : Nat) (s : F32) : Bool :=
  if fmt = 1 then decide (s = f32One)
  else match F32.num s with
    | .fin neg m _ => !neg && decide (m ≠ 0)
    | _ => false

/-- A supplied zero point is acceptable for a format (R68, R294). -/
def zpOk (fmt : Nat) (z : Int) : Bool :=
  if fmt = 8 then decide (-127 ≤ z ∧ z ≤ 127) else if fmt = 9 then decide (-8 ≤ z ∧ z ≤ 7) else decide (z = 0)

/-! ### Contraction (R72, R73) -/

/-- The zero points of a stored and a loaded operand combine (R75). -/
def zpPairOk (storedFmt : Nat) (storedZp : Bool) (loadedFmt : Nat) (loadedZp : Bool) : Bool :=
  if storedZp && storedFmt == 8 then loadedFmt == 8
  else if storedZp && storedFmt == 9 then (loadedFmt == 8 || loadedFmt == 9) && !loadedZp
  else !loadedZp || storedFmt == 8

/-- The exact integer Σ (a − za)(b − zb) of a block of two integer operands (R73); none where a NaN marker stands in it. -/
def blockInt (fa : Nat) (za : Int) (as : List Nat) (fb : Nat) (zb : Int) (bs : List Nat) : Option Int :=
  let marked := fun (fmt : Nat) (c : Nat) => decide (fmt = 8 ∧ c % 256 = 128)
  if (List.zip as bs).any (fun x => marked fa x.1 || marked fb x.2) then none
  else some ((List.zipWith (fun a b => (signedOf (fmtBits fa) a - za) * (signedOf (fmtBits fb) b - zb)) as bs).foldl (· + ·) 0)

/-- One block's u[j] = t[j] · (pa[j] · pb[j]) (R72); t[j] of two integer operands is an exact integer (R73). -/
def blockDot (fa : Nat) (za : Int) (pa : Nat) (as : List Nat) (fb : Nat) (zb : Int) (pb : Nat) (bs : List Nat) : F32 :=
  let t := match (if isInt fa && isInt fb then blockInt fa za as fb zb bs else none) with
    | some n => intF32 n
    | none => tree (List.zipWith (fun a b => toF32 (Num.mul (elemNum fa za a) (elemNum fb zb b))) as bs)
  let p := Num.mul (if hasPips fa then pipNum pa else .fin false 1 0) (if hasPips fb then pipNum pb else .fin false 1 0)
  toF32 (Num.mul (F32.num t) p)

/-- The contraction c of R72 of a loaded domain with a stored one. -/
def contract (fa : Nat) (a : QDom) (fb : Nat) (b : QDom) : F32 :=
  let ab := chunks 16 a.codes
  let bb := chunks 16 b.codes
  let us := (List.range ab.length).map (fun j =>
    blockDot fa a.zp (a.pips.getD j pipOne) (ab.getD j []) fb b.zp (b.pips.getD j pipOne) (bb.getD j []))
  fmul (tree us) (fmul a.scale b.scale)

/-! ### Row sums and sound pips (R36, R58, R73, R77) -/

/-- No pip byte has bit [7] set (R58). -/
def pipsSound (ps : List Nat) : Bool := ps.all (fun p => decide (p < 128))

/-- The key row sums of one position, one per head of `d` elements; zero for a floating format (R36). -/
def headSums (fmt d : Nat) (codes : List Nat) : List Int :=
  (chunks d codes).map (fun c => if isInt fmt then c.foldl (fun a x => a + signedOf (fmtBits fmt) x) 0 else 0)

/-- The sum of each span of 256 stored integers of a row (R73). -/
def spanSums (fmt : Nat) (row : List QDom) : List Int :=
  if isInt fmt then
    (chunks 256 (row.map QDom.codes).flatten).map (fun c => c.foldl (fun a x => a + signedOf (fmtBits fmt) x) 0)
  else []

/-! ### Rotation (R89) -/

/-- The rotation fields of a parameter block (R84). -/
structure Rope where
  base : F32
  dims : Nat
  split : Bool
  deriving DecidableEq, Repr

/-- θ_i of R89. -/
def ropeTheta (rp : Rope) (i : Nat) : F32 :=
  if i = 0 then f32One
  else fexp (fmul (F32.neg (fdiv (intF32 (2 * i : Nat)) (intF32 (rp.dims : Nat)))) (fln rp.base))

/-- rot(x, n) of R89; rot(x, 0) is x. -/
def rot (rp : Rope) (n : Int) (x : List F32) : List F32 :=
  if n = 0 then x
  else
    let h := rp.dims / 2
    let at' := fun (k : Nat) => x.getD k f32Zero
    let idx := fun (i : Nat) => if rp.split then (i, i + h) else (2 * i, 2 * i + 1)
    let pairs := (List.range h).map (fun i =>
      let cs := cosSinOf n (ropeTheta rp i)
      let ab := idx i
      let xa := at' ab.1
      let xb := at' ab.2
      (fsub (fmul xa cs.1) (fmul xb cs.2), fadd (fmul xa cs.2) (fmul xb cs.1)))
    (List.range x.length).map (fun k =>
      if k < rp.dims then
        if rp.split then (if k < h then (pairs.getD k (f32Zero, f32Zero)).1 else (pairs.getD (k - h) (f32Zero, f32Zero)).2)
        else let p := pairs.getD (k / 2) (f32Zero, f32Zero); if k % 2 = 0 then p.1 else p.2
      else at' k)

/-! ### Packing (R37) -/

/-- Elements packed little-endian (R37). -/
def packElems (fmt : Nat) (codes : List Nat) : List Byte :=
  let w := fmtBits fmt
  let bits := codes.foldr (fun c (acc : Nat) => c % 2 ^ w + acc * 2 ^ w) 0
  leBytes ((codes.length * w + 7) / 8) bits

/-- `n` elements unpacked (R37). -/
def unpackElems (fmt n : Nat) (bs : List Byte) : List Nat :=
  let w := fmtBits fmt
  let v := leNat bs
  (List.range n).map (fun i => (v >>> (w * i)) % 2 ^ w)

/-- FP32 or BF16 values of a program buffer, BF16 widened exactly (R259); format codes of R226. -/
def bufVals (fmt : Nat) (bs : List Byte) : List F32 :=
  if fmt = 1 then (chunks 2 bs).map (fun c => BitVec.ofNat 32 (leNat c * 65536))
  else (chunks 4 bs).map (fun c => BitVec.ofNat 32 (leNat c))

/-- Bytes of one element of a buffer format (R226). -/
def bufElem (fmt : Nat) : Nat := if fmt = 1 ∨ fmt = 2 then 2 else if fmt = 15 then 4 else 1

/-- FP32 values written in FP32, BF16 or FP16 (R61). -/
def valBytes (fmt : Nat) (xs : List F32) : List Byte :=
  if fmt = 15 then (xs.map (fun x => leBytes 4 x.toNat)).flatten
  else match floatOf fmt with
    | some f => (xs.map (fun x => leBytes 2 (f.round (F32.num x)).1)).flatten
    | none => []

/-- Finite values that a conversion to a plain format turns into an infinity (R61, R71). -/
def plainSat (fmt : Nat) (xs : List F32) : Nat :=
  let big := fun (n : Nat) => match fmt with | 1 => decide (0x7F80 ≤ n % 0x8000) | 2 => decide (0x7C00 ≤ n % 0x8000) | _ => false
  (xs.filter (fun x => F32.isFinite x && big (leNat (valBytes fmt [x])))).length

end Sys2Proof.Machine
end

