-- ==== Sys2Proof/Machine/State.lean ====
section
/-! DEFINITION. The state of the node: every register, table, queue, buffer and object the spec gives it, as plain data
(00 to 19), and the state right after power good (R370, R478). -/

namespace Sys2Proof.Machine
open Sys2Proof

/-! ### Boot, resets, supply, heat -/

/-- Why the node is held in reset while RESET_N is high: the supply, REFCLK_SYS, heat; each ends by itself (R423, R428, R482). -/
structure Hold where
  supply : Bool
  reference : Bool
  heat : Bool
  deriving DecidableEq, Repr

/-- Boot, fuses read at boot, the boot flash, debug (R370, R395 to R398, R440, R459, R471, R473). -/
structure Boot where
  powered : Bool
  resetLow : Bool
  hold : Hold
  stage : Nat
  failed : Bool
  memTrained : Bool
  slot : Bool
  aFail : Bool
  bFail : Bool
  cfgDefault : Bool
  cause : Nat
  svn : Nat
  selfTest : Nat
  sigValid : Bool
  bootIndex : Nat
  signature : List Byte
  fwDigest : List Byte
  cfgDigest : List Byte
  kemGen : Nat
  kemSeed : List Byte
  unlocked : Bool
  debugTally : Nat
  halted : List Nat
  /-- What CORE_DEBUG has written of the control cores' own memories: core, address (R417, log 95). -/
  coreMem : Tab (Nat × Nat) W64
  ledgerGen : Nat
  genUnsure : Bool
  flashEvidence : Nat
  flashRetired : List (BitVec 9)
  clearList : Bool
  thermometer : Nat
  cfgSeats : List (Option SeatCfg)
  deriving DecidableEq, Repr

/-- A tripped watchdog: die, control core, instant (R430). -/
structure Wdog where
  die : Nat
  core : Nat
  at' : Time
  deriving DecidableEq, Repr

/-- Resets and alerts (R433, R434, R444 to R446). -/
structure Rst where
  lastCtl : Nat
  lastNode : Nat
  ctlCount : Nat
  wdogHold : Nat
  ctlRunning : Bool
  wdog : Option Wdog
  alertStat : BitVec 10
  alertMask : BitVec 10
  deriving DecidableEq, Repr

/-- The core supply: AVS and sag (R419 to R424, R461). -/
structure Supply where
  offset : BitVec 5
  target : Nat
  prevTarget : Nat
  avsStatus : Nat
  changing : Bool
  settling : Bool
  sagActive : Bool
  sagSince : Time
  sagLastEvt : Option Time
  sagCount : Nat
  warnings : Nat
  min0 : Nat
  min1 : Nat
  throttleNs : Nat
  deriving DecidableEq, Repr

/-- Limits of one monitor (MON_THRESH, R472). -/
structure MonLimit where
  low : BitVec 16
  high : BitVec 16
  lowEn : Bool
  highEn : Bool
  deriving DecidableEq, Repr

/-- A monitor: kind as in R443 and index. -/
abbrev MonId := Nat × Nat

/-- Monitors, heat, throttles, references (R425 to R429, R472, R482). -/
structure Monitors where
  vals : Tab MonId (BitVec 16)
  limits : Tab MonId MonLimit
  lastEvt : Tab MonId Time
  lastWarn : Tab MonId Time
  throttling : List MonId
  hot : List MonId
  above : Tab MonId Time
  outside : Tab MonId Time
  halfNs : Tab Nat Nat
  halfSince : Tab Nat Time
  sysLost : Option Time
  seatLost : List Nat
  deriving DecidableEq, Repr

/-- Both health deficits as weights in units of 1/256 by age in seconds, newest first, and the last report (R389). -/
structure Health where
  d : List Nat
  dh : List Nat
  lastScore : Nat
  lastAt : Option Time
  deriving DecidableEq, Repr

/-- SPARE_MAP of one cluster (R447). -/
structure SpareMap where
  map : List Nat
  retired : BitVec 9
  spare : Nat
  deriving DecidableEq, Repr

/-- A physical core: cluster and number within it. -/
abbrev CoreId := Nat × Nat

/-- One mismatch as R437 counts it: instant, TEMP_MAX and VOLT_MIN. -/
structure Mismatch where
  at' : Time
  temp : Int
  volt : Nat
  deriving DecidableEq, Repr

/-- Cores, canaries and spares (R435 to R440, R447, R461). -/
structure Cores where
  spares : Tab Nat SpareMap
  ctlCluster : Nat
  ctlPcore : Nat
  pending : List (CoreId × Nat)
  period : Nat
  retireCount : Nat
  retireWindow : Nat
  head : Nat
  log : Tab Nat (List Byte)
  fast : Tab CoreId Time
  mismatches : Tab CoreId (List Mismatch)
  sramErr : Tab CoreId (List Time)
  nextRun : Tab CoreId Time
  runEnd : Tab Nat Time
  due : List CoreId
  deriving DecidableEq, Repr

/-! ### Events and counters -/

/-- An event as raised (R346, R441). -/
structure Event where
  code : Nat
  seq : Nat
  at' : Time
  payload : List Byte
  deriving DecidableEq, Repr

/-- Event numbering, the queue of R366 and the rate limit of R441. -/
structure Events where
  nextSeq : Nat
  queue : List Event
  second : Nat
  sentInSecond : Nat
  deriving DecidableEq, Repr

/-- The counters of every counter list and read-clear counter part of Register Map (R456); the last argument is the position
in the list. -/
inductive Ctr where
  | own (i : Nat)
  | evtCode (code i : Nat)
  | evtAll (i : Nat)
  | shadow (i : Nat)
  | fabric (i : Nat)
  | seatStat (seat i : Nat)
  | seatFec (seat i : Nat)
  | transport (i : Nat)
  | fwd (i : Nat)
  | egress (seat cls i : Nat)
  | police (die slot i : Nat)
  | transit (seat i : Nat)
  | dirPf (half : Nat)
  | dirStat (half i : Nat)
  | mem (stack i : Nat)
  | tier (i : Nat)
  | migrate (i : Nat)
  | nbSat
  | nbStat (stack i : Nat)
  | nbRefresh (stack i : Nat)
  | coreSat
  | keyStat (i : Nat)
  | reenc (i : Nat)
  | prog (i : Nat)
  | roWrites
  | sealReads
  | badAddr
  deriving DecidableEq, Repr

/-! ### Seats, traffic, transport -/

/-- A seat of 13: its settings, its state of R323, its partner with the latest TSVAL that it sent (R327), the hello exchange, PFC. -/
structure Seat where
  mode : Nat
  enable : Bool
  partnerKind : Bool
  vlanEn : Bool
  pfcPrioA : Nat
  pfcAEn : Bool
  pfcPrioB : Nat
  pfcBEn : Bool
  jumboEn : Bool
  v11En : Bool
  state : Nat
  version : Nat
  features : Nat
  role : Nat
  nodeId : Nat
  unitId : W64
  partnerMac : Nat
  partnerIp : Nat
  nonce : Option Nat
  helloCount : Nat
  helloDue : Option Time
  lastTx : Time
  lastRx : Time
  retryAt : Option Time
  xoff : Nat
  xon : Nat
  pfcTx : Nat
  pfcRx : Nat
  ingress : Tab Nat Nat
  xoffSent : List Nat
  paused : Tab Nat Time
  discSecond : Nat
  discCount : Nat
  tsRecent : Nat
  deriving DecidableEq, Repr

/-- A token bucket in billionths of a byte, and the instant to which it has been filled (R352, R359). -/
structure Bucket where
  level : Int
  at' : Time
  deriving DecidableEq, Repr

/-- A policer of R362 with its two buckets. -/
structure Policer where
  enable : Bool
  aware : Bool
  yellowAct : Nat
  redAct : Nat
  err : Bool
  cir : Nat
  pir : Nat
  cbs : Nat
  pbs : Nat
  tc : Bucket
  tp : Bucket
  deriving DecidableEq, Repr

/-- The traffic settings of one seat (R464). -/
structure SeatTraffic where
  srcTag : Bool
  ovhEgress : BitVec 7
  ovhMeter : BitVec 7
  limTenant : Nat
  limCommon : Nat
  yellow : Nat
  red : Nat
  pcpMap : Tab Nat (Nat × Nat)
  dscpMap : Tab Nat (Nat × Nat)
  outerTurn : Nat
  fresh : Bool
  transit : Policer
  deriving DecidableEq, Repr

/-- The settings of one class of a seat, its shaper and its place in the outer round (R352, R354, R464). -/
structure ClassCfg where
  pcp : Nat
  dscp : Nat
  quantum : Nat
  commonWeight : Nat
  rate : Nat
  burst : Nat
  bucket : Bucket
  ecn : Nat
  deficit : Nat
  turn : Nat
  fresh : Bool
  hwmOcc : Nat
  hwmSojourn : Nat
  deriving DecidableEq, Repr

/-- A tenant shaper of a seat (R352). -/
structure Shaper where
  rate : Nat
  burst : Nat
  bucket : Bucket
  deriving DecidableEq, Repr

/-- A frame waiting in an egress queue: its bytes to the last payload byte, when it was queued, whether it was forwarded and by
cut-through, whether a shaper has held it, whether its copy ends with an inverted FCS (R340). -/
structure QFrame where
  bytes : List Byte
  at' : Time
  forwarded : Bool
  cutThrough : Bool
  held : Bool
  stomp : Bool
  deriving DecidableEq, Repr

/-- One egress queue (R350, R354, R363). -/
structure EQueue where
  frames : List QFrame
  deficit : Nat
  hwmOcc : Nat
  hwmSojourn : Nat
  deriving DecidableEq, Repr

/-- Seat, class and queue: tenant slot 0 to 4,095, or 4,096 for the common queue (R350). -/
abbrev QId := Nat × Nat × Nat

/-- Traffic control (14). -/
structure Traffic where
  seats : Tab Nat SeatTraffic
  classes : Tab (Nat × Nat) ClassCfg
  queues : Tab QId EQueue
  shapers : Tab (Nat × Nat) Shaper
  weights : Tab Nat Nat
  policers : Tab (Nat × Nat) Policer
  origEvent : Nat
  origDemand : Nat
  origPrefetch : Nat
  origCopy : Nat
  origServe : Nat
  deriving DecidableEq, Repr

/-- A message on its way out: what R328 says of it, its tenant queue and class; of an abandoned one nothing more is sent, while frames that are out
keep their place until they are acknowledged (R334, R414; DESIGN CHOICE, log 96). -/
structure OutMsg where
  id : Nat
  type : Nat
  tenant : Nat
  cls : Nat
  bytes : List Byte
  sent : Nat
  abandoned : Bool
  deriving DecidableEq, Repr

/-- A DATA frame sent and not acknowledged: sequence number, message, fragment offset, length, when last sent, whether SACKed, whether it carried SYN. -/
structure SentFrame where
  seq : Nat
  msg : Nat
  off : Nat
  len : Nat
  at' : Time
  retxAt : Option Time
  sacked : Bool
  syn : Bool
  deriving DecidableEq, Repr

/-- A message being reassembled (R334, R335). -/
structure InMsg where
  id : Nat
  type : Nat
  tenant : Nat
  len : Nat
  die : Nat
  seat : Nat
  frags : List (Nat × List Byte)
  deriving DecidableEq, Repr

/-- The transport state of one peer (R330 to R337). -/
structure Peer where
  nextSeq : Nat
  synSent : Bool
  inflight : List SentFrame
  out : List OutMsg
  nextMsg : Nat
  window : Option Nat
  srtt : Option Nat
  rttvar : Nat
  rto : Nat
  rate : Nat
  rateAt : Time
  rateCutAt : Option Time
  lastAck : Time
  recvNext : Option Nat
  recvSyn : Option Nat
  recvAbove : List Nat
  unacked : Nat
  oldestUnacked : Option Time
  ackNowAt : Option Time
  recvBytes : Nat
  eceBytes : Nat
  tsRecent : Nat
  reasm : List InMsg
  lastUse : Time
  seat : Nat
  mac : Nat
  ip : Nat
  deriving DecidableEq, Repr

/-- A frame the node has started to send: its seat, its bytes to the last payload byte, whether its FCS is right (R340, log 25). -/
structure WireFrame where
  seat : Nat
  bytes : List Byte
  fcsOk : Bool
  deriving DecidableEq, Repr

/-- Transport, the host seat and the frames the node has started to send (R320, R322, R335, R366, R367). -/
structure Transport where
  peers : Tab Nat Peer
  port : Nat
  hostSeat : Nat
  hostActive : Nat
  fallback : Bool
  lastUnit : Option W64
  backlog : List (QId × List Byte)
  wire : List WireFrame
  unreachable : List Nat
  deriving DecidableEq, Repr

/-! ### Board and fabric -/

/-- A forwarding entry (R342). -/
structure FwdEntry where
  low : Nat
  high : Nat
  primary : Nat
  alternate : Nat
  primMac : Nat
  altMac : Nat
  primIp : Nat
  altIp : Nat
  deriving DecidableEq, Repr

/-- An ownership record (R342, R378). -/
structure OwnRec where
  tenant : Nat
  stream : Nat
  owner : Nat
  prev : Nat
  move : Bool
  epoch : Nat
  deriving DecidableEq, Repr

/-- A board (R341, R342). -/
structure Board where
  ver : Nat
  ownId : Nat
  fmId : Nat
  role : Nat
  seatIps : List Nat
  seatVids : List Nat
  fwd : List FwdEntry
  pool : List Nat
  own : List OwnRec
  deriving DecidableEq, Repr

/-- The ownership state of a stream (R379). -/
inductive OwnState where
  | owner
  | awaiting
  | stalled
  | handing
  | reclaimed
  | none
  deriving DecidableEq, Repr

/-- The ownership of one stream (R379 to R382): state, epoch, the other party, the timers, the claim that stalls it, and the
objects of a hand-over. -/
structure Own where
  state : OwnState
  epoch : Nat
  other : Nat
  move : Bool
  since : Time
  nextAsk : Time
  claimEpoch : Nat
  claimant : Nat
  refusedAt : Option Time
  conflict : Bool
  endPos : Nat
  manifest : Option Nat
  held : Bool
  deriving DecidableEq, Repr

/-- A TAIL_OFFER kept for its board (R380): sender, message, instant. -/
structure Offer where
  node : Nat
  bytes : List Byte
  at' : Time
  deriving DecidableEq, Repr

/-- What the receiver of a hand-over or copy is fetching (R380, R388): sender, claim, manifest and the pieces that have come, by object and piece. -/
structure Handover where
  node : Nat
  epoch : Nat
  move : Bool
  copy : Bool
  endPos : Nat
  manifest : Nat
  granules : Nat
  entries : Option (List (List Byte))
  got : Tab (Nat × Nat) (List Byte)
  deriving DecidableEq, Repr

/-- An instruction digest waiting for its pair: tenant, PROGRAM_ID, step, digest, instant, cluster (R385, R386). -/
structure DigEntry where
  tenant : Nat
  program : Nat
  step : Nat
  digest : Nat
  at' : Time
  cluster : Nat
  deriving DecidableEq, Repr

/-- A migration proposal of a stream (R179): its reason and target, its number, when it was offered or sent, whether it has been sent. -/
structure Proposal where
  reason : Nat
  target : Nat
  id : Nat
  at' : Time
  sent : Bool
  deriving DecidableEq, Repr

/-- Board, roles, ownership, shadows, migrations, the pool role (13, 15). -/
structure Fabric where
  active : Option Board
  commitAt : Option Time
  prev : Option Board
  graceEnd : Option Time
  staging : List (Nat × List Byte)
  lastReply : Nat
  switches : Nat
  pendingId : Nat
  own : Tab (Nat × Nat) Own
  offers : Tab (Nat × Nat) Offer
  copyAsks : Tab (Nat × Nat × Nat) Nat
  handovers : Tab (Nat × Nat) Handover
  served : Tab Nat (Nat × List Byte)
  shPeer : Nat
  shEnable : Bool
  shSample : Nat
  shWindow : Nat
  shRun : Nat
  promotable : Bool
  digMine : List DigEntry
  digTheirs : List DigEntry
  digSend : List DigEntry
  poolLimit : Nat
  poolObjs : Tab Nat (List (Nat × Nat) × List Byte)
  proposals : Tab (Nat × Nat) Proposal
  withdrawn : Tab (Nat × Nat) Time
  nextProposal : Nat
  proposalSecond : Nat
  proposalCount : Nat
  deriving DecidableEq, Repr

/-! ### Directory -/

/-- The state of a row (R134, R136). -/
inductive RowState where
  | staged
  | valid
  | pending
  deriving DecidableEq, Repr

/-- A directory row that is not FREE (R134). -/
structure Row where
  low : Nat
  high : Nat
  stream : Nat
  tenant : Nat
  tag : Nat
  state : RowState
  remove : Bool
  shadow : Bool
  result : Nat
  ctx : Nat
  shadowHigh : Nat
  shadowResult : Nat
  deriving DecidableEq, Repr

/-- A staging request: the context and step that waits for it, and the entry (R141, R143). -/
structure StageReq where
  ctx : Nat
  step : Nat
  tenant : Nat
  stream : Nat
  low : Nat
  high : Nat
  result : Nat
  deriving DecidableEq, Repr

/-- An outcome of a lookup: pending, or the matching rows in order (R138). -/
inductive Outcome138 where
  | pending
  | rows (rs : List Row)
  deriving DecidableEq, Repr

/-- A lookup that has had a pending outcome: what it names and when the outcome arrived (R139). -/
structure Lookup where
  tenant : Nat
  stream : Nat
  low : Nat
  high : Nat
  deriving DecidableEq, Repr

/-- One half of the directory (R132, R140 to R145). Rows stand in ascending row number. -/
structure Half where
  rows : List (Nat × Row)
  waiting : List StageReq
  queue : List StageReq
  quiet : List (Nat × Nat)
  lookups : Tab Nat Lookup
  outcomes : Tab Nat Outcome138
  shiftMax : Nat
  deriving DecidableEq, Repr

/-- A run descriptor with its tile lists: layer and tile of each (R30, R135). -/
structure RunDesc where
  tenant : Nat
  borrowed : Bool
  tail : Bool
  low : Nat
  high : Nat
  srcStream : Nat
  offset : Int
  tiles : List (Nat × Nat)
  deriving DecidableEq, Repr

/-! ### Tiles, gradients, weights -/

/-- A granule: stack and number. -/
abbrev Gran := Nat × Nat

/-- TILE_COUNTER (R402). -/
structure Counter where
  writer : Nat
  seq : Nat
  commit : Nat
  deriving DecidableEq, Repr

/-- A cipher record of R406 without its tag: the epoch that encrypts the row group, and its TILE_COUNTER. -/
structure CRec where
  epoch : Nat
  counter : Counter
  deriving DecidableEq, Repr

/-- One written position of a tile: codes and pips of both halves, heads in order, and the key row sums (R36). -/
structure Slot where
  k : List Nat
  kPips : List Nat
  v : List Nat
  vPips : List Nat
  sums : List Int
  deriving DecidableEq, Repr

/-- The tier state of a tile (R165). -/
inductive TierState where
  | resident
  | copying
  | backed
  | remote
  | fetching
  deriving DecidableEq, Repr

/-- A replica of an object in T2: node and whether it has acknowledged; when it was asked. -/
structure Replica where
  node : Nat
  acked : Bool
  at' : Time
  deriving DecidableEq, Repr

/-- A tile: the header of R33, the body of R36, its place and its tier state; `unread` are, while what a fetch brought has not been
read, the nodes that it came from and that gave bad data before (R175). -/
structure Tile where
  tenant : Nat
  stream : Nat
  layer : Nat
  base : Nat
  kFmt : Nat
  vFmt : Nat
  zp : Bool
  isSealed : Bool
  posEnc : Nat
  valid : Nat
  epoch : Nat
  share : Nat
  heads : Nat
  dimCode : Nat
  counter : Counter
  kScale : List F32
  vScale : List F32
  kZp : List Int
  vZp : List Int
  slots : List Slot
  written : Nat
  die : Nat
  body : List Gran
  hdr : Nat
  poisoned : Bool
  lost : Bool
  retired : Bool
  tier : TierState
  replicas : List Replica
  objKey : Nat
  ageBase : Time
  protectUntil : Option Time
  unread : List Nat
  deriving DecidableEq, Repr

/-- A gradient tile (R117): each half one domain per head; `kOld` and `vOld` hold, by head, format and domain of those that an uncommitted change
of the half's format has not come to (R201). -/
structure GradTile where
  kFmt : Nat
  vFmt : Nat
  posEnc : Nat
  valid : Nat
  heads : Nat
  dimCode : Nat
  writes : Nat
  epoch : Nat
  counter : Counter
  k : List QDom
  v : List QDom
  kOld : Tab Nat (Nat × QDom)
  vOld : Tab Nat (Nat × QDom)
  deriving DecidableEq, Repr

/-- The gradient tile of a source tile in a set: its committed and its uncommitted content, its place (R118). -/
structure GradCell where
  committed : Option GradTile
  pending : Option GradTile
  die : Nat
  body : List Gran
  hdr : Nat
  poisoned : Bool
  deriving DecidableEq, Repr

/-- Tenant, gradient set, stream, layer, BASE_POS (R116). -/
abbrev GradKey := Nat × Nat × Nat × Nat × Nat

/-- Kept logsumexp values of one query position (R107): one per query head, their epoch and place. -/
structure Lse where
  vals : List F32
  epoch : Nat
  counter : Counter
  place : List Gran
  poisoned : Bool
  deriving DecidableEq, Repr

/-- Tenant, stream, layer, position. -/
abbrev LseKey := Nat × Nat × Nat × Nat

/-- Rows of a matrix part in a format, each row as row groups, with the row sums of integer formats (R65, R73); `old` holds, by row and group,
format and row group of those that an uncommitted change of the part's format has not come to (R201). -/
structure MatBody where
  fmt : Nat
  rows : List (List QDom)
  sums : List (List Int)
  old : Tab (Nat × Nat) (Nat × QDom)
  deriving DecidableEq, Repr

/-- An incomplete version of a matrix (R300): what its first piece fixed, the rows that have come, and their cipher records by part. -/
structure Load where
  fmt : Nat
  bias : Bool
  train : Bool
  rows : Nat
  dModel : Nat
  body : MatBody
  biasRows : List F32
  master : List (List F32)
  m : List (List QDom)
  v : List (List QDom)
  committed : Nat
  recs : Tab Nat (List CRec)
  place : List Gran
  poisoned : Bool
  deriving DecidableEq, Repr

/-- A matrix of a weight set (R121): working copy, the parts of a trainable set, the T2 object behind it with its KEY_EPOCH; `recs` are the cipher
records of the row groups by part: 0 working copy, 1 master copy, 2 and 3 the moments, 4 the gradient area, 5 an uncommitted one (R405, R406). -/
structure Matrix where
  cur : Option MatBody
  bias : List F32
  master : Option (List (List F32))
  m : List (List QDom)
  v : List (List QDom)
  grad : Option MatBody
  gradPending : Option MatBody
  gradBias : List F32
  gradBiasPending : List F32
  load : Option Load
  recs : Tab Nat (List CRec)
  place : List Gran
  auxPlace : List Gran
  poisoned : Bool
  auxPoisoned : Bool
  present : Bool
  backing : Option (Nat × List Nat)
  loadedAt : Time
  protectUntil : Option Time
  backEpoch : Nat
  deriving DecidableEq, Repr

/-- The state of a weight set (R121). -/
inductive SetState where
  | ready
  | stepping
  | torn
  | unavailable
  deriving DecidableEq, Repr

/-- A weight set of one tenant, ID and layer (R121): `steppers` are the programs whose NB.ADAM on it has started, `torn` the matrices whose
master copy and moments a TORN set still has to have reloaded. -/
structure WeightSet where
  state : SetState
  die : Nat
  dModel : Nat
  train : Bool
  mats : Tab Nat Matrix
  steppers : List Nat
  torn : List Nat
  gradHolder : Option Nat
  deriving DecidableEq, Repr

/-- Tenant, weight-set ID, layer. -/
abbrev SetKey := Nat × Nat × Nat

/-- Granules that stay until plies that may read them complete, and a descriptor that does (R41, R129, R135, R161). -/
structure Drain where
  tenant : Nat
  weight : Bool
  grans : List Gran
  hdr : Option Nat
  desc : Option Nat
  plies : List Nat
  deriving DecidableEq, Repr

/-! ### Near-bank units -/

/-- The state of a sequence (R193); `waiting` is one that its controller holds back while the unit has 8 queued. -/
inductive SeqState where
  | waiting
  | queued
  | running
  | yielded
  | preempted
  | final
  deriving DecidableEq, Repr

/-- An object a sequence reads: a tile, a gradient cell, a weight matrix part (0 working, 1 auxiliary). -/
inductive ObjRef where
  | tile (oid : Nat)
  | grad (k : GradKey)
  | weight (k : SetKey) (mat part : Nat)
  | lse (k : LseKey)
  | none
  deriving DecidableEq, Repr

/-- A sequence of one unit (R193 to R203): the program and step it belongs to, its place in the order of issue (R192), what it reads and writes,
the domains it has still to write, the blocks that an append or a load writes, each whole or the bits of it, their element operations, whether it is one of a
scrub pass, and the word of R195. -/
structure Seq where
  lsn : Nat
  step : Nat
  tenant : Nat
  tag : Nat
  state : SeqState
  reads : List ObjRef
  writes : List ObjRef
  doms : List Nat
  opsPer : Nat
  finalState : Nat
  status : Nat
  blocks : Nat
  corrected : Nat
  uncorr : Nat
  owed : Nat
  wasPreempted : Bool
  lock : Bool
  due : Bool
  dueSince : Option Time
  cancel : Option Nat
  order : Nat
  blks : List (Nat × Bool × BitVec 512)
  blkOps : Nat
  pass : Bool
  deriving DecidableEq, Repr

/-- The preemption registers of a unit (R198): cursors, pass position, running maxima, open-row list. -/
structure Saved where
  cursors : List Nat
  pass1 : Bool
  maxima : List F32
  rows : List Gran
  deriving DecidableEq, Repr

/-- A key slot of a unit (R189). -/
structure KeySlot where
  tenant : Nat
  epoch : Nat
  key : List Byte
  deriving DecidableEq, Repr

/-- One unit: the sequences it holds in the order of issue, and the word of the most recent final one (R193, R195); the lane store with the values
that a batch has formed, by domain, the preemption registers and the two key slots (R182, R189, R198). -/
structure Unit' where
  seqs : List Seq
  last : Option Seq
  lane : Tab Nat (List F32)
  saved : Option Saved
  keys : List KeySlot
  deriving DecidableEq, Repr

/-- The gradients of a tile by slot: dK and dV of each head; what its program had written into it before (R120). -/
structure TileJob where
  key : GradKey
  before : Option GradTile
  slots : List (Nat × List (List F32) × List (List F32))
  deriving DecidableEq, Repr

/-- The gradients of a matrix: the format, rows, bias. -/
structure MatJob where
  mat : Nat
  fmt : Nat
  rows : List (List F32)
  bias : List F32
  deriving DecidableEq, Repr

/-- The gradients that the near-bank units write for a ply's instruction, overwritten or added to what was there: those of tiles, in a format, or those
of a weight set's matrices (R118, R125). -/
inductive NbJob where
  | tiles (fmt : Nat) (accum : Bool) (parts : List TileJob)
  | mats (accum : Bool) (key : SetKey) (parts : List MatJob)
  deriving DecidableEq, Repr

/-- The near-bank units and their settings (08); `jobs` holds the gradients that sequences of a step have to write, `taken` the values that the lanes form from the sources of a step under way, by program
and step (R186, R192, R277). -/
structure NearBank where
  units : Tab (Nat × Nat) Unit'
  share : Tab Nat Nat
  poll : Nat
  nextTag : Nat
  nextOrder : Nat
  taken : Tab (Nat × Nat) (List F32)
  jobs : Tab (Nat × Nat) NbJob
  deriving DecidableEq, Repr

/-! ### Memory -/

/-- What R217 reports of a block. -/
structure EccEvt where
  kind : Nat
  object : Nat
  block : Nat
  tenant : Nat
  stream : Nat
  base : Nat
  layer : Nat
  at' : Time
  deriving DecidableEq, Repr

/-- A scrub pass (R218 to R221); `asker` is the tenant of its program. -/
structure Scrub where
  lsn : Nat
  step : Nat
  program : Nat
  scope : Nat
  asker : Nat
  tenant : Nat
  layer : Option Nat
  stack : Nat
  first : Nat
  count : Nat
  stream : Nat
  low : Nat
  high : Nat
  setId : Nat
  dies : List Nat
  die : Nat
  started : Option Time
  read : Nat
  corrected : Nat
  uncorr : Nat
  poisoned : Nat
  skipped : Nat
  objects : Nat
  firstBad : Option Nat
  out : Nat
  ret : Option Nat
  tclass : Nat
  stopped : Option Nat
  deriving DecidableEq, Repr

/-- The last entry of MEM_ECC_LAST: block, outcome, time (R467). -/
structure EccLast where
  block : Nat
  outcome : Nat
  at' : Time
  deriving DecidableEq, Repr

/-- Why a fetch was asked for, in descending priority (R173). -/
inductive Prio where
  | demand
  | prefetch
  | copy
  deriving DecidableEq, Repr

/-- A fetch from T2 (R175 to R177): priority, object, key, its pieces (the header block and the body granules), replicas in order,
which is being asked, pieces that have come, failures as (piece, replica), the replicas that sent data, sent poison or hold it no longer; whether a prefetch asked for it (R172). -/
structure Fetch where
  prio : Prio
  obj : ObjRef
  key : Nat
  pieces : Nat
  replicas : List Nat
  cur : Nat
  asked : Time
  req : Nat
  got : Tab Nat (List Byte)
  failed : List (Nat × Nat)
  answered : List Nat
  poisonFrom : List Nat
  goneFrom : List Nat
  round : Nat
  retryAt : Option Time
  waiter : Option (Nat × Nat)
  protect : Bool
  deriving DecidableEq, Repr

/-- Tiles and the other objects of T1, errors, scrub, tiers (02, 05, 07, 09); `cancelled` holds tenant, object key and node of the PUTs of
cancelled copies that no node has acknowledged (R166). -/
structure Memory where
  tiles : Tab Nat Tile
  descs : Tab Nat RunDesc
  grads : Tab GradKey GradCell
  gradHold : Tab (Nat × Nat) Nat
  lse : Tab LseKey Lse
  weights : Tab SetKey WeightSet
  drains : Tab Nat Drain
  fetches : Tab Nat Fetch
  err : ErrTab
  seenPoison : List Nat
  mirrorLost : List (Nat × Nat)
  lastCorr : Tab Nat EccLast
  lastUncorr : Tab Nat EccLast
  eccWindow : Option (Time × Nat × Option EccEvt × Nat)
  scrubRun : List Scrub
  scrubQueue : List Scrub
  scrubLast : Tab Nat (List Byte)
  reserve : Tab Nat Nat
  wmLow : Tab Nat Nat
  wmHigh : Tab Nat Nat
  evictAge : Nat
  holdMax : Nat
  nextObj : Nat
  nextDrain : Nat
  cancelled : List (Nat × Nat × Nat)
  deriving DecidableEq, Repr

/-! ### Plies -/

/-- What a ply is made of (R94, R109, R124, R273). -/
inductive PlyKind where
  | decode
  | prefill
  | backward
  | projection
  | matrix
  deriving DecidableEq, Repr

/-- What makes two instructions join one ply (R94, R124). -/
structure PlyKey where
  kind : PlyKind
  tenant : Nat
  layer : Nat
  qh : Nat
  kvh : Nat
  dim : Nat
  setId : Nat
  deriving DecidableEq, Repr

/-- The mask of an instruction's members (R87): its range, CAUSAL, PREFIX, WINDOW, the section boundaries, the first query
position and how many there are. -/
structure Mask where
  low : Nat
  high : Nat
  causal : Bool
  pre : Nat
  window : Nat
  sects : List Nat
  first : Nat
  count : Nat
  deriving DecidableEq, Repr

/-- An instruction's members in a ply: how many, the stream they name, their mask, when the instruction issued, its gather window in
ns, the scratch space as its operands stood, its inline positions as tiles (R88), and the granules for what it keeps (R107). -/
structure Member where
  lsn : Nat
  step : Nat
  count : Nat
  stream : Option Nat
  mask : Mask
  at' : Time
  gather : Nat
  scratch : List Byte
  inl : List Tile
  keeps : List (Nat × List Gran)
  deriving DecidableEq, Repr

/-- A run as a ply resolved it: spliced range, offset, tiles of the layer. -/
structure RunSnap where
  low : Nat
  high : Nat
  offset : Int
  borrowed : Bool
  tiles : List Nat
  deriving DecidableEq, Repr

/-- A ply (R94 to R99): its members, and from its issue what it resolved and read: the runs of each instruction, the tiles, those that
are poisoned, the kept logsumexp values, the weight set and its poisoned matrices. -/
structure Ply where
  key : PlyKey
  die : Nat
  members : List Member
  issued : Option Time
  held : Option Time
  cores : List Nat
  runs : Tab (Nat × Nat) (List RunSnap)
  tiles : Tab Nat Tile
  bad : List Nat
  lse : Tab LseKey Lse
  weights : Option WeightSet
  badMats : List Nat
  deriving DecidableEq, Repr

/-! ### Programs -/

/-- A buffer descriptor (R226). -/
structure BufDesc where
  kind : Nat
  fmt : Nat
  offset : Nat
  length : Nat
  name : Nat
  deriving DecidableEq, Repr

/-- How far a step is. -/
inductive Phase where
  | idle
  | running
  | done
  deriving DecidableEq, Repr

/-- What a step that waits for its sequences gives once its outcome is known: records for a buffer and the cluster that formed them, or the plain bytes
of results (R239, R250, R260). -/
structure StepOut where
  buf : Nat
  cluster : Nat
  recs : List (List Byte)
  plain : Bool
  deriving DecidableEq, Repr

/-- One step of a program: its phase, its completion, when it issued, what it waits for, the scratch space as its operands stood, and what it gives
once its outcome is known (R235, R260). -/
structure Step where
  phase : Phase
  status : Nat
  detail : Nat
  at' : Time
  shadow : Bool
  poll : Bool
  stages : Nat
  seqs : Nat
  seqStatus : List Nat
  scratch : List Byte
  outs : Option StepOut
  deriving DecidableEq, Repr

/-- A tile that a program has prepared: a new tile or new positions of an open one (R244, R405). -/
structure StagedTile where
  oid : Nat
  isNew : Bool
  rewrite : Bool
  desc : Nat
  tile : Tile
  deriving DecidableEq, Repr

/-- A change a program has prepared (R286); a working copy with its granules and the record of its first row group, a gradient area with that
record (R129, R405). -/
inductive Change where
  | seal (oid : Nat)
  | splice (desc : Nat)
  | lse (step : Nat) (key : LseKey) (vals : List F32) (grans : List Gran) (epoch : Nat) (counter : Counter)
  | load (key : SetKey) (mat : Nat) (l : Load)
  | fetch (key : SetKey) (mat : Nat) (dModel : Nat) (m : Matrix)
  | wdrop (key : SetKey) (mats : Nat)
  | adam (key : SetKey) (mat : Nat) (body : MatBody) (grans : List Gran) (first : CRec)
  | torn (key : SetKey)
  | copyOf (key : SetKey) (mat : Nat) (body : MatBody) (grans : List Gran) (first : CRec)
  | area (key : SetKey) (mat : Nat) (first : CRec)
  deriving DecidableEq, Repr

/-- How a program ends. -/
structure Ending where
  status : Nat
  detail : Nat
  step : Nat
  deriving DecidableEq, Repr

/-- Where a program is in its life (R234, R245). -/
inductive ProgState where
  | queued
  | running
  | preparing
  | committing
  deriving DecidableEq, Repr

/-- A program from acceptance to its end (R223 to R252). -/
structure Prog where
  lsn : Nat
  die : Nat
  id : Nat
  tenant : Nat
  tclass : Nat
  owner : Bool
  minor : Nat
  deadline : Option Time
  sender : Nat
  seat : Nat
  retNode : Nat
  scratchKib : Nat
  state : ProgState
  scalars : List W64
  bufs : List BufDesc
  handles : List (Nat × Bool)
  words : List Nat
  data : List Byte
  scratch : List Byte
  steps : List Step
  next : Nat
  fails : Nat
  digest : Nat
  epoch : Nat
  tiles : List StagedTile
  holds : List (Nat × Nat)
  changes : List Change
  newStreams : List Nat
  seenLayers : List Nat
  deferred : Bool
  /-- Granules of the working area that hold the data section and the scratch space; none where die SRAM does (R228, log 89). -/
  place : List Gran
  deriving DecidableEq, Repr

/-- A ledger record (R252). -/
structure Ledger where
  program : Nat
  lsn : Nat
  tenant : Nat
  state : Nat
  tclass : Nat
  owner : Bool
  lastStep : Nat
  stepCount : Nat
  status : Nat
  detail : Nat
  endStep : Nat
  ctx : Nat
  digest : Nat
  tAccept : Time
  tEnd : Time
  deriving DecidableEq, Repr

/-- Programs, contexts and the ledger (10). -/
structure Programs where
  queue : List Prog
  ctxs : Tab Nat Prog
  ring : Tab (Nat × Nat) Ledger
  mirror : Tab (Nat × Nat) Ledger
  nextCount : Tab Nat Nat
  plies : Tab Nat Ply
  nextPly : Nat
  deriving DecidableEq, Repr

/-! ### Tenants -/

/-- A key of a tenant in the trust blocks: epoch, writer, key bytes, OBJECT_SEQ counter (R400 to R403). -/
structure Key where
  epoch : Nat
  writer : Nat
  key : List Byte
  seq : Nat
  deriving DecidableEq, Repr

/-- The state of a slot (R307, R413). -/
inductive SlotState where
  | empty
  | admitted
  | tombstone
  deriving DecidableEq, Repr

/-- A staging of a key from its issue to the end of its program: program, step, whether an admission, the epoch, and the key once
the trust block has taken it (R305). -/
structure Staging where
  lsn : Nat
  step : Nat
  admission : Bool
  epoch : Nat
  key : Option Key
  deriving DecidableEq, Repr

/-- A tenant slot: keys, settings (R151, R163, R167, R233, R307); `skipped` holds the poisoned objects that the re-encryption pass has passed
over since the last rotation (R412). -/
structure Tenant where
  state : SlotState
  current : Option Key
  old : Option Key
  staging : Option Staging
  skipped : List ObjRef
  dropped : Nat
  dirQuota : Nat
  ctxQuota : Nat
  tierQuota : Nat
  policy : Nat
  deriving DecidableEq, Repr

/-- The CTR_DRBG of a trust block: key, V, requests since it was seeded (R393). -/
structure Drbg where
  key : List Byte
  v : List Byte
  requests : Nat
  deriving DecidableEq, Repr

/-- The private channel: the key of this boot, how many transfers it has carried, and the last of them as it went (R393). -/
structure Channel where
  key : List Byte
  sent : Nat
  last : List Byte
  deriving DecidableEq, Repr

/-- Tenants and the trust blocks (16). -/
structure Trust where
  tenants : Tab Nat Tenant
  reencRate : Tab Nat Nat
  spdm : Nat
  drbgs : Tab Nat Drbg
  channel : Channel
  deriving DecidableEq, Repr

/-! ### Register access -/

/-- What one path holds: its selectors, the staged parts and the latched images (R453, R455). -/
structure PathState where
  sels : Tab Nat Nat
  staged : Tab Nat Nat
  latched : Tab Nat (List Nat)
  deriving DecidableEq, Repr

/-- Register access (18). -/
structure Access where
  sealedBlocks : BitVec 12
  paths : Tab Path PathState
  smbRead : Option (Nat × Nat)
  smbOut : List Byte
  straps : BitVec 2
  i3c : Option Nat
  jtagIr : Nat
  jtagDr : BitVec 98
  boundary : List Bool
  tdo : List Bool
  deriving DecidableEq, Repr

/-! ### The whole -/

/-- The state of the node, and the commands that wait. -/
structure State where
  /-- NODE_TIME (R19). -/
  time : Time
  boot : Boot
  rst : Rst
  supply : Supply
  mon : Monitors
  health : Health
  cores : Cores
  ev : Events
  ctr : Tab Ctr Nat
  seats : Tab Nat Seat
  tr : Traffic
  net : Transport
  fab : Fabric
  dir : Tab Nat Half
  mem : Memory
  nb : NearBank
  pg : Programs
  trust : Trust
  acc : Access
  /-- The free values drawn so far (log 7). -/
  freeIdx : Nat
  /-- The commands that wait, first in first out. -/
  pending : List Instr
  deriving DecidableEq, Repr

/-! ### Reset values -/

/-- Nothing but RESET_N holds the node. -/
def Hold.free : Hold := ⟨false, false, false⟩

def Boot.reset : Boot :=
  { powered := true, resetLow := false, hold := .free, stage := 0, failed := false, 
    memTrained := false, slot := false, aFail := false, bFail := false, cfgDefault := false, cause := 0, svn := 0, selfTest := 0,
    sigValid := false, bootIndex := 0, signature := [], fwDigest := [], cfgDigest := [], kemGen := 0, kemSeed := [], unlocked := false,
    debugTally := 0, halted := [], coreMem := [], ledgerGen := Config.flashLedgerGen, genUnsure := false, flashEvidence := Config.flashEvidence,
    flashRetired := (List.range 8).map Config.flashRetired, clearList := false, thermometer := Config.fusedThermometer,
    cfgSeats := [] }

/-- RESET_CAUSE, ALERT_STAT and ALERT_MASK after a node reset with cause `c` (R446). -/
def Rst.reset (c : Nat) : Rst :=
  { lastCtl := 0, lastNode := c, ctlCount := 0, wdogHold := 100, ctlRunning := false, wdog := none, alertStat := 0x080,
    alertMask := 0x3FF }

def Supply.reset : Supply :=
  { offset := 0, target := 750, prevTarget := 750, avsStatus := 0, changing := false, settling := false, sagActive := false,
    sagSince := 0, sagLastEvt := none, sagCount := 0, warnings := 0, min0 := 0xFFF, min1 := 0xFFF, throttleNs := 0 }

def Monitors.reset : Monitors :=
  { vals := [], limits := [], lastEvt := [], lastWarn := [], throttling := [], hot := [], above := [], outside := [], halfNs := [], halfSince := [],
    sysLost := none, seatLost := [] }

def Health.reset : Health := { d := [], dh := [], lastScore := 255, lastAt := none }

/-- SPARE_MAP before the retirement list is applied (R447). -/
def SpareMap.reset : SpareMap := { map := [0, 1, 2, 3, 4, 5, 6, 7], retired := 0, spare := 8 }

def Cores.reset : Cores :=
  { spares := [], ctlCluster := 0, ctlPcore := 0, pending := [], period := 10, retireCount := 3, retireWindow := 3600, head := 0,
    log := [], fast := [], mismatches := [], sramErr := [], nextRun := [], runEnd := [], due := [] }

def Events.reset : Events := { nextSeq := 1, queue := [], second := 0, sentInSecond := 0 }

/-- A seat after node reset: the configuration's MODE, ENABLE and PARTNER_KIND where it sets them, else 1, 1, 0 (13). -/
def Seat.reset (c : Option SeatCfg) : Seat :=
  { mode := (c.map SeatCfg.mode).getD 1, enable := (c.map SeatCfg.enable).getD true,
    partnerKind := (c.map SeatCfg.partnerKind).getD false, vlanEn := false, pfcPrioA := 3, pfcAEn := false, pfcPrioB := 4,
    pfcBEn := false, jumboEn := true, v11En := true, state := 0, version := 0, features := 0, role := 0, nodeId := 0xFFFF,
    unitId := 0, partnerMac := 0, partnerIp := 0, nonce := none, helloCount := 0, helloDue := none, lastTx := 0,
    lastRx := 0, retryAt := none, xoff := 1024, xon := 768, pfcTx := 0, pfcRx := 0, ingress := [], xoffSent := [], paused := [],
    discSecond := 0, discCount := 0, tsRecent := 0 }

/-- A policer after reset (R362). -/
def Policer.reset : Policer :=
  { enable := false, aware := false, yellowAct := 1, redAct := 2, err := false, cir := 0, pir := 0, cbs := 0, pbs := 0,
    tc := ⟨0, 0⟩, tp := ⟨0, 0⟩ }

def SeatTraffic.reset : SeatTraffic :=
  { srcTag := false, ovhEgress := 20, ovhMeter := 20, limTenant := 512, limCommon := 1024, yellow := 512, red := 64, pcpMap := [],
    dscpMap := [], outerTurn := 5, fresh := true, transit := Policer.reset }

/-- The settings of class `c` after reset (R349, R464). -/
def ClassCfg.reset (c : Nat) : ClassCfg :=
  { pcp := c, dscp := c * 8, quantum := 16384, commonWeight := 16, rate := 0, burst := 65536, bucket := ⟨65536 * 1000000000, 0⟩,
    ecn := 131072, deficit := 0, turn := 0, fresh := true, hwmOcc := 0, hwmSojourn := 0 }

def Shaper.reset : Shaper := { rate := 0, burst := 65536, bucket := ⟨65536 * 1000000000, 0⟩ }
def EQueue.reset : EQueue := { frames := [], deficit := 0, hwmOcc := 0, hwmSojourn := 0 }

def Traffic.reset : Traffic :=
  { seats := [], classes := [], queues := [], shapers := [], weights := [], policers := [], origEvent := 6, origDemand := 4,
    origPrefetch := 3, origCopy := 1, origServe := 2 }

def Transport.reset : Transport :=
  { peers := [], port := 46880, hostSeat := 0, hostActive := 0, fallback := false, lastUnit := none, backlog := [], wire := [], unreachable := [] }

def Fabric.reset : Fabric :=
  { active := none, commitAt := none, prev := none, graceEnd := none, staging := [], lastReply := 0, switches := 0, pendingId := 0xFFFF, own := [], offers := [], copyAsks := [], handovers := [], served := [], shPeer := 0, shEnable := false,
    shSample := 0, shWindow := 10000, shRun := 0, promotable := false, digMine := [], digTheirs := [], digSend := [],
    poolLimit := 0, poolObjs := [], proposals := [], withdrawn := [], nextProposal := 1, proposalSecond := 0,
    proposalCount := 0 }

def Half.reset : Half :=
  { rows := [], waiting := [], queue := [], quiet := [], lookups := [], outcomes := [], shiftMax := 0 }

def Memory.reset : Memory :=
  { tiles := [], descs := [], grads := [], gradHold := [], lse := [], weights := [], drains := [], fetches := [], err := [],
    seenPoison := [], mirrorLost := [], lastCorr := [], lastUncorr := [], eccWindow := none, scrubRun := [], scrubQueue := [],
    scrubLast := [], reserve := [], wmLow := [], wmHigh := [], evictAge := 0, holdMax := 0, nextObj := 1, nextDrain := 1, cancelled := [] }

/-- A unit without sequences. -/
def Unit'.reset : Unit' := { seqs := [], last := none, lane := [], saved := none, keys := [] }

def NearBank.reset : NearBank := { units := [], share := [], poll := 1000, nextTag := 0, nextOrder := 0, taken := [], jobs := [] }

def Programs.reset : Programs :=
  { queue := [], ctxs := [], ring := [], mirror := [], nextCount := [], plies := [], nextPly := 1 }

/-- An EMPTY slot with its reset settings (R151, R163, R167, R233). -/
def Tenant.reset : Tenant :=
  { state := .empty, current := none, old := none, staging := none, skipped := [], dropped := 0, dirQuota := 131072, ctxQuota := 1024,
    tierQuota := 0xBF00000000, policy := 0 }

def Trust.reset : Trust := { tenants := [], reencRate := [], spdm := 0, drbgs := [], channel := ⟨[], 0, []⟩ }
def PathState.reset : PathState := { sels := [], staged := [], latched := [] }

def Access.reset : Access :=
  { sealedBlocks := 0, paths := [], smbRead := none, smbOut := [], straps := Config.smbStraps, i3c := none, jtagIr := 1, jtagDr := 0,
    boundary := [], tdo := [] }

/-- The node right after reset: t0 of R370 after power good, reset cause 0x01 (R478). -/
def State.reset : State :=
  { time := 0, boot := Boot.reset, rst := Rst.reset 1, supply := Supply.reset, mon := Monitors.reset, health := Health.reset,
    cores := Cores.reset, ev := Events.reset, ctr := [], seats := [], tr := Traffic.reset, net := Transport.reset,
    fab := Fabric.reset, dir := [], mem := Memory.reset, nb := NearBank.reset, pg := Programs.reset, trust := Trust.reset,
    acc := Access.reset, freeIdx := 0, pending := [] }

/-! ### Stops -/

/-- The machine's faults. No command of this block ends in a fault (NOTES.md, Stops); the one constructor is raised by nobody
and is safe. -/
inductive Fault where
  /-- Raised by no command; safe. -/
  | unreachable
  deriving DecidableEq, Repr

/-- The machine's refusals. -/
inductive Refusal where
  /-- Raised by an arm of exec whose command has no meaning yet; safe. -/
  | notModelled (mnemonic : String)
  deriving DecidableEq, Repr

end Sys2Proof.Machine
end

