-- ==== Sys2Proof/Machine/Flags.lean ====
section
/-! DEFINITION. The codes of the manual: statuses (R5), state codes (R43, R82, R106, R131, R155, R181, R222, R257, R283, R314,
R391, R409), event codes (R442), ALERT_STAT bits (R446), roles (R324), and the order of R7. -/

namespace Sys2Proof.Machine
open Sys2Proof

/-! ### Statuses (R5) -/

def stOk : Nat := 0x0000
def stLate : Nat := 0x0001
def stRefused : Nat := 0x0101
def stVersion : Nat := 0x0102
def stFloor : Nat := 0x0201
def stNoRun : Nat := 0x0301
def stNotOwner : Nat := 0x0302
def stQuota : Nat := 0x0303
def stTilePoisoned : Nat := 0x0401
def stWeightsPoisoned : Nat := 0x0402
def stTenantGone : Nat := 0x0501
def stRotationBusy : Nat := 0x0502
def stAbortedReset : Nat := 0x0601
def stAbortedFault : Nat := 0x0602

/-- The order of R7, first reported first. -/
def statusOrder : List Nat :=
  [stAbortedReset, stAbortedFault, stTenantGone, stVersion, stRefused, stRotationBusy, stNotOwner, stQuota, stFloor, stNoRun,
   stWeightsPoisoned, stTilePoisoned, stLate]

/-- The status of several that R7 reports; OK over none. -/
def worst (l : List Nat) : Nat := (statusOrder.find? (fun c => l.contains c)).getD stOk

/-- A failure: high byte not zero (R6, R239). -/
def isFailure (st : Nat) : Bool := decide (st / 256 ≠ 0)

/-- The failure codes in table order from LATE to ABORTED_FAULT, as PROG_STAT counts them (R471). -/
def progCodes : List Nat :=
  [stLate, stRefused, stVersion, stFloor, stNoRun, stNotOwner, stQuota, stTilePoisoned, stWeightsPoisoned, stTenantGone,
   stRotationBusy, stAbortedReset, stAbortedFault]

/-! ### State codes -/

def scPositionSealed : Nat := 0x21
def scPositionFilled : Nat := 0x22
def scPositionGap : Nat := 0x23
def scShareFull : Nat := 0x24
def scStreamTableFull : Nat := 0x25
def scSourceOpen : Nat := 0x26
def scOffsetEncoding : Nat := 0x27
def scRangeOverlap : Nat := 0x28
def scPositionLimit : Nat := 0x29
def scSourceBorrowed : Nat := 0x2A
def scTileSealed : Nat := 0x2B
def scScaleInvalid : Nat := 0x31
def scZpPair : Nat := 0x32
def scScaleMismatch : Nat := 0x33
def scParamInvalid : Nat := 0x41
def scHeadMismatch : Nat := 0x42
def scInlineNoTile : Nat := 0x43
def scLseMissing : Nat := 0x51
def scGradSetBusy : Nat := 0x52
def scNoMaster : Nat := 0x53
def scWeightSetBusy : Nat := 0x54
def scWeightsTorn : Nat := 0x55
def scWeightShape : Nat := 0x56
def scDirFull : Nat := 0x61
def scRunHeld : Nat := 0x62
def scPoolFull : Nat := 0x71
def scReserveFull : Nat := 0x72
def scScrubRange : Nat := 0x91
def scScrubBusy : Nat := 0x92
def scContextsFull : Nat := 0xA1
def scProgramIdLive : Nat := 0xA2
def scNotPrivileged : Nat := 0xA3
def scTailHeld : Nat := 0xA4
def scTenantAbsent : Nat := 0xA5
def scBufferShort : Nat := 0xB1
def scMergeInvalid : Nat := 0xB2
def scShapeInvalid : Nat := 0xB3
def scWeightSetAbsent : Nat := 0xB4
def scTileFormat : Nat := 0xC1
def scRunPartial : Nat := 0xC2
def scStepInvalid : Nat := 0xC3
def scRegAddr : Nat := 0xC4
def scSlotBusy : Nat := 0xC5
def scKeyInvalid : Nat := 0xC6
def scCoreUnavailable : Nat := 0xC7
def scLoadOrder : Nat := 0xC8
def scRoleRefused : Nat := 0xD1
def scTailAwaited : Nat := 0xD2
def scNonceSpent : Nat := 0xE1

/-- A completion of an instruction: its status and detail. -/
abbrev Compl := Nat × Nat

/-- A STATE_REFUSED completion. -/
def refusedWith (sc : Nat) : Compl := (stRefused, sc)

/-- Checks in the order an entry gives them (R492): each a condition and the completion it asks for. R7 chooses the status among
those that hold; among STATE_REFUSED conditions the first of the list gives the detail. None where no condition holds. -/
def firstOf (cs : List (Bool × Compl)) : Option Compl :=
  let hold := (cs.filter (fun c => c.1)).map Prod.snd
  match hold with
  | [] => none
  | _ => let st := worst (hold.map Prod.fst); hold.find? (fun c => c.1 == st)

/-! ### Events (R442) -/

def evResetDone : Nat := 0x01
def evSagWarning : Nat := 0x02
def evThermalWarning : Nat := 0x03
def evMonitor : Nat := 0x04
def evCanary : Nat := 0x05
def evSpare : Nat := 0x06
def evCoreRetired : Nat := 0x07
def evWatchdog : Nat := 0x08
def evAvsFault : Nat := 0x09
def evSeatUp : Nat := 0x10
def evSeatDown : Nat := 0x11
def evBoardSwitched : Nat := 0x12
def evPeerUnreachable : Nat := 0x13
def evMemUncorr : Nat := 0x20
def evLayerUnavailable : Nat := 0x30
def evFetchStalled : Nat := 0x31
def evMigration : Nat := 0x32
def evTileLost : Nat := 0x33
def evHostChanged : Nat := 0x40
def evRoleDegraded : Nat := 0x41
def evOwnLost : Nat := 0x42
def evOwnReclaimed : Nat := 0x43
def evOwnConflict : Nat := 0x44
def evDigestMismatch : Nat := 0x45
def evShadowReady : Nat := 0x46
def evHealthChanged : Nat := 0x47
def evKeyRetired : Nat := 0x50
def evTenantRemoved : Nat := 0x51

/-! ### ALERT_STAT bits (R446) -/

def alSag : Nat := 0
def alThermal : Nat := 1
def alAvs : Nat := 2
def alMonitor : Nat := 3
def alCanary : Nat := 4
def alCore : Nat := 5
def alWatchdog : Nat := 6
def alReset : Nat := 7
def alEventsLost : Nat := 8
def alBoot : Nat := 9

/-! ### Roles (R324, R368, R390) -/

def roleUnplaced : Nat := 0
def roleServe : Nat := 1
def rolePool : Nat := 2
def roleShadow : Nat := 3
def roleDegraded : Nat := 4
def roleHost : Nat := 8

/-! ### Seat states (R323) -/

def seatDown : Nat := 0
def seatTraining : Nat := 1
def seatHello : Nat := 2
def seatUp : Nat := 3

/-! ### Payloads of events (R346, R443) -/

/-- The 16-byte payload of the events of 13 (R346). -/
def seatPayload (seat reason peer ver : Nat) : List Byte :=
  recordBytes [(3, seat), (5, 0), (8, reason), (16, peer), (32, ver), (64, 0)]

/-- The monitor payload (R443). -/
def monitorPayload (kind index value count duration : Nat) : List Byte :=
  recordBytes [(2, kind), (6, 0), (8, index), (16, value), (32, count), (32, Nat.min duration (2 ^ 32 - 1)), (32, 0)]

/-- The core payload (R443). -/
def corePayload (cluster pcore lindex count reason switchNs : Nat) : List Byte :=
  recordBytes [(3, cluster), (4, pcore), (4, lindex), (5, 0), (7, count), (9, 0), (8, reason), (24, 0), (32, switchNs), (32, 0)]

/-- The fields of the common payload (R443). -/
structure Common where
  tenant : Nat := 0
  layer : Nat := 0
  id : Nat := 0
  pos : Nat := 0
  epoch : Nat := 0
  node : Nat := 0
  step : Nat := 0
  aux0 : Nat := 0
  aux1 : Nat := 0
  aux2 : Nat := 0
  readings : Nat := 0
  deriving DecidableEq, Repr

/-- The common payload (R443). -/
def commonPayload (c : Common) : List Byte :=
  recordBytes [(12, c.tenant), (8, c.layer), (12, 0), (32, c.id), (24, c.pos), (8, 0), (32, c.epoch), (16, c.node), (16, c.step),
    (32, 0), (64, c.aux0), (64, c.aux1), (64, c.aux2), (64, c.readings), (64, 0)]

end Sys2Proof.Machine
end

