-- ==== Sys2Proof/Machine/Ops.lean ====
section
/-! DEFINITION. The operations every command is made of: free values, counters, alerts, health, clocks, the effective role. -/

namespace Sys2Proof.Machine
open Sys2Proof

/-! ### Free values (log 7) -/

/-- Draws one free value. -/
def draw (s : State) : W64 × State := (Config.freeWord s.freeIdx, { s with freeIdx := s.freeIdx + 1 })

/-- Draws a free choice among `n`. -/
def drawPick (s : State) (n : Nat) : Nat × State :=
  (Config.freePick s.freeIdx % (if n = 0 then 1 else n), { s with freeIdx := s.freeIdx + 1 })

/-- Draws `n` free bytes. -/
def drawBytes (s : State) (n : Nat) : List Byte × State :=
  ((List.range n).map (fun i => Config.freeByte (s.freeIdx + i)), { s with freeIdx := s.freeIdx + n })

/-! ### Counters (R456) -/

/-- The present value of a counter. -/
def getCtr (s : State) (c : Ctr) : Nat := Tab.get s.ctr 0 c

/-- Adds to a counter, saturating at 2^64 − 1. -/
def addCtr (s : State) (c : Ctr) (n : Nat) : State :=
  { s with ctr := if n = 0 then s.ctr else Tab.upd s.ctr 0 c (fun v => satAdd 64 v n) }

/-- Counts one. -/
def bump (s : State) (c : Ctr) : State := addCtr s c 1

/-- Raises a counter that holds a maximum (NB_REFRESH.DUE_MAX_NS). -/
def maxCtr (s : State) (c : Ctr) (n : Nat) : State := { s with ctr := Tab.upd s.ctr 0 c (fun v => Nat.max v n) }

/-- Sets a counter back to 0, as the read of an RC counter does (R4, R456). -/
def clearCtr (s : State) (c : Ctr) : State := { s with ctr := Tab.del s.ctr c }

/-! ### Alerts (R446) -/

/-- Sets a bit of ALERT_STAT. -/
def setAlert (s : State) (bit : Nat) : State :=
  { s with rst := { s.rst with alertStat := s.rst.alertStat ||| BitVec.ofNat 10 (2 ^ bit) } }

/-- ALERT# is asserted (R444). -/
def alertAsserted (s : State) : Bool := decide (s.rst.alertStat &&& s.rst.alertMask ≠ 0) || s.boot.failed

/-! ### Health (R389) -/

/-- Adds a weight, in units of 1/256, to the newest second of a deficit. -/
def addNewest (d : List Nat) (w : Nat) : List Nat :=
  match d with
  | [] => [w]
  | x :: r => (x + w) :: r

/-- exp(−i / 600) in fixed point (R389). -/
def fxDecay (i : Nat) : Nat :=
  let x := i * fxOne / 600
  let n := x / fxLn2 + 1
  if i = 0 then fxOne else fxExpSmall (n * fxLn2 - x) / 2 ^ n

/-- A deficit in fixed point, times 256. -/
def deficitFx (d : List Nat) : Nat := ((List.range d.length).zip d).foldl (fun a p => a + p.2 * fxDecay p.1) 0

/-- 255 − min(255, ⌈D⌉) (R389). -/
def scoreOf (d : List Nat) : Nat := 255 - Nat.min 255 (ceilDiv (deficitFx d) (256 * fxOne))

/-! ### Cores and roles (R368, R447) -/

/-- SPARE_MAP of a cluster. -/
def spareMap (s : State) (c : Nat) : SpareMap := Tab.get s.cores.spares SpareMap.reset c

/-- Logical cores present in a cluster: ACTIVE of SPARE_MAP. -/
def activeCores (m : SpareMap) : Nat := (m.map.filter (fun p => p != 15)).length

/-- The node's logical core count (R439). -/
def logicalCount (s : State) : Nat := sumBy (fun c => activeCores (spareMap s c)) (List.range 8)

/-- The effective role (R368). -/
def effRole (s : State) : Nat :=
  match s.fab.active with
  | none => roleUnplaced
  | some b => if b.role = roleServe ∧ logicalCount s < 64 then roleDegraded else b.role

/-- The node has had its first board (R344). -/
def placed (s : State) : Bool := s.fab.active.isSome

/-- The active board's version, 0 if none. -/
def boardVer (s : State) : Nat := (s.fab.active.map Board.ver).getD 0

/-- The node's own identity in frames it sends (R338, R374): the board's, the pending ID while unplaced, or 0xFFFF. -/
def ownId (s : State) : Nat := (s.fab.active.map Board.ownId).getD s.fab.pendingId

/-- HEALTH (R390). -/
def healthWord (s : State) : Nat :=
  packFields [(8, scoreOf s.health.d), (1, b2n (decide (deficitFx s.health.dh < 256 * fxOne))), (3, effRole s), (4, 0),
    (8, scoreOf s.health.dh), (8, 0)]

/-! ### Clocks -/

/-- A cycle of the system reference on an idle node; NODE_TIME is 64 bits wide and stands still while the node is held in reset (R19, R428,
log 1). -/
def idleCycle (s : State) : State :=
  if s.boot.powered && !s.boot.resetLow && !s.boot.hold.supply && !s.boot.hold.reference then { s with time := (s.time + 10) % 2 ^ 64 } else s

/-- The first instant of NODE_TIME, which counts in tens of ns, that is not before a time (R19). -/
def tick (t : Time) : Time := (t + 9) / 10 * 10

/-- The instant of a timer has come: NODE_TIME stands at least there, at a whole cycle of the reference (R19, log 3). -/
def reach (s : State) (t : Time) : State := { s with time := Nat.max s.time (tick t) % 2 ^ 64 }

/-- The node runs: powered and not held in reset. -/
def running (s : State) : Bool := s.boot.powered && !s.boot.resetLow && decide (s.boot.hold = .free)

/-- The node takes frames addressed to it: it runs, and no control reset is under way (R433). -/
def hears (s : State) : Bool := running s && !s.rst.ctlRunning

/-- Commit points pass and sequences issue: no control reset is under way and no watchdog has tripped (R430, R433). -/
def commits (s : State) : Bool := hears s && s.rst.wdog.isNone

/-- The control complexes have started: stage 1 or later, not held (R370). -/
def started (s : State) : Bool := running s && decide (1 ≤ s.boot.stage)

/-- The firmware runs programs: stage 2 or 3, no control reset, no tripped watchdog (R370, R430, R433). -/
def serving (s : State) : Bool :=
  running s && decide (2 ≤ s.boot.stage) && !s.rst.ctlRunning && s.rst.wdog.isNone

/-! ### Tables of the state -/

def getSeat (s : State) (i : Nat) : Seat := Tab.get s.seats (Seat.reset ((s.boot.cfgSeats[i]?).join)) i
def putSeat (s : State) (i : Nat) (x : Seat) : State := { s with seats := Tab.put s.seats i x }
def updSeat (s : State) (i : Nat) (f : Seat → Seat) : State := putSeat s i (f (getSeat s i))

def getTenant (s : State) (t : Nat) : Tenant := Tab.get s.trust.tenants Tenant.reset t
def putTenant (s : State) (t : Nat) (x : Tenant) : State := { s with trust := { s.trust with tenants := Tab.put s.trust.tenants t x } }

def getHalf (s : State) (h : Nat) : Half := Tab.get s.dir Half.reset h
def putHalf (s : State) (h : Nat) (x : Half) : State := { s with dir := Tab.put s.dir h x }

def putSpare (s : State) (c : Nat) (m : SpareMap) : State := { s with cores := { s.cores with spares := Tab.put s.cores.spares c m } }

/-- The pool-target list of the active board (R164). -/
def poolTargets (s : State) : List Nat := (s.fab.active.map Board.pool).getD []

/-- The die of a seat (R14). -/
def seatDie (seat : Nat) : Nat := if seat < 3 then 0 else 1

end Sys2Proof.Machine
end

