-- ==== Sys2Proof/Machine/Channel.lean ====
section
/-! DEFINITION. The random generators of the two trust blocks and the private channel between them (16 R393). -/

namespace Sys2Proof.Machine
open Sys2Proof

/-! ### CTR_DRBG with AES-256, without a derivation function (R393, log 9) -/

/-- The block that V encrypts to, `i` counts on. -/
def drbgBlock (d : Drbg) (i : Nat) : List Byte := aesBlock (aesSchedule d.key) (beBytes 16 ((beNat d.v + i) % 2 ^ 128))

/-- New key and V from three blocks and 48 bytes of input. -/
def drbgUpdate (d : Drbg) (input : List Byte) : Drbg :=
  let t := xorBytes ((List.range 3).map (fun i => drbgBlock d (i + 1))).flatten (fitBytes 48 input)
  { d with key := t.take 32, v := t.drop 32 }

/-- Takes in entropy; the requests count from here. -/
def drbgReseed (d : Drbg) (entropy : List Byte) : Drbg := { (drbgUpdate d entropy) with requests := 0 }

/-- The generator before its first seed. -/
def drbgZero : Drbg := ⟨zeros 32, zeros 16, 0⟩

/-- Seeds the generator of a trust block from its entropy source, whose bytes are free (R393, log 6). -/
def seedDrbg (s : State) (block : Nat) : State :=
  let e := drawBytes s 48
  { e.2 with trust := { e.2.trust with drbgs := Tab.put e.2.trust.drbgs block (drbgReseed drbgZero e.1) } }

/-- One request for `n` bytes from the generator of a trust block; every 2^20 requests it is seeded anew first (R393). -/
def drbgRequest (s : State) (block n : Nat) : List Byte × State :=
  match Tab.find s.trust.drbgs block with
  | none => (zeros n, s)
  | some d0 =>
    let r := if 2 ^ 20 ≤ d0.requests then (let e := drawBytes s 48; (drbgReseed d0 e.1, e.2)) else (d0, s)
    let m := (n + 15) / 16
    let out := ((List.range m).map (fun i => drbgBlock r.1 (i + 1))).flatten.take n
    let d1 := drbgUpdate { r.1 with v := beBytes 16 ((beNat r.1.v + m) % 2 ^ 128) } []
    (out, { r.2 with trust := { r.2.trust with drbgs := Tab.put r.2.trust.drbgs block { d1 with requests := r.1.requests + 1 } } })

/-! ### The private channel (R15, R393) -/

/-- The channel key of this boot: the primary encapsulates to a key pair that the mirror generates. -/
def keyChannel (s : State) : State :=
  let m := drbgRequest s 1 64
  let p := drbgRequest m.2 0 32
  { p.2 with trust := { p.2.trust with channel := ⟨(kemEncaps (kemPub m.1) p.1).1, 0, []⟩ } }

/-- A transfer from the primary to the mirror, under GCM with the channel key; how the IV is formed is a free value (R393). -/
def channelSend (s : State) (msg : List Byte) : State :=
  let ch := s.trust.channel
  let c := gcmSeal ch.key (fitBytes 12 (Config.channelIv ch.sent)) [] msg
  { s with trust := { s.trust with channel := { ch with sent := ch.sent + 1, last := c.1 ++ c.2 } } }

/-- What the primary tells the mirror of a tenant's epoch: kind 0 its key, 1 that it becomes current, 2 that its key is destroyed (R16, R393, R402,
R411; layout DESIGN CHOICE, log 79). -/
def keyTransfer (kind t : Nat) (k : Key) : List Byte :=
  recordBytes [(16, t), (16, k.epoch), (16, k.writer), (16, kind)] ++ (if kind = 0 then k.key else [])

/-- The mirror destroys keys with the primary (R305, R411, R414). -/
def destroyKeys (s : State) (t : Nat) (ks : List Key) : State := ks.foldl (fun s k => channelSend s (keyTransfer 2 t k)) s

/-- Both trust blocks boot: their generators are seeded, then the channel has its key (R370, R393). -/
def startTrust (s : State) : State := keyChannel (seedDrbg (seedDrbg s 0) 1)

end Sys2Proof.Machine
end

