-- ==== Sys2Proof/Machine/Traffic.lean ====
section
/-! DEFINITION. Traffic control (14): classes and colours, queues, marks, shapers, the egress scheduler, policers. -/

namespace Sys2Proof.Machine
open Sys2Proof

/-! ### Settings -/

def getST (s : State) (seat : Nat) : SeatTraffic := Tab.get s.tr.seats SeatTraffic.reset seat
def putST (s : State) (seat : Nat) (x : SeatTraffic) : State := { s with tr := { s.tr with seats := Tab.put s.tr.seats seat x } }
def getCC (s : State) (seat c : Nat) : ClassCfg := Tab.get s.tr.classes (ClassCfg.reset c) (seat, c)
def putCC (s : State) (seat c : Nat) (x : ClassCfg) : State := { s with tr := { s.tr with classes := Tab.put s.tr.classes (seat, c) x } }
def getQ (s : State) (q : QId) : EQueue := Tab.get s.tr.queues EQueue.reset q
def putQ (s : State) (q : QId) (x : EQueue) : State := { s with tr := { s.tr with queues := Tab.put s.tr.queues q x } }
def getShaper (s : State) (seat slot : Nat) : Shaper := Tab.get s.tr.shapers Shaper.reset (seat, slot)
def putShaper (s : State) (seat slot : Nat) (x : Shaper) : State :=
  { s with tr := { s.tr with shapers := Tab.put s.tr.shapers (seat, slot) x } }

/-- The number of the common queue of a class (R350). -/
def commonQ : Nat := 4096

/-- Frame bytes from destination MAC to FCS (R351). -/
def frameLen (bs : List Byte) : Nat := bs.length + 4

/-- A signed 7-bit overhead (R351). -/
def overhead (v : BitVec 7) : Int := signedOf 7 v.toNat

/-- The counted length of a frame (R351). -/
def countedLen (ovh : BitVec 7) (bs : List Byte) : Nat := ((frameLen bs : Int) + overhead ovh).toNat

/-! ### Colours and classes (R347) -/

/-- Code 3 counts as red (R347). -/
def colourOf (c : Nat) : Nat := if c ≥ 2 then 2 else c

/-- The entry of PCP_MAP (CLASS, COLOUR). -/
def pcpEntry (t : SeatTraffic) (p : Nat) : Nat × Nat := Tab.get t.pcpMap (p, 0) p
/-- The entry of DSCP_MAP. -/
def dscpEntry (t : SeatTraffic) (d : Nat) : Nat × Nat := Tab.get t.dscpMap (d / 8, 0) d

/-- Class and colour of a received frame: its PCP if tagged, its DSCP, its header's COLOUR (R347). -/
def classify347 (s : State) (seat : Nat) (pcp : Option Nat) (dscp hdrColour : Nat) : Nat × Nat :=
  let t := getST s seat
  let e := match pcp with
    | some p => if t.srcTag then pcpEntry t p else dscpEntry t dscp
    | none => dscpEntry t dscp
  let colourOn := bitN (getSeat s seat).features 1
  (e.1, colourOf (if colourOn then hdrColour else e.2))

/-! ### Occupancy and pauses -/

def qBytes (q : EQueue) : Nat := sumBy (fun f => frameLen f.bytes) q.frames

/-- The bytes of a class's queues together (R336, R356). -/
def classOcc (s : State) (seat c : Nat) : Nat :=
  sumBy (fun p => if p.1.1 = seat ∧ p.1.2.1 = c then qBytes p.2 else 0) s.tr.queues

/-- The bytes in a seat's egress buffer (R356). -/
def seatOcc (s : State) (seat : Nat) : Nat := sumBy (fun p => if p.1.1 = seat then qBytes p.2 else 0) s.tr.queues

/-- The PFC priority of a class on a seat (R349). -/
def classPrio (s : State) (seat c : Nat) : Nat := (getCC s seat c).pcp

/-- The class is paused by the partner (R321, R349). -/
def classPaused (s : State) (seat c : Nat) : Bool := ((getSeat s seat).paused.keys).contains (classPrio s seat c)

/-- Adds the pause time that has passed to PAUSE_NS of the classes of paused priorities (R465). -/
def settlePause (s : State) (seat : Nat) : State :=
  let st := getSeat s seat
  let s1 := st.paused.foldl (fun s p => (List.range 8).foldl (fun s c =>
    if classPrio s seat c = p.1 then addCtr s (.egress seat c 6) (s.time - p.2) else s) s) s
  updSeat s1 seat (fun x => { x with paused := x.paused.mapVals (fun _ _ => s.time) })

/-- A queue after some of its frames have been discarded; one that is empty then sets D to 0 (R354, R364). -/
def EQueue.discard (q : EQueue) (keep : QFrame → Bool) : EQueue :=
  let fs := q.frames.filter keep
  { q with frames := fs, deficit := if fs = [] then 0 else q.deficit }

/-! ### Buckets (R352, R359) -/

/-- A bucket filled up to an instant at a rate in 100 kb/s, 12,500 billionths of a byte in each ns, up to its size. -/
def Bucket.fill (rate size now : Nat) (b : Bucket) : Bucket :=
  let cap : Int := (size * 1000000000 : Nat)
  let gained := b.level + ((rate * 12500 * (now - b.at') : Nat) : Int)
  ⟨if gained > cap then cap else gained, now⟩

/-- A bucket less `n` bytes. -/
def Bucket.take (n : Nat) (b : Bucket) : Bucket := ⟨b.level - ((n * 1000000000 : Nat) : Int), b.at'⟩

/-- A bucket clamped to a new size. -/
def Bucket.clamp (size : Nat) (b : Bucket) : Bucket :=
  ⟨if b.level > ((size * 1000000000 : Nat) : Int) then ((size * 1000000000 : Nat) : Int) else b.level, b.at'⟩

/-- The class shaper lets a frame start (R352). -/
def classFree (s : State) (seat c : Nat) : Bool :=
  let x := getCC s seat c
  x.rate == 0 || decide (0 ≤ (Bucket.fill x.rate x.burst s.time x.bucket).level)

/-- The tenant shaper of a queue lets a frame start (R352). -/
def tenantFree (s : State) (seat q : Nat) : Bool :=
  let x := getShaper s seat q
  q == commonQ || x.rate == 0 || decide (0 ≤ (Bucket.fill x.rate x.burst s.time x.bucket).level)

/-! ### Queueing (R336, R350, R356, R363) -/

/-- The offset of the IP header: after at most one C-tag. -/
def ipOffset (bs : List Byte) : Nat := if beNat (slice bs 12 2) = 0x8100 then 18 else 14

/-- The ones' complement sum of big-endian 16-bit words. -/
def onesSum (bs : List Byte) : Nat :=
  let t := sumBy beNat (chunks 2 (padTo 2 bs))
  let f := fun (n : Nat) => n % 65536 + n / 65536
  f (f (f t))

/-- The internet checksum of bytes. -/
def inetSum (bs : List Byte) : Nat := 65535 - onesSum bs

/-- Sets CE in a frame that carries ECT (R336). -/
def markCE (bs : List Byte) : List Byte :=
  let o := ipOffset bs
  let b1 := (bs.getD (o + 1) 0).toNat
  if (bs.getD o 0).toNat / 16 = 6 then
    let ecn := b1 / 16 % 4
    if ecn = 0 then bs else patch bs (o + 1) [BitVec.ofNat 8 (b1 ||| 0x30)]
  else
    let ecn := b1 % 4
    if ecn = 0 then bs
    else
      let bs1 := patch (patch bs (o + 1) [BitVec.ofNat 8 (b1 ||| 3)]) (o + 10) [0, 0]
      patch bs1 (o + 10) (beBytes 2 (inetSum (slice bs1 o 20)))

/-- Puts a frame into a queue: CE where the class queue stands at or above ECN_THRESH, the high-water marks (R336, R363). -/
def enqueue (s : State) (seat c q : Nat) (f : QFrame) : State :=
  let occ := classOcc s seat c
  let cc := getCC s seat c
  let f := if cc.ecn ≤ occ then { f with bytes := markCE f.bytes } else f
  let e := getQ s (seat, c, q)
  let e := { e with frames := e.frames ++ [f] }
  let s := putQ s (seat, c, q) { e with hwmOcc := Nat.max e.hwmOcc (qBytes e) }
  putCC s seat c { cc with hwmOcc := Nat.max cc.hwmOcc (occ + frameLen f.bytes) }

/-- QUEUE_LIMIT of a queue in bytes (R356). -/
def queueLimit (s : State) (seat q : Nat) : Nat :=
  1024 * (if q = commonQ then (getST s seat).limCommon else (getST s seat).limTenant)

/-- A queue and the seat's buffer have room for a frame of `n` bytes (R356). -/
def hasRoom (s : State) (q : QId) (n : Nat) : Bool :=
  decide (qBytes (getQ s q) + n ≤ queueLimit s q.1 q.2.2 ∧ seatOcc s q.1 + n ≤ 4 * 1048576)

/-- Hands an originated frame to its queue; one that finds no room, or others waiting before it, waits in the transport (R356). -/
def queueFrame (s : State) (seat c q : Nat) (bs : List Byte) : State :=
  let id : QId := (seat, c, q)
  if hasRoom s id (frameLen bs) && !(s.net.backlog.any (fun b => b.1 == id)) then
    enqueue s seat c q ⟨bs, s.time, false, false, false, false⟩
  else { s with net := { s.net with backlog := s.net.backlog ++ [(id, bs)] } }

/-- Hands waiting frames to their queues as far as there is room, in order within each queue (R356). -/
def drainBacklog (s : State) : State :=
  let waiting := s.net.backlog
  waiting.foldl (fun s b => queueFrame s b.1.1 b.1.2.1 b.1.2.2 b.2) { s with net := { s.net with backlog := [] } }

/-! ### The scheduler (R353, R354) -/

/-- The queues of a class that hold a frame, in ascending order. -/
def busyQueues (s : State) (seat c : Nat) : List Nat :=
  sortBy (· ≤ ·) ((s.tr.queues.filter (fun p => decide (p.1.1 = seat ∧ p.1.2.1 = c ∧ p.2.frames ≠ []))).map (fun p => p.1.2.2))

/-- Originated frames of some queues are discarded; a class that this leaves without a frame sets D to 0 as well (R354, R364). -/
def discardFrames (s : State) (p : QId → Bool) : State :=
  let s1 : State := { s with tr := { s.tr with queues := s.tr.queues.mapVals (fun i q => if p i then q.discard QFrame.forwarded else q) } }
  { s1 with tr := { s1.tr with classes := s1.tr.classes.mapVals (fun i c => if busyQueues s1 i.1 i.2 = [] then { c with deficit := 0 } else c) } }

/-- A queue is eligible (R353). -/
def queueEligible (s : State) (seat c q : Nat) : Bool :=
  decide ((getQ s (seat, c, q)).frames ≠ []) && !classPaused s seat c && classFree s seat c && tenantFree s seat q

/-- A class is eligible (R353). -/
def classEligible (s : State) (seat c : Nat) : Bool := (busyQueues s seat c).any (queueEligible s seat c)

/-- The quantum of a queue (R354). -/
def queueQuantum (s : State) (seat c q : Nat) : Nat :=
  1024 * (if q = commonQ then (getCC s seat c).commonWeight else Tab.get s.tr.weights 16 q)

/-- The member after `cur` in cyclic order. -/
def nextMember (ms : List Nat) (cur : Nat) : Nat := (ms.find? (fun m => decide (cur < m))).getD (ms.headD cur)

/-- The head frame's counted length. -/
def headLen (s : State) (seat c q : Nat) : Nat :=
  match (getQ s (seat, c, q)).frames with
  | [] => 0
  | f :: _ => countedLen (getST s seat).ovhEgress f.bytes

def setQDeficit (s : State) (seat c q d : Nat) : State :=
  let e := getQ s (seat, c, q)
  putQ s (seat, c, q) { e with deficit := d }

/-- The inner round: the queue whose head starts next, and the state with the deficits and the turn that led to it. `fuel`
bounds the turns; a frame fits after at most ten quanta of 1,024 bytes. -/
def innerPick (fuel : Nat) (s : State) (seat c : Nat) : Option (Nat × State) :=
  match fuel with
  | 0 => none
  | n + 1 =>
    let ms := busyQueues s seat c
    let cc := getCC s seat c
    let q := cc.turn
    let pass := fun (s : State) => putCC s seat c { (getCC s seat c) with turn := nextMember ms q, fresh := true }
    if queueEligible s seat c q then
      let d := (getQ s (seat, c, q)).deficit + (if cc.fresh then queueQuantum s seat c q else 0)
      let s1 := putCC (setQDeficit s seat c q d) seat c { cc with fresh := false }
      let h := headLen s1 seat c q
      if h ≤ d then some (q, setQDeficit s1 seat c q (d - h)) else innerPick n (pass s1) seat c
    else
      let s1 := if (getQ s (seat, c, q)).frames = [] then setQDeficit s seat c q 0 else s
      innerPick n (pass s1) seat c

/-- Turns enough for every member to be served. -/
def innerFuel (s : State) (seat c : Nat) : Nat := 11 * ((busyQueues s seat c).length + 2)

/-- The class after `c` in the outer round, descending from 5 to 0. -/
def nextClass (c : Nat) : Nat := if c = 0 then 5 else c - 1

/-- The outer round over classes 5 to 0: the class, the queue and the state with the turn and the deficits (R353, R354). -/
def outerPick (fuel : Nat) (s : State) (seat : Nat) : Option (Nat × Nat × State) :=
  match fuel with
  | 0 => none
  | n + 1 =>
    let t := getST s seat
    let c := t.outerTurn
    let pass := fun (s : State) => putST s seat { (getST s seat) with outerTurn := nextClass c, fresh := true }
    if classEligible s seat c then
      let cc := getCC s seat c
      let d := cc.deficit + (if t.fresh then cc.quantum else 0)
      let s1 := putST (putCC s seat c { cc with deficit := d }) seat { t with fresh := false }
      match innerPick (innerFuel s1 seat c) s1 seat c with
      | none => outerPick n (pass s1) seat
      | some (q, s2) =>
        let h := headLen s1 seat c q
        if h ≤ d then some (c, q, putCC s2 seat c { (getCC s2 seat c) with deficit := d - h })
        else outerPick n (pass s1) seat
    else
      let s1 := if busyQueues s seat c = [] then putCC s seat c { (getCC s seat c) with deficit := 0 } else s
      outerPick n (pass s1) seat

/-- The scheduler's choice (R353). -/
def schedule (s : State) (seat : Nat) : Option (Nat × Nat × State) :=
  let inner := fun (c : Nat) => (innerPick (innerFuel s seat c) s seat c).map (fun p => (c, p.1, p.2))
  if classEligible s seat 7 then inner 7
  else if classEligible s seat 6 then inner 6
  else if (List.range 6).any (classEligible s seat) then outerPick 70 s seat
  else none

/-- Subtracts a frame from the buckets that cover it (R352, R353). -/
def chargeShapers (s : State) (seat c q n : Nat) : State :=
  let cc := getCC s seat c
  let s := if cc.rate = 0 then s
    else putCC s seat c { cc with bucket := Bucket.take n (Bucket.fill cc.rate cc.burst s.time cc.bucket) }
  let x := getShaper s seat q
  if q = commonQ ∨ x.rate = 0 then s
  else putShaper s seat q { x with bucket := Bucket.take n (Bucket.fill x.rate x.burst s.time x.bucket) }

/-- Counts the head frames that only a shaper holds, once each (R465 SHAPER_HOLDS). -/
def countHolds (s : State) (seat : Nat) : State :=
  s.tr.queues.foldl (fun s p =>
    let c := p.1.2.1
    let q := p.1.2.2
    match p.2.frames with
    | f :: r =>
      if p.1.1 = seat ∧ !f.held ∧ !classPaused s seat c ∧ !(classFree s seat c && tenantFree s seat q) then
        let e := getQ s p.1
        bump (putQ s p.1 { e with frames := { f with held := true } :: r }) (.egress seat c 5)
      else s
    | [] => s) s

/-- The head frame of a queue leaves: marks, counters, the seat's last transmission, what goes on the wire. `stamp` writes the
transmission time into an originated frame (R327 TSVAL). -/
def startFrame (stamp : Nat → List Byte → List Byte) (s : State) (seat c q : Nat) : State :=
  match (getQ s (seat, c, q)).frames with
  | [] => s
  | f :: r =>
    let e := getQ s (seat, c, q)
    let soj := if f.cutThrough then 0 else s.time - f.at'
    let bytes := if f.forwarded then f.bytes else stamp s.time f.bytes
    let n := frameLen f.bytes
    let s1 := putQ s (seat, c, q) { e with frames := r, hwmSojourn := Nat.max e.hwmSojourn soj, deficit := if r = [] then 0 else e.deficit }
    let cc := getCC s1 seat c
    let s2 := putCC s1 seat c { cc with hwmSojourn := Nat.max cc.hwmSojourn soj, deficit := if busyQueues s1 seat c = [] then 0 else cc.deficit }
    let s3 := chargeShapers s2 seat c q (countedLen (getST s seat).ovhEgress f.bytes)
    let s4 := addCtr (bump (addCtr (bump s3 (.egress seat c 0)) (.egress seat c 1) n) (.seatStat seat 2)) (.seatStat seat 3) n
    let s5 := updSeat s4 seat (fun x => { x with lastTx := s.time })
    { s5 with net := { s5.net with wire := s5.net.wire ++ [⟨seat, bytes, !f.stomp⟩] } }

/-! ### Policing (R358 to R362) -/

/-- A policer's buckets filled to an instant (R359). -/
def Policer.fill (now : Nat) (p : Policer) : Policer :=
  { p with tc := Bucket.fill p.cir p.cbs now p.tc, tp := Bucket.fill p.pir p.pbs now p.tp }

/-- R359: the colour a frame of counted length `n` leaves with, and the buckets after it. -/
def meter (now n k : Nat) (p : Policer) : Nat × Policer :=
  let p := Policer.fill now p
  let need : Int := (n * 1000000000 : Nat)
  if p.aware ∧ k = 2 then (2, p)
  else if p.tp.level < need then (2, p)
  else if (p.aware ∧ k = 1) ∨ p.tc.level < need then (1, { p with tp := Bucket.take n p.tp })
  else (0, { p with tp := Bucket.take n p.tp, tc := Bucket.take n p.tc })

/-- What a policer does with a frame. -/
inductive Verdict where
  | pass (colour : Nat)
  | mark (colour : Nat)
  | drop
  deriving DecidableEq, Repr

/-- The action for a colour (R360). -/
def policeAction (p : Policer) (colour : Nat) : Verdict :=
  let a := if colour = 1 then p.yellowAct else if colour = 2 then p.redAct else 0
  if a = 0 then .pass colour else if a = 1 then .mark colour else .drop

/-- Runs a frame through a policer: the verdict, the policer, and its POLICE_STAT counts. A frame never leaves greener than it
arrived (R359). -/
def police (s : State) (p : Policer) (n k : Nat) (ctr : Nat → Ctr) : Verdict × Policer × State :=
  if !p.enable then (.pass k, p, s)
  else
    let r := meter s.time n k p
    let v := policeAction p r.1
    let s := addCtr (bump s (ctr (2 * r.1))) (ctr (2 * r.1 + 1)) n
    let out := Nat.max r.1 k
    match v with
    | .drop => (.drop, r.2, bump s (ctr 7))
    | .mark _ => (.mark out, r.2, bump s (ctr 6))
    | .pass _ => (.pass out, r.2, s)

/-- A policer whose enabling R362 accepts; a transit policer may pass red frames. -/
def policerValid (transit : Bool) (p : Policer) : Bool :=
  decide (1 ≤ p.cir ∧ p.cir ≤ p.pir ∧ 9279 ≤ p.cbs ∧ 9279 ≤ p.pbs ∧ p.yellowAct ≤ 2 ∧ p.redAct ≤ 2) && (transit || decide (p.redAct ≠ 0))

end Sys2Proof.Machine
end

