-- ==== Sys2Proof/Machine/Transport.lean ====
section
/-! DEFINITION. Frames and the Etoth transport (13): the 48-byte header, the checks of R319, building and forwarding frames,
peers, messages, acknowledgement, retransmission, congestion. -/

namespace Sys2Proof.Machine
open Sys2Proof

/-! ### The transport header (R327) -/

/-- The fields of R327. -/
structure THdr where
  ver : Nat := 0x10
  type : Nat := 1
  flags : Nat := 0
  src : Nat := 0
  dst : Nat := 0
  boardVer : Nat := 0
  hops : Nat := 255
  msgType : Nat := 0
  tenant : Nat := 0
  seq : Nat := 0
  ack : Nat := 0
  msgId : Nat := 0
  msgLen : Nat := 0
  fragOff : Nat := 0
  plen : Nat := 0
  tsval : Nat := 0
  tsecr : Nat := 0
  deriving DecidableEq, Repr

/-- Frame types (R327). -/
def ftData : Nat := 1
def ftAck : Nat := 2
def ftHello : Nat := 3
def ftKeepalive : Nat := 4
def ftDiscovery : Nat := 5

/-- The 48 bytes, big-endian (R327). -/
def headerBytes (h : THdr) : List Byte :=
  beBytes 1 h.ver ++ beBytes 1 h.type ++ beBytes 2 h.flags ++ beBytes 2 h.src ++ beBytes 2 h.dst ++ beBytes 4 h.boardVer ++
  beBytes 1 h.hops ++ beBytes 1 h.msgType ++ beBytes 2 (h.tenant % 4096) ++ beBytes 4 h.seq ++ beBytes 4 h.ack ++ beBytes 4 h.msgId ++
  beBytes 4 h.msgLen ++ beBytes 4 h.fragOff ++ beBytes 2 h.plen ++ beBytes 2 0 ++ beBytes 4 h.tsval ++ beBytes 4 h.tsecr

/-- The big-endian number of `n` bytes at `off`. -/
def beAt (bs : List Byte) (off n : Nat) : Nat := beNat (slice bs off n)

/-- The header of the 48 bytes at the front. -/
def headerOf (bs : List Byte) : THdr :=
  { ver := beAt bs 0 1, type := beAt bs 1 1, flags := beAt bs 2 2, src := beAt bs 4 2, dst := beAt bs 6 2, boardVer := beAt bs 8 4,
    hops := beAt bs 12 1, msgType := beAt bs 13 1, tenant := beAt bs 14 2 % 4096, seq := beAt bs 16 4, ack := beAt bs 20 4,
    msgId := beAt bs 24 4, msgLen := beAt bs 28 4, fragOff := beAt bs 32 4, plen := beAt bs 36 2, tsval := beAt bs 40 4,
    tsecr := beAt bs 44 4 }

/-- A reserved field of the header is not zero, or TYPE is reserved (R327). -/
def headerReserved (bs : List Byte) : Bool :=
  decide (beAt bs 2 2 / 256 ≠ 0 ∨ beAt bs 14 2 / 4096 ≠ 0 ∨ beAt bs 38 2 ≠ 0 ∨ beAt bs 1 1 = 0 ∨ 5 < beAt bs 1 1)

def THdr.first (h : THdr) : Bool := bitN h.flags 0
def THdr.lastF (h : THdr) : Bool := bitN h.flags 1
def THdr.ackNow (h : THdr) : Bool := bitN h.flags 2
def THdr.retx (h : THdr) : Bool := bitN h.flags 3
def THdr.ackValid (h : THdr) : Bool := bitN h.flags 4
def THdr.syn (h : THdr) : Bool := bitN h.flags 5
def THdr.colour (h : THdr) : Nat := fld h.flags 7 6

/-- Flags from their bits (R327). -/
def mkFlags (first lastF ackNow retx ackValid syn : Bool) (colour : Nat) : Nat :=
  packFields [(1, b2n first), (1, b2n lastF), (1, b2n ackNow), (1, b2n retx), (1, b2n ackValid), (1, b2n syn), (2, colour), (8, 0)]

/-! ### Addresses (R320, R338) -/

def seatMac (seat : Nat) : Nat := (Config.macBase.toNat + seat) % 2 ^ 48

/-- The IPv6 link-local address formed from a MAC by EUI-64 (R320). -/
def linkLocal (mac : Nat) : Nat :=
  0xFE80 * 2 ^ 112 + ((mac / 2 ^ 24) ^^^ 0x020000) * 2 ^ 40 + 0xFFFE * 2 ^ 24 + mac % 2 ^ 24

/-- The seat's own address: the active board's, before the first board the link-local one (R320, R344). -/
def seatIp (s : State) (seat : Nat) : Nat :=
  match s.fab.active with
  | some b => b.seatIps.getD seat 0
  | none => linkLocal (seatMac seat)

/-- An address of the form ::ffff:a.b.c.d (R341). -/
def isV4 (ip : Nat) : Bool := decide (ip / 2 ^ 32 = 0xFFFF)

/-- ff02::1. -/
def allNodes : Nat := 0xFF02 * 2 ^ 112 + 1

/-- The transport version of a seat: 0 none, 1 is 1.0, 2 is 1.1; a SWITCH seat negotiates nothing and runs 1.0 (DEDUCED, log 19). -/
def seatVersion (s : State) (seat : Nat) : Nat := let x := getSeat s seat; if x.partnerKind then 1 else x.version

/-- A negotiated feature of a seat (R325). -/
def seatFeature (s : State) (seat bit : Nat) : Bool := let x := getSeat s seat; !x.partnerKind && bitN x.features bit

def isUp (s : State) (seat : Nat) : Bool := decide ((getSeat s seat).state = seatUp)

/-- Payload bytes of a full frame (R329). -/
def mtu (s : State) (seat : Nat) : Nat := if seatFeature s seat 0 then 8192 else 1024

/-- The rate of a seat in bit/s (R315). -/
def seatRate (s : State) (seat : Nat) : Nat :=
  match (getSeat s seat).mode with | 0 => 400000000000 | 1 => 800000000000 | _ => 1600000000000

/-! ### Building frames (R318, R320, R327, R349) -/

/-- The pseudo header and UDP length of a checksum. -/
def pseudo (v4 : Bool) (src dst len : Nat) : List Byte :=
  if v4 then beBytes 4 src ++ beBytes 4 dst ++ beBytes 2 17 ++ beBytes 2 len
  else beBytes 16 src ++ beBytes 16 dst ++ beBytes 4 len ++ beBytes 4 17

/-- A UDP datagram with its checksum, never sent as zero. -/
def udpBytes (v4 : Bool) (src dst sport dport : Nat) (body : List Byte) : List Byte :=
  let len := body.length + 8
  let sum := inetSum (pseudo v4 src dst len ++ beBytes 2 sport ++ beBytes 2 dport ++ beBytes 2 len ++ beBytes 2 0 ++ body)
  beBytes 2 sport ++ beBytes 2 dport ++ beBytes 2 len ++ beBytes 2 (if sum = 0 then 65535 else sum) ++ body

/-- An Ethernet frame up to its last payload byte: MACs, a C-tag where the seat tags, IP with hop limit 64, UDP (R318, R320). Where the seat's own
address is of the other IP version than the destination's, the source is the seat's link-local address (DESIGN CHOICE, log 93). -/
def buildFrame (s : State) (seat mac ip pcp tos sport : Nat) (h : THdr) (payload : List Byte) : List Byte :=
  let v4 := isV4 ip
  let own := seatIp s seat
  let src := if isV4 own == v4 then own else linkLocal (seatMac seat)
  let eth := beBytes 6 mac ++ beBytes 6 (seatMac seat)
  let vid := ((s.fab.active.map Board.seatVids).getD []).getD seat 0
  let tag := if (getSeat s seat).vlanEn then beBytes 2 0x8100 ++ beBytes 2 (pcp * 8192 + vid) else []
  let udp := udpBytes v4 src ip sport s.net.port (headerBytes { h with plen := payload.length } ++ payload)
  if v4 then
    let h0 := beBytes 1 0x45 ++ beBytes 1 tos ++ beBytes 2 (20 + udp.length) ++ beBytes 2 0 ++ beBytes 2 0x4000 ++ beBytes 1 64 ++ beBytes 1 17
    let ads := beBytes 4 src ++ beBytes 4 ip
    eth ++ tag ++ beBytes 2 0x0800 ++ h0 ++ beBytes 2 (inetSum (h0 ++ ads)) ++ ads ++ udp
  else
    eth ++ tag ++ beBytes 2 0x86DD ++ beBytes 4 (0x60000000 + tos * 2 ^ 20) ++ beBytes 2 udp.length ++ beBytes 1 17 ++ beBytes 1 64 ++
      beBytes 16 src ++ beBytes 16 ip ++ udp

/-- Writes the transmission time into an originated frame and renews its checksum (R327 TSVAL). -/
def stampFrame (now : Nat) (bs : List Byte) : List Byte :=
  let o := ipOffset bs
  let v4 := decide ((bs.getD o 0).toNat / 16 = 4)
  let u := o + (if v4 then 20 else 40)
  let body := patch (bs.drop (u + 8)) 0x28 (beBytes 4 (now % 2 ^ 32))
  let src := if v4 then beAt bs (o + 12) 4 else beAt bs (o + 8) 16
  let dst := if v4 then beAt bs (o + 16) 4 else beAt bs (o + 24) 16
  bs.take u ++ udpBytes v4 src dst (beAt bs u 2) (beAt bs (u + 2) 2) body

/-- An originated frame of a class, queued on a seat (R348 to R350, R356). -/
def originate (s : State) (seat mac ip c q : Nat) (h : THdr) (payload : List Byte) : State :=
  let cc := getCC s seat c
  let sport := Config.udpPortHash h.src h.dst c % 65536
  queueFrame s seat c q (buildFrame s seat mac ip cc.pcp (cc.dscp * 4 + 2) sport h payload)

/-- VER of the frames a seat sends. -/
def seatVer (s : State) (seat : Nat) : Nat := if seatVersion s seat = 2 then 0x11 else 0x10

/-! ### Routes (R320, R339) -/

/-- A next hop: seat, MAC, IP. -/
structure Hop where
  seat : Nat
  mac : Nat
  ip : Nat
  deriving DecidableEq, Repr

/-- The forwarding entry whose range holds a node ID (R339). -/
def fwdEntry (b : Board) (dst : Nat) : Option FwdEntry := b.fwd.find? (fun e => decide (e.low ≤ dst ∧ dst ≤ e.high))

/-- The next hop on a seat: a DIRECT seat's partner from its HELLO, else the board's addresses (R320). -/
def hopOn (s : State) (seat mac ip : Nat) : Hop :=
  let x := getSeat s seat
  if x.partnerKind then ⟨seat, mac, ip⟩ else ⟨seat, x.partnerMac, x.partnerIp⟩

/-- PRIMARY if UP, otherwise ALTERNATE if UP (R339). -/
def entryHop (s : State) (e : FwdEntry) : Option Hop :=
  if e.primary < 6 && isUp s e.primary then some (hopOn s e.primary e.primMac e.primIp)
  else if e.alternate < 6 && isUp s e.alternate then some (hopOn s e.alternate e.altMac e.altIp)
  else none

/-- The key of a peer's state: its node ID, and for a link-local peer the seat it is on (R338, R366). -/
def peerKey (node seat : Nat) : Nat := if node = 0xFFFF then 0x10000 + seat else node
/-- The node ID of a peer key. -/
def keyNode (k : Nat) : Nat := if k < 0x10000 then k else 0xFFFF

/-- The owning host: NODE_ID and UNIT_ID of the partner of the active host seat where that seat is DIRECT and UP and its partner
announced ROLE 8 (R366). -/
def owningHost (s : State) : Option (Nat × W64) :=
  let x := getSeat s s.net.hostActive
  if !x.partnerKind && decide (x.state = seatUp ∧ x.role = roleHost) then some (x.nodeId, x.unitId) else none

/-- The next hop to a peer: the active board's table; without an entry, the seat whose partner announced that ID; for a link-local
peer its seat; else the partner of the DIRECT seat that the peer's frames came by, since only the board gives next hops behind a SWITCH seat. An
unplaced node answers where the latest frame came from (R320, R339, R366, R374). -/
def routeTo (s : State) (key : Nat) : Option Hop :=
  let direct := (List.range 6).find? (fun i =>
    isUp s i && !(getSeat s i).partnerKind && decide ((getSeat s i).nodeId = keyNode key) &&
      (decide (key < 0x10000) || decide (key = 0x10000 + i)))
  let heard := (Tab.find s.net.peers key).map (fun p => if isUp s p.seat then some ⟨p.seat, p.mac, p.ip⟩ else none)
  match s.fab.active with
  | none => heard.getD (direct.map (fun i => hopOn s i 0 0))
  | some b =>
    let byEntry := if key < 0x10000 then (fwdEntry b key).map (entryHop s) else none
    let along := (heard.getD none).filter (fun h => !(getSeat s h.seat).partnerKind)
    byEntry.getD ((direct.map (fun i => some (hopOn s i 0 0))).getD (along.map (fun h => hopOn s h.seat 0 0)))

/-- The next hop of a message: events and SPDM answers leave for the owning host on the host seat and not otherwise, but for the proposals that the
fabric manager gets as well (R179, R322, R366). -/
def routeMsg (s : State) (key type : Nat) : Option Hop :=
  if type ≠ 4 ∧ type ≠ 8 then routeTo s key
  else if (owningHost s).map (fun h => peerKey h.1 s.net.hostActive) = some key then some (hopOn s s.net.hostActive 0 0)
  else if type = 4 ∧ s.fab.active.map (fun b => peerKey b.fmId s.net.hostActive) = some key then routeTo s key
  else none

/-- The seat that leads to a peer (R337). -/
def leadSeat (s : State) (key seat : Nat) : Nat := ((routeTo s key).map Hop.seat).getD seat

/-- The seat on which a node's latest frame came; the host seat for a node that has sent none (R374). -/
def seatOf (s : State) (node : Nat) : Nat := ((Tab.find s.net.peers (peerKey node s.net.hostActive)).map Peer.seat).getD s.net.hostActive

/-- Position in SEAT_STAT of the drop counter of check `n` of R319. -/
def chk (n : Nat) : Nat := 3 + n

/-- An unplaced node drops a message that comes to it, and one under a control reset; each is counted at its seat (R368, R433). -/
def whilePlaced (s : State) (node : Nat) (f : State → State) : State :=
  if !running s then s
  else if !hears s then bump s (.seatStat (seatOf s node) (chk 6))
  else if effRole s = roleUnplaced then bump s (.seatStat (seatOf s node) 12)
  else f s

/-! ### Receive checks (R319) -/

/-- A frame that passed R319. -/
structure Rx where
  seat : Nat
  tci : Option Nat
  tos : Nat
  srcMac : Nat
  srcIp : Nat
  sport : Nat
  hdr : THdr
  payload : List Byte
  len : Nat
  deriving DecidableEq, Repr

/-- A MAC control frame with a PFC opcode (R318). -/
def isPfc (bs : List Byte) : Bool := decide (beAt bs 12 2 = 0x8808 ∧ beAt bs 14 2 = 0x0101)

/-- The checks of R319 in order: the frame read, or the position in SEAT_STAT of what drops it. DISCOVERY frames come to ff02::1 as
hellos do (R372). IPv4 options count under DROP_UNSUPPORTED, since no check names them (R318). -/
def checkFrame (s : State) (seat : Nat) (f : Frame) : Except Nat Rx :=
  let bs := f.bytes
  let len := frameLen bs
  if !f.fcsOk || !f.fecOk then .error (chk 1)
  else if len < 64 ∨ 9216 < len then .error (chk 2)
  else
    let tagged := decide (beAt bs 12 2 = 0x8100)
    let o := if tagged then 18 else 14
    let et := beAt bs (o - 2) 2
    if et ≠ 0x0800 ∧ et ≠ 0x86DD then .error (chk 3)
    else
      let v4 := decide (et = 0x0800)
      let b0 := beAt bs o 1
      if (if v4 then 4 else 6) ≠ b0 / 16 then .error (chk 4)
      else if v4 && decide (b0 % 16 ≠ 5) then .error 12
      else if v4 && decide (onesSum (slice bs o 20) ≠ 65535) then .error (chk 4)
      else if v4 && decide (beAt bs (o + 6) 2 % 0x4000 ≠ 0) then .error (chk 4)
      else if !v4 && decide (beAt bs (o + 6) 1 ≠ 17) then .error (chk 4)
      else
        let dst := if v4 then 0xFFFF * 2 ^ 32 + beAt bs (o + 16) 4 else beAt bs (o + 24) 16
        let src := if v4 then 0xFFFF * 2 ^ 32 + beAt bs (o + 12) 4 else beAt bs (o + 8) 16
        let u := o + (if v4 then 20 else 40)
        let body := bs.drop (u + 8)
        let h := headerOf body
        if dst ≠ seatIp s seat ∧ ¬(dst = allNodes ∧ (h.type = ftHello ∨ h.type = ftDiscovery)) then .error (chk 4)
        else if v4 && decide (beAt bs (o + 9) 1 ≠ 17) then .error (chk 5)
        else
          let ulen := beAt bs (u + 4) 2
          let dgram := slice bs u ulen
          let sum := beAt bs (u + 6) 2
          let good := sum = 0 ∨ onesSum (pseudo v4 (if v4 then src % 2 ^ 32 else src) (if v4 then dst % 2 ^ 32 else dst) ulen ++ dgram) = 65535
          if beAt bs (u + 2) 2 ≠ s.net.port ∨ ¬good ∨ ulen < 56 ∨ dgram.length ≠ ulen ∨ h.plen ≠ ulen - 56 then .error (chk 5)
          else
            let v := seatVersion s seat
            let any := h.type = ftHello ∨ h.type = ftDiscovery
            if ¬((h.ver = 0x10 ∧ (any ∨ 1 ≤ v)) ∨ (h.ver = 0x11 ∧ (any ∨ v = 2))) then .error (chk 6)
            else if headerReserved body then .error 10
            else
              let tos := if v4 then beAt bs (o + 1) 1 else beAt bs o 2 / 16 % 256
              .ok ⟨seat, if tagged then some (beAt bs 14 2) else none, tos, beAt bs 6 6, src, beAt bs u 2, h, (slice body 48 h.plen), len⟩

/-- The class of a received frame's ingress priority (R321, R349). -/
def ingressPrio (s : State) (rx : Rx) : Nat :=
  match rx.tci with
  | some t => t / 8192
  | none => classPrio s rx.seat (classify347 s rx.seat none (rx.tos / 4) rx.hdr.colour).1

/-- A PFC frame for a priority: XOFF at the longest quanta, XON at zero (R321). -/
def pfcBytes (seat prio : Nat) (off : Bool) : List Byte :=
  fitBytes 60 (beBytes 6 0x0180C2000001 ++ beBytes 6 (seatMac seat) ++ beBytes 2 0x8808 ++ beBytes 2 0x0101 ++ beBytes 2 (2 ^ prio) ++
    ((List.range 8).map (fun i => beBytes 2 (if i = prio ∧ off then 0xFFFF else 0))).flatten)

/-- PFC is enabled for a priority of a seat (R318). -/
def pfcEnabled (x : Seat) (prio : Nat) : Bool := (x.pfcAEn && x.pfcPrioA == prio) || (x.pfcBEn && x.pfcPrioB == prio)

/-- Sends a PFC frame, which takes no queue, and counts it (R321). -/
def sendPfc (s : State) (seat prio : Nat) (off : Bool) : State :=
  let s1 := updSeat s seat (fun x => { x with pfcTx := satAdd 16 x.pfcTx 1, lastTx := s.time,
                                               xoffSent := if off then prio :: x.xoffSent else x.xoffSent.filter (· ≠ prio) })
  let s2 := addCtr (bump s1 (.seatStat seat 2)) (.seatStat seat 3) 64
  { s2 with net := { s2.net with wire := s2.net.wire ++ [⟨seat, pfcBytes seat prio off, true⟩] } }

/-! ### Peers (R330, R335) -/

/-- Comparison modulo 2^32 (R330). -/
def earlier (a b : Nat) : Bool := let d := (b + 2 ^ 32 - a) % 2 ^ 32; decide (1 ≤ d ∧ d < 2 ^ 31)
def notLater (a b : Nat) : Bool := a == b || earlier a b

/-- The latest TSVAL that a DIRECT seat's partner has sent, where a peer is that partner (R327). -/
def partnerTs (s : State) (k seat : Nat) : Nat :=
  let x := getSeat s seat
  if !x.partnerKind ∧ k = peerKey x.nodeId seat then x.tsRecent else 0

/-- A fresh peer: a random SEQ, RTO 100 µs, the rate of the seat that leads to it (R330, R332, R337). -/
def newPeer (s : State) (k : Nat) (hop : Hop) : Peer × State :=
  let d := draw s
  ({ nextSeq := d.1.toNat % 2 ^ 32, synSent := false, inflight := [], out := [], nextMsg := 0, window := none, srtt := none,
     rttvar := 0, rto := 100000, rate := seatRate s (leadSeat s k hop.seat), rateAt := s.time, rateCutAt := none, lastAck := s.time, recvNext := none,
     recvSyn := none, recvAbove := [], unacked := 0, oldestUnacked := none, ackNowAt := none, recvBytes := 0, eceBytes := 0,
     tsRecent := partnerTs s k hop.seat, reasm := [],
     lastUse := s.time, seat := hop.seat, mac := hop.mac, ip := hop.ip }, d.2)

def getPeer (s : State) (k : Nat) : Option Peer := Tab.find s.net.peers k
def putPeer (s : State) (k : Nat) (p : Peer) : State := { s with net := { s.net with peers := Tab.put s.net.peers k p } }
def delPeer (s : State) (k : Nat) : State := { s with net := { s.net with peers := Tab.del s.net.peers k } }

/-- Peer state for `k`, created where there is none; the peer longest without traffic gives way if it has nothing outstanding, and
none where every peer has something outstanding (R335). -/
def ensurePeer (s : State) (k : Nat) (hop : Hop) : Option State :=
  match getPeer s k with
  | some _ => some s
  | none =>
    let add := fun (s : State) => let p := newPeer s k hop; putPeer p.2 k p.1
    if s.net.peers.length < 4096 then some (add s)
    else
      let idle := s.net.peers.filter (fun p => decide (p.2.inflight = [] ∧ p.2.out = []))
      match (sortBy (fun a b => decide (a.2.lastUse ≤ b.2.lastUse)) idle).head? with
      | some v => some (add (bump (delPeer s v.1) (.transport 5)))
      | none => none

/-- The bytes a die's incomplete messages take of its 256 MiB (R335). -/
def reasmUsed (s : State) (die : Nat) : Nat :=
  sumBy (fun p => sumBy (fun m => if m.die = die then m.len else 0) p.2.reasm) s.net.peers

def reasmFree (s : State) (die : Nat) : Nat := 256 * 1048576 - reasmUsed s die

/-! ### Sending messages (R328, R329, R332) -/

def inflightBytes (p : Peer) : Nat := sumBy SentFrame.len p.inflight

/-- The tenant queue or the common queue of a message (R350). -/
def msgQueue (type tenant : Nat) : Nat := if type = 2 ∨ type = 3 ∨ type = 6 then tenant else commonQ

/-- The header of a fragment as first sent or sent again. -/
def fragHdr (s : State) (k : Nat) (p : Peer) (m : OutMsg) (seat seq off len : Nat) (retx syn : Bool) : THdr :=
  { ver := seatVer s seat, type := ftData,
    flags := mkFlags (off == 0) (off + len == m.bytes.length) (off + len == m.bytes.length) retx
      (p.recvNext.isSome && decide (0 < p.unacked)) syn 0,
    src := ownId s, dst := keyNode k, boardVer := boardVer s, hops := 255, msgType := m.type, tenant := m.tenant, seq := seq,
    ack := (p.recvNext.getD 1 + 2 ^ 32 - 1) % 2 ^ 32, msgId := m.id, msgLen := m.bytes.length, fragOff := off, plen := len,
    tsecr := p.tsRecent }

/-- The peer after it has sent a frame that acknowledges. -/
def ackedNow (p : Peer) : Peer := { p with unacked := 0, oldestUnacked := none, ackNowAt := none }

/-- Hands the frames of one message to its queue while the window, the queue and the buffer have room; `fuel` bounds the frames
(R329, R332, R356). -/
def pumpMsg (fuel : Nat) (s : State) (k mid : Nat) : State :=
  match fuel with
  | 0 => s
  | n + 1 =>
    match (getPeer s k).bind (fun p => (p.out.find? (fun m => decide (m.id = mid))).bind (fun m => (routeMsg s k m.type).map (fun h => (p, m, h)))) with
    | none => s
    | some (p, m, hop) =>
        let len := Nat.min (mtu s hop.seat) (m.bytes.length - m.sent)
        let q := msgQueue m.type m.tenant
        let window := p.window.getD Config.firstWindow
        let syn := !p.synSent
        let h := fragHdr s k p m hop.seat p.nextSeq m.sent len false syn
        let size := frameLen (buildFrame s hop.seat hop.mac hop.ip 0 0 0 h (slice m.bytes m.sent len))
        if len = 0 ∨ m.abandoned ∨ window < inflightBytes p + len ∨ !hasRoom s (hop.seat, m.cls, q) size then s
        else
          let sent : SentFrame := ⟨p.nextSeq, mid, m.sent, len, s.time, none, false, syn⟩
          let p1 := { (ackedNow p) with nextSeq := (p.nextSeq + 1) % 2 ^ 32, synSent := true, inflight := p.inflight ++ [sent],
                                        lastAck := if p.inflight = [] then s.time else p.lastAck, lastUse := s.time,
                                        out := p.out.map (fun x => if x.id = mid then { x with sent := m.sent + len } else x) }
          let s1 := originate (putPeer s k p1) hop.seat hop.mac hop.ip m.cls q h (slice m.bytes m.sent len)
          pumpMsg n s1 k mid

/-- Hands on whatever a peer's messages may send now. -/
def pump (s : State) (k : Nat) : State :=
  match getPeer s k with
  | none => s
  | some p => p.out.foldl (fun s m => pumpMsg (m.bytes.length / 1024 + 2) s k m.id) s

/-- Hands on whatever every peer may send now. -/
def pumpAll (s : State) : State := s.net.peers.keys.foldl pump s

/-- The place of a tier request of which nothing has been handed on in the order of R173: demand, prefetch, copies. -/
def tierRank (s : State) (m : OutMsg) : Option Nat :=
  if m.type ≠ 6 ∨ m.sent ≠ 0 then none
  else match leAt m.bytes 0 1 with
    | 1 => some 2
    | 3 => (s.mem.fetches.find? (fun f => f.2.req == leAt m.bytes 24 8)).map (fun f => match f.2.prio with | .demand => 0 | .prefetch => 1 | .copy => 2)
    | _ => none

/-- The tier requests among a peer's messages in the order of R173; every other message keeps its place. -/
def orderTier (s : State) (l : List OutMsg) : List OutMsg :=
  let rank := fun (m : OutMsg) => (tierRank s m).getD 0
  let ms := sortBy (fun a b => decide (rank a ≤ rank b)) (l.filter (fun m => (tierRank s m).isSome))
  (l.foldl (fun (acc : List OutMsg × List OutMsg) m =>
    if (tierRank s m).isSome then (acc.1 ++ acc.2.take 1, acc.2.drop 1) else (acc.1 ++ [m], acc.2)) (([], ms) : List OutMsg × List OutMsg)).1

/-- Gives the transport a message for a peer (R173, R328, R329). -/
def sendTo (s : State) (k type tenant cls : Nat) (bytes : List Byte) : State :=
  let hop := (routeMsg s k type).getD ⟨if k < 0x10000 then s.net.hostActive else k - 0x10000, 0, 0⟩
  match ensurePeer s k hop with
  | none => bump s (.transport 6)
  | some s1 =>
    match getPeer s1 k with
    | none => s1
    | some p =>
      let m : OutMsg := ⟨p.nextMsg, type, tenant, cls, bytes, 0, false⟩
      pump (putPeer s1 k { p with nextMsg := (p.nextMsg + 1) % 2 ^ 32, out := orderTier s1 (p.out ++ [m]) }) k

/-- A message for a node ID. -/
def sendMsg (s : State) (node type tenant cls : Nat) (bytes : List Byte) : State := sendTo s (peerKey node s.net.hostActive) type tenant cls bytes

/-! ### Event frames (R346, R366, R371, R389, R441) -/

/-- The envelope of R346 and the payload. -/
def eventBytes (e : Event) : List Byte :=
  recordBytes [(16, e.code), (16, e.payload.length), (32, e.seq), (64, e.at')] ++ e.payload

/-- An event is lost: counted, and EVENTS_LOST set (R441). -/
def loseEvent (s : State) (code : Nat) : State := setAlert (bump (bump s (.evtCode code 1)) (.evtAll 1)) alEventsLost

/-- The owning host that events go to: an unplaced node originates no event frame (R371, log 51). -/
def hostLink (s : State) : Option (Nat × W64) := if placed s then owningHost s else none

/-- Sends one event to the owning host, within 10,000 in a second (R441). -/
def sendEvent (s : State) (e : Event) : State :=
  match hostLink s with
  | none => s
  | some (node, _) =>
    let sec := s.time / 1000000000
    let n := if s.ev.second = sec then s.ev.sentInSecond else 0
    if 10000 ≤ n then loseEvent s e.code
    else
      let s1 := { s with ev := { s.ev with second := sec, sentInSecond := n + 1 } }
      sendTo (bump (bump s1 (.evtCode e.code 0)) (.evtAll 0)) (peerKey node s.net.hostActive) 4 0 s.tr.origEvent (eventBytes e)

/-- Raises an event: it takes the next number; it is sent, or waits in the queue of 256, or is lost (R366, R441). -/
def raiseEvent (s : State) (code : Nat) (payload : List Byte) : State :=
  let e : Event := ⟨code, s.ev.nextSeq, s.time, payload⟩
  let s1 := { s with ev := { s.ev with nextSeq := (s.ev.nextSeq + 1) % 2 ^ 32 } }
  if (hostLink s).isSome then sendEvent s1 e
  else if s.ev.queue.length < 256 then { s1 with ev := { s1.ev with queue := s1.ev.queue ++ [e] } }
  else bump (loseEvent s1 code) (.fabric 2)

/-- A report of SCORE is due: none has gone out in the last 10 s (R389). -/
def healthDue (lastAt : Option Time) (now : Time) : Bool :=
  match lastAt with
  | some t => decide (t + 10000000000 ≤ now)
  | none => true

/-- HEALTH_CHANGED where SCORE has moved by 16 or more since the last report, at most once in 10 s (R389). -/
def healthReport (s : State) : State :=
  let h := s.health
  let score := scoreOf h.d
  let moved := decide (16 ≤ (score - h.lastScore) + (h.lastScore - score))
  let due := healthDue h.lastAt s.time
  if moved && due then
    let s1 := { s with health := { h with lastScore := score, lastAt := some s.time } }
    raiseEvent s1 evHealthChanged (commonPayload { aux0 := healthWord s1 })
  else s

/-- Adds an event's weight to the deficits, and reports a SCORE that has moved (R389). -/
def addHealth (s : State) (hard : Bool) (w : Nat) : State :=
  healthReport { s with health := { s.health with d := addNewest s.health.d w, dh := if hard then addNewest s.health.dh w else s.health.dh } }

/-! ### Frames that arrive (R316, R319, R321) -/

/-- A frame of `n` bytes enters the ingress buffer; XOFF where its priority's share reaches the threshold (R321). -/
def ingressIn (s : State) (seat prio n : Nat) : State :=
  let x := getSeat s seat
  let b := Tab.get x.ingress 0 prio + n
  let s1 := putSeat s seat { x with ingress := Tab.put x.ingress prio b }
  if pfcEnabled x prio && decide (x.xoff * 1024 ≤ b) && !x.xoffSent.contains prio then sendPfc s1 seat prio true else s1

/-- It leaves the buffer; XON where the share has fallen below the threshold (R321). -/
def ingressOut (s : State) (seat prio n : Nat) : State :=
  let x := getSeat s seat
  let b := Tab.get x.ingress 0 prio - n
  let s1 := putSeat s seat { x with ingress := if b = 0 then Tab.del x.ingress prio else Tab.put x.ingress prio b }
  if x.xoffSent.contains prio && decide (b < x.xon * 1024) then sendPfc s1 seat prio false else s1

/-- What has left the buffer since the last frame came: of each priority's share a free number of bytes (R321, log 73). -/
def ingressDrain (s : State) (seat : Nat) : State :=
  (getSeat s seat).ingress.foldl (fun s p => let r := drawPick s (p.2 + 1); ingressOut r.2 seat p.1 r.1) s

/-- The ingress buffer of a seat has no room for `n` bytes (R321). -/
def ingressFull (s : State) (seat n : Nat) : Bool := decide (2097152 < sumBy Prod.snd (getSeat s seat).ingress + n)

/-- A frame arrives at a seat: counted, its codewords counted, an uncorrectable one weighed against health, the seat's silence broken by a good one
(R316, R326, R389, R462, log 53). -/
def arrive (s : State) (seat : Nat) (f : Frame) : State :=
  let s1 := addCtr (bump s (.seatStat seat 0)) (.seatStat seat 1) (frameLen f.bytes)
  let s2 := addCtr s1 (.seatFec seat 0) f.fecCorrected
  let s3 := if f.fecOk then s2 else addHealth (addCtr s2 (.seatFec seat 1) f.fecUncorr) false f.fecUncorr
  if f.fcsOk && f.fecOk then updSeat s3 seat (fun x => { x with lastRx := s.time }) else s3

/-- The seat takes frames: its link is trained (R323). -/
def linkUp (s : State) (seat : Nat) : Bool := running s && decide (seatHello ≤ (getSeat s seat).state)

/-- Receives a frame: one for which the ingress buffer is full is dropped (R321); then by R319; in HELLO only HELLO and DISCOVERY pass, others
fail check 6 (R323). -/
def receive (s : State) (seat : Nat) (f : Frame) : State × Option Rx :=
  if !linkUp s seat then (s, none)
  else
    let s1 := ingressDrain (arrive s seat f) seat
    if ingressFull s1 seat (frameLen f.bytes) then (bump s1 (.seatStat seat 11), none)
    else match checkFrame s1 seat f with
    | .error n => (bump s1 (.seatStat seat n), none)
    | .ok rx =>
      if (getSeat s seat).state = seatHello ∧ rx.hdr.type ≠ ftHello ∧ rx.hdr.type ≠ ftDiscovery then
        (bump s1 (.seatStat seat (chk 6)), none)
      else
        (ingressIn s1 seat (ingressPrio s1 rx) rx.len, some rx)

/-! ### Acknowledgement (R331) -/

/-- Ranges of consecutive numbers above ACK, nearest first. -/
def sackRanges (base : Nat) (above : List Nat) : List (Nat × Nat) :=
  let ds := sortBy (· ≤ ·) (above.map (fun a => (a + 2 ^ 32 - base) % 2 ^ 32))
  let rs := ds.foldl (fun (acc : List (Nat × Nat)) d =>
    match acc with
    | (a, b) :: r => if d = b + 1 then (a, d) :: r else if d = b then acc else (d, d) :: acc
    | [] => [(d, d)]) []
  rs.reverse.map (fun r => ((base + r.1) % 2 ^ 32, (base + r.2) % 2 ^ 32))

/-- An ACK frame's payload (R331). -/
def ackPayload (window recv ece : Nat) (reset : Bool) (sacks : List (Nat × Nat)) : List Byte :=
  recordBytes [(32, window), (32, recv), (32, ece), (4, sacks.length), (1, b2n reset), (27, 0)] ++
    (sacks.map (fun r => leBytes 4 r.1 ++ leBytes 4 r.2)).flatten

/-- An ACK frame on a hop (R331, R348). -/
def originateAck (s : State) (hop : Hop) (k ack : Nat) (valid : Bool) (tsecr : Nat) (payload : List Byte) : State :=
  originate s hop.seat hop.mac hop.ip 7 commonQ
    { ver := seatVer s hop.seat, type := ftAck, flags := mkFlags false false false false valid false 0, src := ownId s, dst := keyNode k,
      boardVer := boardVer s, ack := ack, tsecr := tsecr } payload

/-- Sends the ACK a peer is owed: WINDOW, the bytes since the previous ACK, SACK ranges (R331). -/
def sendAck (s : State) (k : Nat) : State :=
  match getPeer s k with
  | none => s
  | some p =>
    match p.recvNext, routeTo s k with
    | some n, some hop =>
      let most := if seatFeature s hop.seat 2 then 8 else 4
      let ack := (n + 2 ^ 32 - 1) % 2 ^ 32
      let win := Config.windowShare k (reasmFree s (seatDie p.seat)) % 2 ^ 32
      let pl := ackPayload win p.recvBytes p.eceBytes false ((sackRanges ack p.recvAbove).take most)
      originateAck (putPeer s k { (ackedNow p) with recvBytes := 0, eceBytes := 0 }) hop k ack true p.tsRecent pl
    | _, _ => s

/-! ### Receiving DATA (R330, R334, R335) -/

/-- Advances the cumulative number over those received above it. -/
def advance (fuel n : Nat) (above : List Nat) : Nat × List Nat :=
  match fuel with
  | 0 => (n, above)
  | f + 1 => if above.contains n then advance f ((n + 1) % 2 ^ 32) (above.filter (· ≠ n)) else (n, above)

/-- The largest length of a message type (R328); none for a reserved type. -/
def msgLimit (type : Nat) : Option Nat :=
  match type with
  | 1 => some 16843136 | 2 => some 32 | 3 => some (2 ^ 31) | 4 => some 65536 | 5 => some 8208 | 6 => some (2 ^ 31) | 7 => some 65536
  | 8 => some 65536 | _ => none

/-- A message delivered whole: seat and die it came by, sender, type, TENANT, bytes. -/
structure Delivered where
  seat : Nat
  key : Nat
  type : Nat
  tenant : Nat
  bytes : List Byte
  deriving DecidableEq, Repr

/-- The bytes of a message whose fragments are all there. -/
def assemble (m : InMsg) : Option (List Byte) :=
  if sumBy (fun f => f.2.length) m.frags < m.len then none
  else some (fitBytes m.len ((sortBy (fun a b => decide (a.1 ≤ b.1)) m.frags).map Prod.snd).flatten)

/-- A fragment joins its message; a message that is whole is delivered, one of a reserved type discarded and counted (R328, R334). -/
def reassemble (s : State) (k : Nat) (p : Peer) (rx : Rx) : State × Option Delivered :=
  let h := rx.hdr
  let tooLong := match msgLimit h.msgType with | some l => decide (l < h.msgLen) | none => false
  if tooLong then ((if h.lastF then bump (putPeer s k p) (.transport 9) else putPeer s k p), none)
  else
    let m0 := (p.reasm.find? (fun m => decide (m.id = h.msgId))).getD ⟨h.msgId, h.msgType, h.tenant, h.msgLen, seatDie rx.seat, rx.seat, []⟩
    let m := { m0 with frags := if m0.frags.any (fun f => f.1 == h.fragOff) then m0.frags else m0.frags ++ [(h.fragOff, rx.payload)] }
    let others := p.reasm.filter (fun x => decide (x.id ≠ h.msgId))
    match assemble m with
    | none => (putPeer s k { p with reasm := others ++ [m] }, none)
    | some bytes =>
      let s1 := putPeer s k { p with reasm := others }
      match msgLimit m.type with
      | none => (bump s1 (.transport 8), none)
      | some _ => (s1, some ⟨m.seat, k, m.type, m.tenant, bytes⟩)

/-- The peer as a DATA frame finds it: when and where its traffic last came from, the time to echo. -/
def seenFrom (p : Peer) (rx : Rx) (now : Time) : Peer :=
  { p with lastUse := now, tsRecent := rx.hdr.tsval, seat := rx.seat, mac := rx.srcMac, ip := rx.srcIp }

/-- The frame's originator is the partner of its seat (R324, R326, R327). -/
def fromPartner (s : State) (rx : Rx) : Bool :=
  let x := getSeat s rx.seat
  !x.partnerKind && decide (rx.hdr.type = ftHello ∨ rx.hdr.type = ftKeepalive ∨ (rx.hdr.type ≠ ftDiscovery ∧ rx.hdr.src = x.nodeId))

/-- A frame of a peer, of whatever type, has come: it is reachable again, and what the frame tells is kept (R327, R333, R374). -/
def noteSeen (s : State) (rx : Rx) : State :=
  let k := peerKey rx.hdr.src rx.seat
  let s0 := { s with net := { s.net with unreachable := s.net.unreachable.filter (· != k) } }
  let s1 := if fromPartner s rx then updSeat s0 rx.seat (fun x => { x with tsRecent := rx.hdr.tsval }) else s0
  match getPeer s1 k with
  | some p => putPeer s1 k (seenFrom p rx s.time)
  | none => s1

/-- A SYN opens a new sequence space, unless it is the retransmission of the one that opened the present space (R330). -/
def openSpace (p : Peer) (h : THdr) : Peer :=
  if h.syn && !(h.retx && p.recvSyn == some h.seq) then { p with recvNext := some h.seq, recvSyn := some h.seq, recvAbove := [], reasm := [] } else p

/-- The peer after a DATA frame has been received, `dup` where it had been received before: the bytes counted, the sequence advanced, the
acknowledgement owed (R330, R331). -/
def countData (p : Peer) (rx : Rx) (ce dup : Bool) (n : Nat) (now : Time) : Peer :=
  let h := rx.hdr
  let a := if dup then (n, p.recvAbove) else advance (p.recvAbove.length + 2) n (h.seq :: p.recvAbove)
  { p with recvBytes := p.recvBytes + rx.payload.length, eceBytes := p.eceBytes + (if ce then rx.payload.length else 0),
           recvNext := some a.1, recvAbove := a.2, unacked := p.unacked + 1, oldestUnacked := some (p.oldestUnacked.getD now),
           ackNowAt := if h.ackNow then some (p.ackNowAt.getD (now + 2000)) else p.ackNowAt }

/-- A new message for which its die has no room (R335). -/
def noRoomFor (s : State) (p : Peer) (rx : Rx) : Bool :=
  let h := rx.hdr
  !(p.reasm.any (fun m => m.id == h.msgId)) && (match msgLimit h.msgType with | some l => decide (h.msgLen ≤ l) | none => true) &&
    decide (reasmFree s (seatDie rx.seat) < h.msgLen)

/-- Keeps the peer of a DATA frame; a fragment that had not come before joins its message. -/
def storeData (s : State) (k : Nat) (p : Peer) (rx : Rx) (dup : Bool) : State × Option Delivered :=
  if dup then (putPeer s k p, none) else reassemble s k p rx

/-- Where an answer to a frame of a peer without state goes: a placed node asks the board, an unplaced one answers where the frame came from (R320,
R374). -/
def answerHop (s : State) (k : Nat) (rx : Rx) : Option Hop := if placed s then routeTo s k else some ⟨rx.seat, rx.srcMac, rx.srcIp⟩

/-- R330, R331, R334, R335: a DATA frame for this node. A SYN opens its space, and the old messages go, before its message asks for room. -/
def recvData (s : State) (rx : Rx) (ce : Bool) : State × Option Delivered :=
  let h := rx.hdr
  let k := peerKey h.src rx.seat
  let hop : Hop := ⟨rx.seat, rx.srcMac, rx.srcIp⟩
  let known := match getPeer s k with | some p => p.recvNext | none => none
  if known.isNone && !h.syn then
    let s1 := match answerHop s k rx with | some to' => originateAck s to' k 0 false h.tsval (ackPayload 0 0 0 true []) | none => s
    (bump s1 (.transport 2), none)
  else
    match ensurePeer s k hop with
    | none => (bump s (.transport 6), none)
    | some s1 =>
      match getPeer s1 k with
      | none => (s1, none)
      | some p0 =>
        let p2 := openSpace (seenFrom p0 rx s.time) h
        let n := p2.recvNext.getD h.seq
        let dup := earlier h.seq n || p2.recvAbove.contains h.seq
        if !dup && noRoomFor (putPeer s1 k p2) p2 rx then (bump (putPeer s1 k p2) (.transport 7), none)
        else
          let p4 := countData p2 rx ce dup n s.time
          let r := storeData s1 k p4 rx dup
          (if dup || decide (h.seq ≠ n) || decide (16 ≤ p4.unacked) then sendAck r.1 k else r.1, r.2)

/-! ### Receiving ACK (R332, R337) -/

/-- What an acknowledgement says (R331). -/
structure AckIn where
  valid : Bool
  ack : Nat
  tsecr : Nat
  full : Bool
  window : Nat
  recv : Nat
  ece : Nat
  reset : Bool
  sacks : List (Nat × Nat)
  deriving DecidableEq, Repr

/-- The acknowledgement of an ACK frame. -/
def ackOf (rx : Rx) : AckIn :=
  let b := rx.payload
  let w := leAt b 12 4
  ⟨rx.hdr.ackValid, rx.hdr.ack, rx.hdr.tsecr, true, leAt b 0 4, leAt b 4 4, leAt b 8 4, bitN w 4,
   (List.range (w % 16)).map (fun i => (leAt b (16 + 8 * i) 4, leAt b (20 + 8 * i) 4))⟩

/-- SRTT, RTTVAR and RTO after a sample (R332). -/
def rttSample (p : Peer) (rtt : Nat) : Peer :=
  let clampRto := fun (r : Nat) => Nat.min 10000000 (Nat.max 20000 r)
  match p.srtt with
  | none => { p with srtt := some rtt, rttvar := rtt / 2, rto := clampRto (rtt + 4 * (rtt / 2)) }
  | some sr =>
    let v := (3 * p.rttvar + (if sr < rtt then rtt - sr else sr - rtt)) / 4
    let sr' := (7 * sr + rtt) / 8
    { p with srtt := some sr', rttvar := v, rto := clampRto (sr' + 4 * v) }

/-- Keeps a rate between 0.1 % of its seat's and the seat's (R337). -/
def clampRate (full r : Nat) : Nat := Nat.min full (Nat.max (full / 1000) r)

/-- The rate R of a peer, with the seat that leads to it now (R337). -/
def rateOf (s : State) (k : Nat) (p : Peer) : Nat := clampRate (seatRate s (leadSeat s k p.seat)) p.rate

/-- Sends one frame again with RETX set and the present board version (R332, R339). -/
def retransmit (s : State) (k : Nat) (f : SentFrame) : State :=
  match (getPeer s k).bind (fun p => (p.out.find? (fun m => decide (m.id = f.msg))).bind (fun m => (routeMsg s k m.type).map (fun h => (p, m, h)))) with
  | none => s
  | some (p, m, hop) =>
      let h := fragHdr s k p m hop.seat f.seq f.off f.len true f.syn
      let p1 := { p with inflight := p.inflight.map (fun x => if x.seq = f.seq then { x with at' := s.time, retxAt := some s.time } else x),
                         lastUse := s.time }
      bump (originate (putPeer s k p1) hop.seat hop.mac hop.ip m.cls (msgQueue m.type m.tenant) h (slice m.bytes f.off f.len)) (.transport 0)

/-- The messages of a peer that are not wholly acknowledged, to be sent from their first byte in a new sequence space (R332). -/
def restartPeer (s : State) (k : Nat) : State :=
  match getPeer s k with
  | none => s
  | some p =>
    let np := newPeer s k ⟨p.seat, p.mac, p.ip⟩
    pump (putPeer np.2 k { np.1 with out := (p.out.filter (fun m => !m.abandoned)).map (fun m => { m with sent := 0 }), nextMsg := p.nextMsg }) k

/-- R332, R337: what an acknowledgement does. -/
def takeAck (s : State) (k : Nat) (a : AckIn) : State :=
  match getPeer s k with
  | none => s
  | some p =>
    if a.full && a.reset then restartPeer (bump s (.transport 3)) k
    else if !a.valid then s
    else
      let acked := p.inflight.filter (fun f => notLater f.seq a.ack)
      let left := p.inflight.filter (fun f => !notLater f.seq a.ack)
      let left := left.map (fun f => if a.sacks.any (fun r => notLater r.1 f.seq && notLater f.seq r.2) then { f with sacked := true } else f)
      let p1 := { p with inflight := left, window := if a.full then some a.window else p.window, lastUse := s.time,
                         lastAck := if acked ≠ [] then s.time else p.lastAck }
      let p2 := if acked ≠ [] ∧ a.tsecr ≠ 0 then rttSample p1 ((s.time % 2 ^ 32 + 2 ^ 32 - a.tsecr) % 2 ^ 32) else p1
      let p3 := { p2 with out := p2.out.filter (fun m => !((m.abandoned || decide (m.sent = m.bytes.length)) && !(left.any (fun f => f.msg == m.id)))) }
      let full := seatRate s (leadSeat s k p.seat)
      let mayCut : Bool := match p3.rateCutAt with | none => true | some t => decide (t + Nat.max (p3.srtt.getD 0) 10000 ≤ s.time)
      let p4 := if decide (0 < a.ece) && decide (0 < a.recv) && mayCut then
          { p3 with rate := clampRate full (rateOf s k p3 - rateOf s k p3 * a.ece / (2 * a.recv)), rateCutAt := some s.time, rateAt := s.time }
        else p3
      let s1 := putPeer s k p4
      let lost := left.filter (fun f => !f.sacked && left.any (fun g => g.sacked && earlier f.seq g.seq) &&
        (match f.retxAt with | none => true | some t => decide (t + p4.srtt.getD 0 ≤ s.time)))
      pump (lost.foldl (fun s f => retransmit s k f) s1) k

/-- The acknowledgement a DATA frame carries. -/
def piggyback (s : State) (rx : Rx) : State :=
  takeAck s (peerKey rx.hdr.src rx.seat) ⟨rx.hdr.ackValid, rx.hdr.ack, rx.hdr.tsecr, false, 0, 0, 0, false, []⟩

/-! ### Commands -/

def ackTimerEffect (k : Nat) (s : State) : State :=
  match getPeer s k with
  | none => s
  | some p =>
    if p.unacked = 0 then s
    else
      let due := match p.ackNowAt, p.oldestUnacked with
        | some a, some b => Nat.min a (b + 5000)
        | some a, none => a
        | none, some b => b + 5000
        | none, none => s.time
      sendAck (reach s due) k

/-- ACK_TIMER (R331): the ACK of a peer falls due. -/
def execAckTimer (peer : Nat) (s : State) : Host.Outcome State Fault Refusal := .next (ackTimerEffect peer s)

def rtoEffect (k : Nat) (s : State) : State :=
  match getPeer s k with
  | none => s
  | some p =>
    match p.inflight with
    | [] => s
    | f :: _ =>
      if !hears s then s
      else
      let s1 := reach s (f.at' + p.rto)
      let p1 := { p with rto := 2 * p.rto, rate := clampRate (seatRate s (leadSeat s k p.seat)) (rateOf s k p / 2), rateAt := s1.time }
      bump (retransmit (putPeer s1 k p1) k f) (.transport 1)

/-- RTO_EXPIRY (R332, R337): the oldest frame is sent again, RTO doubles, the rate halves; under a control reset nothing is sent again (R433). -/
def execRtoExpiry (peer : Nat) (s : State) : Host.Outcome State Fault Refusal := .next (rtoEffect peer s)

def rateIncreaseEffect (k : Nat) (s : State) : State :=
  match getPeer s k with
  | none => s
  | some p =>
    let s1 := reach s (p.rateAt + 50000)
    let full := seatRate s (leadSeat s k p.seat)
    putPeer s1 k { p with rate := clampRate full (rateOf s k p + full / 100), rateAt := s1.time }

/-- RATE_INCREASE (R337): 50 µs without a decrease. -/
def execRateIncrease (peer : Nat) (s : State) : Host.Outcome State Fault Refusal := .next (rateIncreaseEffect peer s)

def ackFrameEffect (seat : Nat) (f : Frame) (s : State) : State :=
  let r := receive s seat f
  match r.2 with
  | none => r.1
  | some rx =>
    if rx.hdr.type = ftAck ∧ (rx.hdr.dst = ownId s ∨ rx.hdr.dst = 0xFFFF) ∧ 16 ≤ rx.payload.length then
      if !hears s then bump r.1 (.seatStat seat (chk 6)) else takeAck (noteSeen r.1 rx) (peerKey rx.hdr.src seat) (ackOf rx)
    else r.1

/-- ACK_FRAME (R332). -/
def execAckFrame (seat : Nat) (frame : Frame) (s : State) : Host.Outcome State Fault Refusal := .next (ackFrameEffect seat frame s)

def egressEffect (seat : Nat) (s : State) : State :=
  if !linkUp s seat then s
  else
    let s1 := countHolds s seat
    match schedule s1 seat with
    | none => s1
    | some (c, q, s2) => pumpAll (drainBacklog (startFrame stampFrame s2 seat c q))

/-- EGRESS_FRAME_START (R353): the scheduler chooses a class and a queue, and its head frame starts. -/
def execEgressFrameStart (seat : Nat) (s : State) : Host.Outcome State Fault Refusal := .next (egressEffect seat s)

def pfcEffect (seat : Nat) (f : Frame) (s : State) : State :=
  if !linkUp s seat then s
  else
    let s1 := arrive s seat f
    let len := frameLen f.bytes
    if !f.fcsOk || !f.fecOk then bump s1 (.seatStat seat (chk 1))
    else if len < 64 ∨ 9216 < len then bump s1 (.seatStat seat (chk 2))
    else if !isPfc f.bytes then bump s1 (.seatStat seat (chk 3))
    else
      let s2 := updSeat (settlePause s1 seat) seat (fun x => { x with pfcRx := satAdd 16 x.pfcRx 1 })
      let vec := beAt f.bytes 16 2
      (List.range 8).foldl (fun s p =>
        if bitN vec p && pfcEnabled (getSeat s seat) p then
          updSeat s seat (fun x => { x with paused := if beAt f.bytes (18 + 2 * p) 2 ≠ 0 then Tab.put x.paused p (Tab.get x.paused s.time p)
                                                       else Tab.del x.paused p })
        else s) s2

/-- PFC_FRAME (R318, R321): quanta that are not zero pause the classes of an enabled priority until zero quanta resume them. -/
def execPfcFrame (seat : Nat) (frame : Frame) (s : State) : Host.Outcome State Fault Refusal := .next (pfcEffect seat frame s)

end Sys2Proof.Machine
end

