-- ==== Sys2Proof/Machine/Events.lean ====
section
/-! DEFINITION. The events that wait for an owning host, and a change of host (R366, R367). -/

namespace Sys2Proof.Machine
open Sys2Proof

/-- Sends the events that waited for an owning host, in order (R366). -/
def flushEvents (s : State) : State :=
  if (hostLink s).isSome then s.ev.queue.foldl sendEvent { s with ev := { s.ev with queue := [] } } else s

/-- An owning host may have appeared: a UNIT_ID other than the last one's makes a change of host (R367). -/
def hostAppears (s : State) : State :=
  match owningHost s with
  | none => s
  | some (node, unit) =>
    let s1 := { (flushEvents s) with net := { (flushEvents s).net with lastUnit := some unit } }
    match s.net.lastUnit with
    | some old =>
      if old = unit then s1
      else raiseEvent s1 evHostChanged (commonPayload { node := node, aux0 := unit.toNat, aux1 := old.toNat })
    | none => s1

/-- The events of 13 (R346). -/
def raiseSeatEvent (s : State) (code seat reason peer : Nat) : State :=
  raiseEvent s code (seatPayload seat reason peer (boardVer s))

end Sys2Proof.Machine
end

