-- ==== Sys2Proof/Machine/Store.lean ====
section
/-! DEFINITION. Objects in the stacks: their sizes, which granules they take, free granules, allocation, charges (02 R36, 05 R117,
07 R158 to R161, R167, 09 R206). -/

namespace Sys2Proof.Machine
open Sys2Proof

/-! ### Sizes -/

/-- HEAD_DIM of a code (R33). -/
def headDim (code : Nat) : Nat := match code with | 0 => 64 | 1 => 96 | 2 => 128 | 3 => 192 | 4 => 256 | _ => 0

/-- Granules of a section of `n` bytes (R36). -/
def granulesOf (n : Nat) : Nat := ceilDiv n 512

/-- Bytes of one data section: 2 · H · d · b (R36). -/
def dataBytes (fmt h d : Nat) : Nat := 2 * h * d * fmtBits fmt

/-- Bytes of the pips of one half (R36). -/
def pipBytes (fmt h d : Nat) : Nat := if hasPips fmt then h * d else 0

/-- BODY_GRANULES of a tile (R36). -/
def bodyGranules (kf vf : Nat) (zp : Bool) (h d : Nat) : Nat :=
  granulesOf (dataBytes kf h d) + granulesOf (dataBytes vf h d) + granulesOf (pipBytes kf h d + pipBytes vf h d) +
    granulesOf (if zp then 42 * h else 8 * h)

/-- BODY_GRANULES of a gradient tile: pips and scales only for the FP8 codes (R117). -/
def gradGranules (kf vf h d : Nat) : Nat :=
  granulesOf (dataBytes kf h d) + granulesOf (dataBytes vf h d) + granulesOf (pipBytes kf h d + pipBytes vf h d) +
    granulesOf ((if hasPips kf then 4 * h else 0) + (if hasPips vf then 4 * h else 0))

def tileGranules (t : Tile) : Nat := bodyGranules t.kFmt t.vFmt t.zp t.heads (headDim t.dimCode)

/-- Bytes of one row of a matrix part: data, pips, a scale for each row group of 4,096, a row sum for each span of 256 of an integer format
(R65, R73). -/
def rowBytes (fmt cols : Nat) : Nat :=
  (cols * fmtBits fmt + 7) / 8 + (if hasPips fmt then cols / 16 else 0) + (if fmt = 15 then 0 else 4 * ceilDiv cols 4096) +
    (if isInt fmt then 2 * ceilDiv cols 256 else 0)

/-- Bytes of a matrix part: its rows, then FP32 bias rows (R126). -/
def matBytes (fmt rows cols : Nat) (bias : Bool) : Nat := rows * rowBytes fmt cols + (if bias then 4 * rows else 0)

/-- The bytes that `n` row groups, from group `g` of row `r` on, take of a matrix part: a group's data, pips and scale lie together, the row sums
after a row's last group (DESIGN CHOICE, log 8). -/
def groupRange (fmt cols r g n : Nat) : Nat × Nat :=
  let one := 4096 * fmtBits fmt / 8 + (if hasPips fmt then 256 else 0) + (if fmt = 15 then 0 else 4)
  (r * rowBytes fmt cols + g * one, Nat.min (n * one) (rowBytes fmt cols - g * one))

/-- Granules of a working copy. -/
def matGranules (fmt rows cols : Nat) (bias : Bool) : Nat := granulesOf (matBytes fmt rows cols bias)

/-- Granules of the master copy, both moments and the gradient area, which is held as wide as its widest format (R80; DESIGN
CHOICE, log 8). -/
def auxGranules (rows cols : Nat) : Nat :=
  granulesOf (4 * rows * cols) + matGranules 4 rows cols false + matGranules 3 rows cols false + granulesOf (4 * rows * cols + 4 * rows)

/-- The first granule of a part among them: 1 master copy, 2 and 3 the moments, 4 the gradient area. -/
def auxFirst (rows cols part : Nat) : Nat :=
  match part with
  | 2 => granulesOf (4 * rows * cols)
  | 3 => granulesOf (4 * rows * cols) + matGranules 4 rows cols false
  | 4 => granulesOf (4 * rows * cols) + matGranules 4 rows cols false + matGranules 3 rows cols false
  | _ => 0

/-! ### Where things lie -/

/-- Granules of the working area in a stack: 2 GiB in each die's six stacks (R158), the lowest of each (DESIGN CHOICE, log 8). -/
def workGrans (stack : Nat) : Nat := if stack % 6 < 4 then 699051 else 699050

/-- Granules of a stack (R13). -/
def stackGrans : Nat := 2 ^ 27

/-- The pool of a die in granules (R158). -/
def poolSize : Nat := 6 * 2 ^ 27 - 4194304

def granDie (g : Gran) : Nat := g.1 / 6

/-- The granule of a header slot; the slot is the number of its block. -/
def slotGran (hdr : Nat) : Gran := (blockStack hdr, blockGranule hdr)

/-- The eight blocks of a granule. -/
def granBlocks (g : Gran) : List Nat := (List.range 8).map (blockNo g.1 g.2)

/-- Byte ranges of a body, offset and length, that the token slots `a` to `b` of every head occupy: data, pips, row sums (R36, R117). -/
def slotRanges (kf vf : Nat) (zp : Bool) (h d a b : Nat) : List (Nat × Nat) :=
  let kd := 512 * granulesOf (dataBytes kf h d)
  let vd := 512 * granulesOf (dataBytes vf h d)
  let pk := pipBytes kf h d
  let pd := 512 * granulesOf (pk + pipBytes vf h d)
  let per := fun (base w : Nat) => (List.range h).map (fun i => (base + (i * 16 + a) * w, (b - a) * w))
  per 0 (d * fmtBits kf / 8) ++ per kd (d * fmtBits vf / 8) ++ (if hasPips kf then per (kd + vd) (d / 16) else []) ++
    (if hasPips vf then per (kd + vd + pk) (d / 16) else []) ++ (if zp then per (kd + vd + pd + 10 * h) 2 else [])

/-- The bits of the 64-byte block at byte `off` that lie in some of the ranges. -/
def rangeBits (rs : List (Nat × Nat)) (off : Nat) : BitVec 512 :=
  rs.foldl (fun m r =>
    let lo := Nat.max off r.1 - off
    let hi := Nat.min (off + 64) (r.1 + r.2) - off
    if lo < hi then m ||| BitVec.ofNat 512 ((2 ^ (8 * (hi - lo)) - 1) * 2 ^ (8 * lo)) else m) 0

/-- The bits of a block of a body that lie in some of its ranges; none in a block of no granule of it. -/
def bodyBits (body : List Gran) (rs : List (Nat × Nat)) (n : Nat) : BitVec 512 :=
  match body.idxOf? ((blockStack n, blockGranule n) : Gran) with
  | some i => rangeBits rs (512 * i + 64 * blockIdx n)
  | none => 0

/-- The blocks of a body and a header. -/
def objBlocks (hdr : Option Nat) (body : List Gran) : List Nat := hdr.toList ++ (body.map granBlocks).flatten

/-- Every program that a context or the queue holds. -/
def allProgs (s : State) : List Prog := s.pg.queue ++ s.pg.ctxs.vals

/-- The granules a prepared change holds. -/
def changeGrans (c : Change) : List Gran × List Gran :=
  match c with
  | .lse _ _ _ g _ _ => (g, [])
  | .load _ _ l => ([], l.place)
  | .fetch _ _ _ m => ([], m.place)
  | _ => ([], [])

/-- Bodies and header slots of the tiles and gradient tiles, with those that programs have prepared. -/
def bodyList (s : State) : List (List Gran × Nat) :=
  (s.mem.tiles.vals.filter (fun t => decide (t.body ≠ []))).map (fun t => (t.body, t.hdr)) ++
    s.mem.grads.vals.map (fun g => (g.body, g.hdr)) ++
    ((allProgs s).map (fun p => (p.tiles.filter (fun t => t.isNew || t.rewrite)).map (fun t => (t.tile.body, t.tile.hdr)))).flatten

/-- Header slots in use. -/
def usedSlots (s : State) : List Nat := (bodyList s).map Prod.snd ++ (s.mem.drains.vals.map (fun d => d.hdr.toList)).flatten

/-- Granules of the pool in use outside the weight reserve. -/
def poolGrans (s : State) : List Gran :=
  dedup (((bodyList s).map Prod.fst).flatten ++ (usedSlots s).map slotGran ++ (s.mem.lse.vals.map Lse.place).flatten ++
    ((s.mem.drains.vals.filter (fun d => !d.weight)).map Drain.grans).flatten ++
    ((allProgs s).map (fun p => (p.changes.map (fun c => (changeGrans c).1)).flatten)).flatten ++
    (s.fab.poolObjs.vals.map Prod.fst).flatten)

/-- Granules of a matrix. -/
def matrixGrans (m : Matrix) : List Gran := m.place ++ m.auxPlace ++ (m.load.map Load.place).getD []

/-- Granules in use in the weight reserve. -/
def weightGrans (s : State) : List Gran :=
  dedup ((s.mem.weights.vals.map (fun w => (w.mats.vals.map matrixGrans).flatten)).flatten ++
    ((s.mem.drains.vals.filter Drain.weight).map Drain.grans).flatten ++
    ((allProgs s).map (fun p => (p.changes.map (fun c => (changeGrans c).2)).flatten)).flatten)

def onDie (die : Nat) (gs : List Gran) : Nat := (gs.filter (fun g => decide (granDie g = die))).length

/-- WEIGHT_RESERVE of a die in bytes (R171). -/
def reserveOf (s : State) (die : Nat) : Nat := Tab.get s.mem.reserve 0 die

/-- Free granules of a die's pool outside the weight reserve. -/
def freePool (s : State) (die : Nat) : Nat := poolSize - reserveOf s die / 512 - onDie die (poolGrans s)

/-- Free granules of a die's weight reserve. -/
def freeReserve (s : State) (die : Nat) : Nat := reserveOf s die / 512 - onDie die (weightGrans s)

/-- Granules allocated for tiles, gradient tiles and kept values, for TIER_FILL.TILES. -/
def tileFill (s : State) (die : Nat) : Nat := onDie die (poolGrans s)

/-! ### Taking granules (R160) -/

/-- The written blocks of granules hold what was written (R213). -/
def clearErr (s : State) (blocks : List Nat) : State :=
  { s with mem := { s.mem with err := ErrTab.clear s.mem.err blocks,
                               seenPoison := s.mem.seenPoison.filter (fun b => !blocks.contains b) } }

/-- Free granules of a stack. -/
def stackFree (used : List Gran) (stack : Nat) : Nat := stackGrans - workGrans stack - (used.filter (fun g => decide (g.1 = stack))).length

/-- The first stack of a stripe: one of those of the die with the most free granules, so that they fill evenly; which of several is free
(R160, log 8). -/
def firstStack (s : State) (used : List Gran) (die : Nat) : Nat × State :=
  let free := fun (i : Nat) => stackFree used (6 * die + i)
  let best := (List.range 6).filter (fun i => decide (free i = maxBy free (List.range 6)))
  let r := drawPick s best.length
  (best.getD r.1 0, r.2)

/-- The stack for the next granule of a stripe; a full stack is passed over (DESIGN CHOICE, log 8). -/
def stripeStack (used : List Gran) (die i : Nat) : Nat :=
  (((List.range 6).map (fun k => 6 * die + (i + k) % 6)).find? (fun st => decide (0 < stackFree used st))).getD (6 * die + i % 6)

/-- A free granule of a stack, by a free choice (log 8). -/
def takeGran (s : State) (used : List Gran) (stack : Nat) : Gran × State :=
  let w := workGrans stack
  let u := ((used.filter (fun g => decide (g.1 = stack))).map Prod.snd).map (fun g => g - w)
  let r := drawPick s (stackGrans - w - u.length)
  ((stack, w + kthFree u r.1), r.2)

/-- Takes `n` granules on the stacks of a die in turn (R160), and writes them clean. -/
def takeGrans (s : State) (die n : Nat) : List Gran × State :=
  let used := poolGrans s ++ weightGrans s
  let r := firstStack s used die
  let p := (List.range n).foldl (fun (acc : List Gran × State) i =>
    let all := acc.1 ++ used
    let g := takeGran acc.2 all (stripeStack all die (r.1 + i))
    (acc.1 ++ [g.1], g.2)) ([], r.2)
  (p.1, clearErr p.2 ((p.1.map granBlocks).flatten))

/-- Header slots of a die that no object uses, in granules that hold headers already (R158). -/
def freeSlots (s : State) (die : Nat) : List Nat :=
  let used := usedSlots s
  let mine := used.filter (fun h => decide (blockStack h / 6 = die))
  (mine.map (fun h => (List.range 8).map (fun i => h / 8 * 8 + i))).flatten.filter (fun h => !used.contains h)

/-- A header slot of a die: a free one of a granule that holds headers already, else the first of a new granule (R158). -/
def takeSlot (s : State) (die : Nat) : Nat × State :=
  match freeSlots s die with
  | h :: _ => (h, clearErr s [h])
  | [] =>
    let g := takeGrans s die 1
    match g.1 with
    | x :: _ => (blockNo x.1 x.2 0, g.2)
    | [] => (0, g.2)

/-! ### Charges (R167) -/

/-- The bytes of a tile or gradient tile under R167. -/
def bodyCharge (n : Nat) : Nat := (n + 1) * 512

/-- The incomplete version of a matrix committed so far. -/
def loadOf (s : State) (k : SetKey) (mat : Nat) : Option Load :=
  ((Tab.find s.mem.weights k).bind (fun w => Tab.find w.mats mat)).bind Matrix.load

/-- The charge of a prepared change: a later piece of an incomplete version takes nothing more. -/
def changeCharge (s : State) (c : Change) : Nat :=
  match c with
  | .lse _ _ v _ _ _ => 4 * v.length
  | .load k i l => if (loadOf s k i).map Load.place = some l.place then 0 else 512 * l.place.length
  | .fetch _ _ _ m => 512 * m.place.length
  | _ => 0

/-- A tenant's charge (R167). -/
def tenantCharge (s : State) (t : Nat) : Nat :=
  sumBy (fun x => if x.tenant = t ∧ x.body ≠ [] then bodyCharge (tileGranules x) else 0) s.mem.tiles.vals +
  sumBy (fun p => if p.tenant = t then
    sumBy (fun x => if x.isNew then bodyCharge (tileGranules x.tile) else 0) p.tiles +
    sumBy (changeCharge s) p.changes else 0) (allProgs s) +
  sumBy (fun g => if g.1.1 = t then bodyCharge g.2.body.length else 0) s.mem.grads +
  sumBy (fun w => if w.1.1 = t then sumBy (fun m => 512 * (matrixGrans m).length) w.2.mats.vals else 0) s.mem.weights +
  sumBy (fun l => if l.1.1 = t then 4 * l.2.vals.length else 0) s.mem.lse

/-- Bytes of a tenant's REMOTE tiles (R167). -/
def tenantT2 (s : State) (t : Nat) : Nat :=
  sumBy (fun x => if x.tenant = t ∧ x.tier = .remote then bodyCharge (tileGranules x) else 0) s.mem.tiles.vals

/-! ### Tiles -/

def getTile (s : State) (oid : Nat) : Option Tile := Tab.find s.mem.tiles oid
def putTile (s : State) (oid : Nat) (t : Tile) : State := { s with mem := { s.mem with tiles := Tab.put s.mem.tiles oid t } }
def delTile (s : State) (oid : Nat) : State := { s with mem := { s.mem with tiles := Tab.del s.mem.tiles oid } }
def getDesc (s : State) (d : Nat) : Option RunDesc := Tab.find s.mem.descs d
def putDesc (s : State) (d : Nat) (r : RunDesc) : State := { s with mem := { s.mem with descs := Tab.put s.mem.descs d r } }
def delDesc (s : State) (d : Nat) : State := { s with mem := { s.mem with descs := Tab.del s.mem.descs d } }

/-- The last position of a tile that is committed. -/
def Tile.last (t : Tile) : Nat := t.base + t.valid - 1

/-- A tile holds a committed position of a range. -/
def Tile.meets (t : Tile) (low high : Nat) : Bool := decide (0 < t.valid ∧ t.base ≤ high ∧ low < t.base + t.valid)

/-- Bits of a tile's block that its AUTH_TAG takes as zero: those of slots at or beyond VALID (R404). -/
def tileFree (t : Tile) : Nat → BitVec 512 := bodyBits t.body (slotRanges t.kFmt t.vFmt t.zp t.heads (headDim t.dimCode) t.valid 16)

/-- The blocks of a tile in T1. -/
def tileBlocks (t : Tile) : List Nat := if t.body = [] then [] else objBlocks (some t.hdr) t.body

/-- Issued plies: those that are reading. -/
def issuedPlies (s : State) : List (Nat × Ply) := s.pg.plies.filter (fun p => p.2.issued.isSome)

/-- Physical cores, numbered 9 to a cluster, that issued plies occupy. -/
def busyCores (s : State) : List Nat := ((issuedPlies s).map (fun x => x.2.cores)).flatten

/-- Granules, a header slot and a descriptor that wait for those of the plies issued so far that read them; freed at once where none does
(R41, R129, R135, R161). -/
def drainReads (s : State) (reads : Ply → Bool) (d : Drain) : State :=
  let ps := ((issuedPlies s).filter (fun x => reads x.2)).map Prod.fst
  if ps = [] then (match d.desc with | some k => delDesc s k | none => s)
  else { s with mem := { s.mem with drains := Tab.put s.mem.drains s.mem.nextDrain { d with plies := ps }, nextDrain := s.mem.nextDrain + 1 } }

/-- A ply's instructions read a weight set. -/
def Ply.readsSet (x : Ply) (k : SetKey) : Bool :=
  (match x.key.kind with | .projection | .matrix => true | _ => false) && decide (k = (x.key.tenant, x.key.setId, x.key.layer))

/-- What every ply issued so far may still read (R135). -/
def drainAfter (s : State) (d : Drain) : State := drainReads s (fun _ => true) d

/-- The old body and header of a tile wait for the plies that read the tile (R41, R161). -/
def drainTile (s : State) (oid : Nat) (t : Tile) : State :=
  drainReads s (fun x => (Tab.find x.tiles oid).isSome) ⟨t.tenant, false, t.body, some t.hdr, none, []⟩

/-- Granules and a header slot of a die, both new; the granules stand in drain 0 while the slot is looked for. -/
def takeBody (s : State) (die tenant n : Nat) : List Gran × Nat × State :=
  let g := takeGrans s die n
  let h := takeSlot { g.2 with mem := { g.2.mem with drains := Tab.put g.2.mem.drains 0 ⟨tenant, false, g.1, none, none, []⟩ } } die
  (g.1, h.1, { h.2 with mem := { h.2.mem with drains := Tab.del h.2.mem.drains 0 } })

/-- Granules that a body of `n` granules takes of a die, a new granule of headers included where its slot needs one (R158). -/
def bodyNeed (s : State) (die n : Nat) : Nat := n + (if freeSlots s die = [] then 1 else 0)

/-- A header is written: its block holds what was written (R42, R213). -/
def putHeader (s : State) (oid : Nat) (t : Tile) : State := clearErr (putTile s oid t) (if t.body = [] then [] else [t.hdr])

end Sys2Proof.Machine
end

