-- ==== Sys2Proof/Machine/Image.lean ====
section
/-! DEFINITION. The stored bytes of objects: headers and bodies of tiles and gradient tiles, their encryption and tags, object
numbers, and the objects of tier 2 (02 R33 to R37, 05 R117, 11 R276, 16 R402 to R408). -/

namespace Sys2Proof.Machine
open Sys2Proof

/-! ### Keys and counters (R402, R403, R409, R410) -/

/-- The live key of a tenant's epoch: current or old. -/
def keyOf (s : State) (tenant epoch : Nat) : Option Key :=
  let t := getTenant s tenant
  match t.current, t.old with
  | some k, o => if k.epoch = epoch then some k else o.filter (fun k => decide (k.epoch = epoch))
  | none, o => o.filter (fun k => decide (k.epoch = epoch))

/-- TILE_COUNTER as a number (R402). -/
def counterWord (c : Counter) : Nat := packFields [(8, c.commit), (40, c.seq), (16, c.writer)]
/-- TILE_COUNTER from its number. -/
def counterOf (w : Nat) : Counter := ⟨fld w 63 48, fld w 47 8, fld w 7 0⟩

/-- The body IV, and with COMMIT_SEQ the tag IV (R402). -/
def ivOf (c : Counter) (commit : Nat) : List Byte := beBytes 2 c.writer ++ beBytes 5 c.seq ++ [BitVec.ofNat 8 commit] ++ zeros 4

/-- `n` further objects would pass the last OBJECT_SEQ of the tenant's current epoch (R409). -/
def nonceSpent (s : State) (tenant n : Nat) : Bool :=
  match (getTenant s tenant).current with
  | some k => decide (2 ^ 40 < k.seq + n)
  | none => false

/-- Takes `n` consecutive OBJECT_SEQ numbers of the current epoch: the counter of the first, with COMMIT_SEQ 1, and the epoch. -/
def takeSeqs (s : State) (tenant n : Nat) : Counter × Nat × State :=
  let t := getTenant s tenant
  match t.current with
  | some k => (⟨k.writer, k.seq, 1⟩, k.epoch, putTenant s tenant { t with current := some { k with seq := k.seq + n } })
  | none => (⟨0, 0, 1⟩, 0, s)

/-- The same as the record of the first of them. -/
def takeRecs (s : State) (tenant n : Nat) : CRec × State := let q := takeSeqs s tenant n; (⟨q.2.1, q.1⟩, q.2.2)

/-- The record of the `i`-th of consecutive row groups. -/
def CRec.plus (c : CRec) (i : Nat) : CRec := { c with counter := { c.counter with seq := c.counter.seq + i } }

/-- The records of `n` consecutive row groups. -/
def CRec.run (c : CRec) (n : Nat) : List CRec := (List.range n).map c.plus

/-- Cipher records of the parts of a matrix: how many, and the same row groups written anew from a first record on (R405, R411). -/
def recCount (recs : Tab Nat (List CRec)) : Nat := sumBy (fun x => x.2.length) recs
def renumber (recs : Tab Nat (List CRec)) (first : CRec) : Tab Nat (List CRec) :=
  (recs.foldl (fun (acc : Tab Nat (List CRec) × Nat) x => (acc.1 ++ [(x.1, (first.plus acc.2).run x.2.length)], acc.2 + x.2.length)) ([], 0)).1

/-- Some of the records stand under an epoch. -/
def recsUnder (recs : Tab Nat (List CRec)) (e : Nat) : Bool := recs.vals.any (fun l => l.any (fun r => r.epoch == e))

/-! ### Tiles (R33, R36, R404) -/

/-- A byte of a body and whether it belongs to a written position. -/
abbrev BodyByte := Byte × Bool

def coded (bs : List Byte) : List BodyByte := bs.map (fun b => (b, true))
def blank (n : Nat) : List BodyByte := List.replicate n (0, false)
def padBody (bs : List BodyByte) : List BodyByte := bs ++ blank ((512 - bs.length % 512) % 512)

/-- Head by head, token slot by token slot: the bytes that `f` gives for a written slot, `w` blank ones for another. -/
def bySlot (h w : Nat) (slots : List Slot) (f : Slot → Nat → List Byte) : List BodyByte :=
  ((List.range h).map (fun i => ((List.range 16).map (fun j =>
    match slots[j]? with | some x => coded (f x i) | none => blank w)).flatten)).flatten

/-- The five sections of a body over the written slots (R36). -/
def tilePlain (t : Tile) (slots : List Slot) : List BodyByte :=
  let d := headDim t.dimCode
  let h := t.heads
  let data := fun (fmt : Nat) (sel : Slot → List Nat) =>
    padBody (bySlot h (d * fmtBits fmt / 8) slots (fun x i => packElems fmt (slice' (sel x) (i * d) d)))
  let pips := fun (fmt : Nat) (sel : Slot → List Nat) =>
    if hasPips fmt then bySlot h (d / 16) slots (fun x i => (slice' (sel x) (i * (d / 16)) (d / 16)).map (BitVec.ofNat 8)) else []
  let scales := coded (((t.kScale ++ t.vScale).map (fun x => leBytes 4 x.toNat)).flatten)
  let zps := if t.zp then
      coded ((t.kZp ++ t.vZp).map (fun z => BitVec.ofNat 8 (twos 8 z))) ++
        bySlot h 2 slots (fun x i => leBytes 2 (twos 16 (x.sums.getD i 0)))
    else []
  data t.kFmt Slot.k ++ data t.vFmt Slot.v ++ padBody (pips t.kFmt Slot.kPips ++ pips t.vFmt Slot.vPips) ++ padBody (scales ++ zps)
where
  slice' (l : List Nat) (o n : Nat) : List Nat := (l.drop o).take n

/-- Encrypts the bytes of written positions under the body IV; other bytes stay zero (R404). -/
def cipherBody (key : List Byte) (c : Counter) (bs : List BodyByte) : List Byte :=
  let ks := gcmCtr (aesSchedule key) (ivOf c 0) 2 (zeros bs.length)
  List.zipWith (fun (b : BodyByte) k => if b.2 then b.1 ^^^ k else b.1) bs ks

/-- Header bytes 0x00 to 0x2F of a tile (R33). -/
def headerHead (ver kf vf : Nat) (zp sealed' : Bool) (posEnc valid layer tenant epoch stream base share heads dimCode granules : Nat)
    (c : Counter) : List Byte :=
  recordBytes [(4, ver), (4, kf), (4, vf), (1, b2n zp), (1, b2n sealed'), (2, posEnc), (5, valid), (3, 0), (8, layer), (12, tenant), (4, 0),
    (16, epoch), (32, stream), (24, base), (8, 0), (24, share), (8, 0), (7, heads), (1, 0), (3, dimCode), (5, 0), (16, granules),
    (64, counterWord c), (128, 0)]

def tileHead (t : Tile) (share : Nat) : List Byte :=
  headerHead 1 t.kFmt t.vFmt t.zp t.isSealed t.posEnc t.valid t.layer t.tenant t.epoch t.stream t.base share t.heads t.dimCode
    (tileGranules t) t.counter

/-- The GCM tag over associated data alone, under the tag IV (R404). -/
def tagOf (key : List Byte) (c : Counter) (aad : List Byte) : List Byte := (gcmSeal key (ivOf c c.commit) aad []).2

/-- AUTH_TAG: over the header with SHARE_COUNT zero and the ciphertext of the valid slots (R34, R404). -/
def tileTag (key : List Byte) (t : Tile) : List Byte :=
  tagOf key t.counter (tileHead t 0 ++ cipherBody key t.counter (tilePlain t (t.slots.take t.valid)))

/-- The 64-byte header as stored. -/
def tileHeader (key : List Byte) (t : Tile) : List Byte := tileHead t t.share ++ tileTag key t

/-- The body as stored, written positions that are not committed included. -/
def tileBody (key : List Byte) (t : Tile) : List Byte := cipherBody key t.counter (tilePlain t t.slots)

/-- Header and body of a tile as ciphertext, where its key is live. -/
def tileImage (s : State) (t : Tile) : Option (List Byte × List Byte) :=
  (keyOf s t.tenant t.epoch).map (fun k => (tileHeader k.key t, tileBody k.key t))

/-! ### Gradient tiles (R117) -/

/-- The sections of a gradient tile's body: a domain for each head and half holds its valid slots in order. -/
def gradPlain (g : GradTile) : List BodyByte :=
  let d := headDim g.dimCode
  let data := fun (fmt : Nat) (doms : List QDom) =>
    let w := d * fmtBits fmt / 8
    padBody ((doms.map (fun q => coded (packElems fmt q.codes) ++ blank (16 * w - w * (q.codes.length / (if d = 0 then 1 else d))))).flatten)
  let pips := fun (fmt : Nat) (doms : List QDom) =>
    if hasPips fmt then (doms.map (fun q => coded (q.pips.map (BitVec.ofNat 8)) ++ blank (d - q.pips.length))).flatten else []
  let scales := fun (fmt : Nat) (doms : List QDom) => if hasPips fmt then (doms.map (fun q => coded (leBytes 4 q.scale.toNat))).flatten else []
  data g.kFmt g.k ++ data g.vFmt g.v ++ padBody (pips g.kFmt g.k ++ pips g.vFmt g.v) ++ padBody (scales g.kFmt g.k ++ scales g.vFmt g.v)

def gradHead (key : GradKey) (g : GradTile) : List Byte :=
  headerHead 2 g.kFmt g.vFmt false false g.posEnc g.valid key.2.2.2.1 key.1 g.epoch key.2.2.1 key.2.2.2.2 g.writes g.heads g.dimCode
    (gradGranules g.kFmt g.vFmt g.heads (headDim g.dimCode)) g.counter

/-- Header and body of a gradient tile as ciphertext, where its key is live and its halves have one format each. -/
def gradImage (s : State) (key : GradKey) (g : GradTile) : Option (List Byte × List Byte) :=
  if g.kOld ≠ [] ∨ g.vOld ≠ [] then none
  else (keyOf s key.1 g.epoch).map (fun k =>
    let body := cipherBody k.key g.counter (gradPlain g)
    let h := gradHead key g
    (h ++ tagOf k.key g.counter (gradHead key { g with writes := 0 } ++ body), body))

/-! ### Objects as they travel (R375, R376) -/

/-- A granule of bytes and the check words of its blocks (R375). -/
def withChecks (bs : List Byte) : List Byte :=
  bs ++ ((chunks 64 bs).map (fun b => leBytes 8 (eccCheck (BitVec.ofNat 512 (leNat b))).toNat)).flatten

/-- The pieces of an object with a header: the header block, then the body granules (DEDUCED from the sizes of R382's example,
log 28). -/
def objectPieces (hdr body : List Byte) : List (List Byte) := withChecks hdr :: (chunks 512 body).map withChecks

/-- The pieces of plain bytes in whole granules. -/
def plainPieces (bs : List Byte) : List (List Byte) := (chunks 512 (padTo 512 bs)).map withChecks

/-- The data of a stored object, piece by piece: a header block first where the length says so. -/
def storedPieces (data : List Byte) : List (List Byte) := if data.length % 512 = 64 then data.take 64 :: chunks 512 (data.drop 64) else chunks 512 data

/-- Cuts bytes as they travelled into pieces: a header block first where the length says so. -/
def cutPieces (bs : List Byte) : List (List Byte) :=
  if bs.length % 576 = 72 then bs.take 72 :: chunks 576 (bs.drop 72) else chunks 576 bs

/-- R215: checks an arriving piece block by block; the data corrected, or none where a block is uncorrectable or poisoned. -/
def checkPiece (p : List Byte) : Option (List Byte) :=
  let n := p.length / 72
  let data := p.take (64 * n)
  let checks := p.drop (64 * n)
  let bs := (List.range n).map (fun i =>
    let b : Blk := ⟨BitVec.ofNat 512 (leAt data (64 * i) 64), BitVec.ofNat 64 (leAt checks (8 * i) 8)⟩
    match classify b with
    | .clean => some b.data
    | .corrected c => some c.data
    | _ => none)
  if p.length = 0 ∨ p.length % 72 ≠ 0 ∨ bs.any Option.isNone then none
  else some ((bs.map (fun b => leBytes 64 ((b.getD 0).toNat))).flatten)

/-- An object key (R375). -/
def objectKey (node num : Nat) : Nat := node % 65536 * 2 ^ 48 + num % 2 ^ 48

/-- A run descriptor, 32 bytes; the handle of its tile lists is the node's own (R30). -/
def descBytes (d : RunDesc) (tileMap : Nat) : List Byte :=
  recordBytes [(2, b2n d.borrowed), (1, b2n d.tail), (29, 0), (32, d.low), (32, d.high), (32, if d.borrowed then d.srcStream else 0),
    (32, if d.borrowed then twos 32 d.offset else 0), (32, tileMap % 2 ^ 32), (64, 0)]

/-! ### Tiles read from bytes (R33, R39, R404) -/

/-- A word of a header. -/
def hw (h : List Byte) (o : Nat) : Nat := leAt h o 4

/-- A header is acceptable: version, codes, VALID, reserved fields, ZP (R39). -/
def headerOk (ver : Nat) (h : List Byte) : Bool :=
  let w := hw h 0
  let fmt := fun (c : Nat) => fmtOk c || (ver == 2 && c == 15)
  let zp := bitN w 12
  decide (fld w 3 0 = ver) && fmt (fld w 7 4) && fmt (fld w 11 8) && decide (fld w 15 14 ≤ 1 ∧ 1 ≤ fld w 20 16 ∧ fld w 20 16 ≤ 16 ∧
    fld w 23 21 = 0 ∧ fld (hw h 4) 15 12 = 0 ∧ fld (hw h 12) 31 24 = 0 ∧ fld (hw h 16) 31 24 = 0 ∧ fld (hw h 20) 7 7 = 0 ∧
    fld (hw h 20) 10 8 ≤ 4 ∧ fld (hw h 20) 15 11 = 0 ∧ 1 ≤ fld (hw h 20) 6 0 ∧ fld (hw h 20) 6 0 ≤ 64 ∧ leAt h 0x20 16 = 0) &&
    (!zp || zpAllowed (fld w 7 4) || zpAllowed (fld w 11 8))

/-- The tile that a header and a plain body describe. -/
def tileOf (h body : List Byte) : Tile :=
  let w := hw h 0
  let kf := fld w 7 4
  let vf := fld w 11 8
  let zp := bitN w 12
  let valid := fld w 20 16
  let heads := fld (hw h 20) 6 0
  let dc := fld (hw h 20) 10 8
  let d := headDim dc
  let kd := 512 * granulesOf (dataBytes kf heads d)
  let vd := 512 * granulesOf (dataBytes vf heads d)
  let pk := pipBytes kf heads d
  let pd := 512 * granulesOf (pk + pipBytes vf heads d)
  let so := kd + vd + pd
  let codes := fun (fmt off j : Nat) => ((List.range heads).map (fun i =>
    unpackElems fmt d (slice body (off + (i * 16 + j) * (d * fmtBits fmt / 8)) (d * fmtBits fmt / 8)))).flatten
  let pips := fun (fmt off j : Nat) => if hasPips fmt then
    ((List.range heads).map (fun i => (slice body (off + (i * 16 + j) * (d / 16)) (d / 16)).map BitVec.toNat)).flatten else []
  let scl := fun (o : Nat) => (List.range heads).map (fun i => BitVec.ofNat 32 (leAt body (so + o + 4 * i) 4))
  let zpv := fun (o : Nat) => (List.range heads).map (fun i => if zp then signedOf 8 (leAt body (so + 8 * heads + o + i) 1) else 0)
  let sums := fun (j : Nat) => if zp then (List.range heads).map (fun i => signedOf 16 (leAt body (so + 10 * heads + 2 * (i * 16 + j)) 2)) else []
  { tenant := fld (hw h 4) 11 0, stream := hw h 8, layer := fld w 31 24, base := fld (hw h 12) 23 0, kFmt := kf, vFmt := vf, zp := zp,
    isSealed := bitN w 13, posEnc := fld w 15 14, valid := valid, epoch := fld (hw h 4) 31 16, share := 0, heads := heads, dimCode := dc,
    counter := counterOf (leAt h 0x18 8), kScale := scl 0, vScale := scl (4 * heads), kZp := zpv 0, vZp := zpv heads,
    slots := (List.range valid).map (fun j => ⟨codes kf 0 j, pips kf (kd + vd) j, codes vf kd j, pips vf (kd + vd + pk) j, sums j⟩),
    written := valid, die := 0, body := [], hdr := 0, poisoned := false, lost := false, retired := false, tier := .resident, replicas := [],
    objKey := 0, ageBase := 0, protectUntil := none, unread := [] }

/-- A tile from its stored header and body under a key; none where the tag does not verify (R404, R407). -/
def openTile (key h body : List Byte) : Option Tile :=
  if !headerOk 1 h then none
  else
    let c := counterOf (leAt h 0x18 8)
    -- every byte of the body is taken as ciphertext; the bytes of no written position fall away in `tileOf`
    let plain := cipherBody key c (coded body)
    let t := tileOf h plain
    if body.length = 512 * tileGranules t ∧ fld (hw h 20) 31 16 = tileGranules t ∧ h.drop 0x30 = tileTag key t ∧
        tileBody key t = body then some t else none

/-- A gradient tile from its stored header and body under a key. -/
def openGrad (key h body : List Byte) : Option (GradKey × GradTile) :=
  if !headerOk 2 h then none
  else
    let w := hw h 0
    let c := counterOf (leAt h 0x18 8)
    let plain := cipherBody key c (coded body)
    let kf := fld w 7 4
    let vf := fld w 11 8
    let valid := fld w 20 16
    let heads := fld (hw h 20) 6 0
    let dc := fld (hw h 20) 10 8
    let d := headDim dc
    let kd := 512 * granulesOf (dataBytes kf heads d)
    let vd := 512 * granulesOf (dataBytes vf heads d)
    let pk := pipBytes kf heads d
    let so := kd + vd + 512 * granulesOf (pk + pipBytes vf heads d)
    let dom := fun (fmt off po scl i : Nat) => (⟨if hasPips fmt then BitVec.ofNat 32 (leAt plain (scl + 4 * i) 4) else f32One, 0,
      if hasPips fmt then (slice plain (po + i * d) (valid * (d / 16))).map BitVec.toNat else [],
      unpackElems fmt (valid * d) (slice plain (off + i * (2 * d * fmtBits fmt)) (valid * d * fmtBits fmt / 8))⟩ : QDom)
    let g : GradTile := ⟨kf, vf, fld w 15 14, valid, heads, dc, fld (hw h 16) 23 0, fld (hw h 4) 31 16, c,
      (List.range heads).map (dom kf 0 (kd + vd) so),
      (List.range heads).map (dom vf kd (kd + vd + pk) (so + (if hasPips kf then 4 * heads else 0))), [], []⟩
    let k : GradKey := (fld (hw h 4) 11 0, 0, hw h 8, fld w 31 24, fld (hw h 12) 23 0)
    let tag := tagOf key c (gradHead k { g with writes := 0 } ++ body)
    if body.length = 512 * gradGranules kf vf heads d ∧ h.drop 0x30 = tag then some (k, g) else none

/-! ### Weight objects of tier 2 (R276, R408) -/

/-- One domain of R276: scale, pips, packed data, padded to 64 bytes; the domain and the bytes it takes. -/
def domainOf (fmt n : Nat) (bs : List Byte) : QDom × Nat :=
  let np := if hasPips fmt then n / 16 else 0
  let nd := (n * fmtBits fmt + 7) / 8
  (⟨BitVec.ofNat 32 (leAt bs 0 4), 0, (slice bs 4 np).map BitVec.toNat, unpackElems fmt n (slice bs (4 + np) nd)⟩,
   (4 + np + nd + 63) / 64 * 64)

/-- The bytes of one domain (R276). -/
def domainBytes (fmt : Nat) (q : QDom) : List Byte :=
  padTo 64 (leBytes 4 q.scale.toNat ++ (if hasPips fmt then q.pips.map (BitVec.ofNat 8) else []) ++ packElems fmt q.codes)

/-- Lengths of the row groups of a row (R65). -/
def rowGroups (cols : Nat) : List Nat :=
  (List.range (ceilDiv cols 4096)).map (fun i => Nat.min 4096 (cols - 4096 * i))

/-- A format without pips and other than INT8 is a plain array (R276). -/
def plainArray (fmt : Nat) : Bool := fmt == 1 || fmt == 2 || fmt == 15

/-- One row from its bytes: its groups and the bytes it takes. -/
def rowOfBytes (fmt cols : Nat) (bs : List Byte) : List QDom × Nat :=
  (rowGroups cols).foldl (fun (acc : List QDom × Nat) n =>
    if plainArray fmt then
      let w := fmtBits fmt / 8
      (acc.1 ++ [⟨f32One, 0, [], unpackElems fmt n (slice bs acc.2 (w * n))⟩], acc.2 + w * n)
    else let d := domainOf fmt n (bs.drop acc.2); (acc.1 ++ [d.1], acc.2 + d.2)) ([], 0)

/-- What a weight object holds. -/
structure WeightObj where
  matrix : Nat
  body : MatBody
  dModel : Nat
  bias : List F32
  rowsN : Nat
  deriving DecidableEq, Repr

/-- A weight object under its key (R408); none where the header, the tag or a row sum is wrong (R77). -/
def openWeights (key h body : List Byte) : Option WeightObj :=
  let w := hw h 0
  let fmt := fld w 7 4
  let rows := hw h 8
  let dm := leAt h 0x0C 2
  let c := counterOf (leAt h 0x18 8)
  let ok := decide (fld w 3 0 = 1) && fmtOk fmt && decide (fld w 9 8 ≤ 2 ∧ fld w 31 11 = 0 ∧ leAt h 6 2 = 0 ∧ leAt h 0x0E 2 = 0 ∧
    dm % 16 = 0 ∧ 0 < dm ∧ 0 < rows ∧ leAt h 0x14 4 = 0 ∧ leAt h 0x20 16 = 0 ∧ body.length = 512 * hw h 0x10)
  if !ok ∨ h.drop 0x30 ≠ tagOf key c (h.take 0x30 ++ body) then none
  else
    let plain := cipherBody key c (coded body)
    let r := (List.range rows).foldl (fun (acc : List (List QDom) × Nat) _ =>
      let x := rowOfBytes fmt dm (plain.drop acc.2); (acc.1 ++ [x.1], acc.2 + x.2)) ([], 0)
    let bias := if bitN w 10 then (List.range rows).map (fun i => BitVec.ofNat 32 (leAt plain (r.2 + 4 * i) 4)) else []
    let so := r.2 + 4 * bias.length
    let n := ceilDiv dm 256
    let sums := if isInt fmt then (List.range rows).map (fun i => (List.range n).map (fun j => signedOf 16 (leAt plain (so + 2 * (i * n + j)) 2)))
      else (List.range rows).map (fun _ => [])
    if r.1.map (spanSums fmt) = sums then some ⟨fld w 9 8, ⟨fmt, r.1, sums, []⟩, dm, bias, rows⟩ else none

end Sys2Proof.Machine
end

