-- ==== Sys2Proof/Machine/Cipher.lean ====
section
/-! DEFINITION. Cipher records of weight sets and kept values, and the stored bytes that they are of (16 R405 to R407, 03 R65, R73, log 8,
log 34). -/

namespace Sys2Proof.Machine
open Sys2Proof

/-- The keys of the records are live, so what they are of can be read (R406, R407, R410). -/
def recsLive (s : State) (tenant : Nat) (l : List CRec) : Bool := l.all (fun r => (keyOf s tenant r.epoch).isSome)

/-- The record of R406 over an identity of 16 bytes and a ciphertext. -/
def recordOf (key : List Byte) (r : CRec) (identity ct : List Byte) : List Byte :=
  let h := recordBytes [(16, r.epoch), (48, 0), (64, counterWord r.counter)]
  h ++ tagOf key r.counter (h ++ identity ++ ct)

/-! ### Kept values -/

/-- The identity of a block of kept values (R406; layout DESIGN CHOICE, log 34). -/
def lseIdentity (k : LseKey) : List Byte := recordBytes [(16, k.1), (32, k.2.1), (8, k.2.2.1), (8, 0), (64, k.2.2.2)]

/-- Record and ciphertext of kept values, where their key is live. -/
def lseCipher (s : State) (k : LseKey) (l : Lse) : Option (List Byte × List Byte) :=
  (keyOf s k.1 l.epoch).map (fun key =>
    let ct := cipherBody key.key l.counter (padBody (coded ((l.vals.map (fun v => leBytes 4 v.toNat)).flatten)))
    (recordOf key.key ⟨l.epoch, l.counter⟩ (lseIdentity k) ct, ct))

/-! ### Weight sets -/

/-- Rows of a matrix. -/
def Matrix.rows (m : Matrix) : Nat := (m.cur.map (fun b => b.rows.length)).getD 0

/-- A part of a matrix as it stands: its body and its bias, if it has one. -/
structure PartView where
  body : MatBody
  bias : List F32
  recs : List CRec

/-- Rows of FP32 values as row groups. -/
def plainRows (rows : List (List F32)) : MatBody :=
  ⟨15, rows.map (fun r => (chunks 4096 r).map (fun c => ⟨f32One, 0, [], c.map BitVec.toNat⟩)), rows.map (fun _ => []), []⟩

/-- The parts of a matrix: 0 working copy, 1 master copy, 2 and 3 the moments, 4 the gradient area, an uncommitted one first. -/
def Matrix.view (m : Matrix) (part : Nat) : Option PartView :=
  let recs := Tab.get m.recs [] part
  let moments := fun (fmt : Nat) (rows : List (List QDom)) => if rows = [] then none else some (⟨⟨fmt, rows, [], []⟩, [], recs⟩ : PartView)
  match part with
  | 0 => m.cur.map (fun b => ⟨b, m.bias, recs⟩)
  | 1 => m.master.map (fun w => ⟨plainRows w, [], recs⟩)
  | 2 => moments 4 m.m
  | 3 => moments 3 m.v
  | _ => if m.gradPending.isSome then m.gradPending.map (fun b => ⟨b, m.gradBiasPending, Tab.get m.recs [] 5⟩)
    else m.grad.map (fun b => ⟨b, m.gradBias, recs⟩)

/-- The same of an incomplete version; its gradient area is empty (R300). -/
def Load.view (l : Load) (part : Nat) : Option PartView :=
  let recs := Tab.get l.recs [] part
  match part with
  | 0 => some ⟨l.body, l.biasRows, recs⟩
  | 1 => if l.train then some ⟨plainRows l.master, [], recs⟩ else none
  | 2 => if l.train then some ⟨⟨4, l.m, [], []⟩, [], recs⟩ else none
  | 3 => if l.train then some ⟨⟨3, l.v, [], []⟩, [], recs⟩ else none
  | _ => none

/-- The plain bytes of a row group: data, pips, scale, and with a row's last group the row's sums and its bias value (R65, R73, log 8). -/
def groupPlain (b : MatBody) (bias : List F32) (r g per : Nat) (q : QDom) : List Byte :=
  packElems b.fmt q.codes ++ (if hasPips b.fmt then q.pips.map (BitVec.ofNat 8) else []) ++ (if b.fmt = 15 then [] else leBytes 4 q.scale.toNat) ++
    (if g + 1 = per then ((b.sums.getD r []).map (fun x => leBytes 2 (twos 16 x))).flatten ++ (if bias = [] then [] else leBytes 4 (bias.getD r f32Zero).toNat)
     else [])

/-- The ciphertext of every row group of a part, in order; none where a key is dead, a record is missing or the part has row groups in more than one
format. -/
def PartView.cipher (s : State) (tenant : Nat) (v : PartView) : Option (List (List Byte)) :=
  let per := ((v.body.rows.head?).map List.length).getD 0
  let cts := ((List.zip (List.range v.body.rows.length) v.body.rows).map (fun x => (List.zip (List.range per) x.2).map (fun y =>
    (v.recs[x.1 * per + y.1]?).bind (fun r => (keyOf s tenant r.epoch).map (fun k =>
      cipherBody k.key r.counter (coded (groupPlain v.body v.bias x.1 y.1 per y.2))))))).flatten
  if v.body.old ≠ [] ∨ cts.any Option.isNone then none else some (cts.map (fun c => c.getD []))

/-- The bytes of a part in its granules: the row groups, then the bias values (R126, log 8). -/
def PartView.image (s : State) (tenant : Nat) (v : PartView) : Option (List Byte) :=
  (v.cipher s tenant).map (fun cts =>
    let per := Nat.max 1 (((v.body.rows.head?).map List.length).getD 0)
    let cut := fun (i : Nat) (c : List Byte) => if v.bias ≠ [] ∧ i % per + 1 = per then c.length - 4 else c.length
    let xs := List.zip (List.range cts.length) cts
    (xs.map (fun x => x.2.take (cut x.1 x.2))).flatten ++ (xs.map (fun x => x.2.drop (cut x.1 x.2))).flatten)

/-- The identity of a row group (R406; layout DESIGN CHOICE, log 34). -/
def groupIdentity (k : SetKey) (mat part i : Nat) : List Byte :=
  recordBytes [(16, k.1), (32, k.2.1), (8, k.2.2), (8, 8 * mat + part), (32, i), (32, 0)]

/-- The cipher record of row group `i` of a part. -/
def PartView.record (s : State) (k : SetKey) (mat part i : Nat) (v : PartView) : Option (List Byte) :=
  (v.cipher s k.1).bind (fun cts => (v.recs[i]?).bind (fun r => (keyOf s k.1 r.epoch).map (fun key =>
    recordOf key.key r (groupIdentity k mat part i) (cts.getD i []))))

end Sys2Proof.Machine
end

