-- ==== Sys2Proof/Machine/Tiers.lean ====
section
/-! DEFINITION. Tier 2: TIER messages, copies, fetches from replicas, eviction, allocation for tenants, moves between dies
(07 R159 to R178, 15 R375). -/

namespace Sys2Proof.Machine
open Sys2Proof

/-! ### TIER messages (R375) -/

/-- The 32-byte header of a TIER message. -/
def tierHeader (op result granules obj first req : Nat) : List Byte :=
  recordBytes [(8, op), (8, result), (16, 0), (32, granules), (64, obj), (32, first), (32, 0), (64, req)]

/-- The class of requests of a priority (R348). -/
def prioClass (s : State) (p : Prio) : Nat :=
  match p with | .demand => s.tr.origDemand | .prefetch => s.tr.origPrefetch | .copy => s.tr.origCopy

def sendTier (s : State) (node tenant cls : Nat) (bytes : List Byte) : State := sendMsg s node 6 tenant cls bytes

/-- A number no object of the node has had. -/
def freshObj (s : State) : Nat × State := (s.mem.nextObj, { s with mem := { s.mem with nextObj := s.mem.nextObj + 1 } })

/-- A node can be reached: a route leads to it, and it has not been found unreachable since it was last heard (R333). -/
def reachable (s : State) (node : Nat) : Bool :=
  let k := peerKey node s.net.hostActive
  (routeTo s k).isSome && !s.net.unreachable.contains k

/-! ### What hand-overs serve (R376, R381) -/

/-- An entry of a manifest (R381). -/
structure ManEntry where
  kind : Nat
  layer : Nat
  pos : Nat
  size : Nat
  src : Nat
  offset : Int
  obj : Nat
  deriving DecidableEq, Repr

def manEntryBytes (e : ManEntry) : List Byte :=
  recordBytes [(4, e.kind), (8, e.layer), (20, 0), (32, e.pos), (32, e.size), (32, e.src), (32, twos 32 e.offset), (32, 0), (64, e.obj)]

/-- The first word of a piece's header block that holds the epoch: of kept values' cipher record, or of a tile's (R33, R381, R406). -/
def headEpoch (kind : Nat) (h : List Byte) : Nat := if kind = 4 then leAt h 0 2 else leAt h 6 2

def manEntryOf (b : List Byte) : ManEntry :=
  let w := leAt b 0 4
  ⟨fld w 3 0, fld w 11 4, leAt b 4 4, leAt b 8 4, leAt b 12 4, signedOf 32 (leAt b 16 4), leAt b 24 8⟩

/-- The plain bytes of what is served under a key. -/
def servedBytes (s : State) (key : Nat) : List Byte :=
  match Tab.find s.fab.served key with
  | some x => (((cutPieces x.2).map checkPiece).map (fun p => p.getD [])).flatten
  | none => []

/-- The entries a receiver has of its manifest. -/
def handEntries (h : Handover) : List ManEntry := (h.entries.getD []).map manEntryOf

/-- The entries of a manifest from its bytes. -/
def manEntries (b : List Byte) : List ManEntry := ((chunks 32 (b.drop 64)).take (leAt b 16 4)).map manEntryOf

/-! ### Runs of a stream -/

/-- The VALID rows of a stream, in order. -/
def streamRows (s : State) (tenant stream : Nat) : List Row :=
  ((List.range 2).map (fun h => ((getHalf s h).rows.map Prod.snd).filter (fun r =>
    decide (r.tenant = tenant ∧ r.stream = stream ∧ r.state = .valid)))).flatten

/-- The descriptors of a stream's runs that meet a range, with their rows. -/
def streamRuns (s : State) (tenant stream low high : Nat) : List (Row × RunDesc) :=
  (streamRows s tenant stream).filterMap (fun r =>
    if r.low ≤ high ∧ low ≤ r.high then (getDesc s r.result).map (fun d => (r, d)) else none)

/-- Object numbers of the tiles that runs list in a layer. -/
def layerTiles (d : RunDesc) (layer : Nat) : List Nat := (d.tiles.filter (fun t => decide (t.1 = layer))).map Prod.snd

/-- The tiles that a range of a stream reads in a layer through its runs. -/
def tilesInRange (s : State) (tenant stream layer low high : Nat) : List Nat :=
  ((streamRuns s tenant stream low high).map (fun p =>
    let d := p.2
    let lo := ((Nat.max low d.low : Nat) : Int) - d.offset
    let hi := ((Nat.min high d.high : Nat) : Int) - d.offset
    (layerTiles d layer).filter (fun o => match getTile s o with
      | some t => t.meets lo.toNat hi.toNat && decide (0 ≤ hi)
      | none => false))).flatten

/-! ### Eviction (R169, R170) -/

/-- The section of a position: boundaries at or below it (R87). -/
def sectOf (sects : List Nat) (p : Nat) : Nat := (sects.filter (fun b => decide (b ≤ p))).length

/-- A held position is live for the query at position `t` (R87). -/
def Mask.live (m : Mask) (t p : Nat) : Bool :=
  decide (m.low ≤ p ∧ p ≤ m.high) && (!m.causal || decide (p ≤ Nat.max t (m.pre - 1))) && (decide (m.window = 0) || decide (t < p + m.window)) &&
    (m.sects.isEmpty || sectOf m.sects p == sectOf m.sects t)

/-- The query positions of a mask. -/
def Mask.queries (m : Mask) : List Nat := (List.range m.count).map (fun i => m.first + i)

/-- Some position of [a, b] is live for some query. -/
def Mask.liveAny (m : Mask) (a b : Nat) : Bool :=
  (List.range (b + 1 - a)).any (fun i => m.queries.any (fun t => m.live t (a + i)))

/-- The positions of a tile inside a run's spliced range, as spliced positions first and last; none where it holds none. -/
def spliceSpan (t : Tile) (low high : Nat) (offset : Int) : Option (Nat × Nat) :=
  let a := max (low : Int) ((t.base : Int) + offset)
  let b := min (high : Int) ((t.base + t.valid : Nat) + offset - 1)
  if 0 < t.valid ∧ a ≤ b then some (a.toNat, b.toNat) else none

/-- The tiles of a run in a layer that hold a live position. -/
def liveTiles (s : State) (m : Mask) (low high : Nat) (d : RunDesc) (layer : Nat) : List Nat :=
  (layerTiles d layer).filter (fun o => match getTile s o with
    | some t => (match spliceSpan t low high d.offset with | some (a, b) => m.liveAny a b | none => false)
    | none => false)

/-- Plies that read tiles. -/
def PlyKind.reads (k : PlyKind) : Bool := match k with | .decode | .prefill | .backward => true | _ => false

/-- A member of a ply being formed has a live position in the tile. -/
def formingReads (s : State) (oid : Nat) : Bool :=
  s.pg.plies.vals.any (fun p => p.issued.isNone && p.key.kind.reads && p.members.any (fun m => match m.stream with
    | some st => (streamRuns s p.key.tenant st m.mask.low m.mask.high).any (fun r =>
        (liveTiles s m.mask r.1.low r.1.high r.2 p.key.layer).contains oid)
    | none => false))

/-- An issued ply reads the tile. -/
def issuedReads (s : State) (oid : Nat) : Bool := (issuedPlies s).any (fun p => (Tab.find p.2.tiles oid).isSome)

/-- A tile is eligible for eviction; a poisoned one whose data is on its way again is not, nor is any tile of a SHADOW node (R163, R165,
R169, R368). -/
def eligible (s : State) (oid : Nat) (t : Tile) : Bool :=
  t.isSealed && decide (t.tier = .backed ∧ t.body ≠ [] ∧ (getTenant s t.tenant).policy ≠ 0 ∧ effRole s ≠ roleShadow) && !issuedReads s oid &&
    !formingReads s oid && t.protectUntil.isNone && (Tab.find s.mem.fetches t.objKey).isNone

/-- The eligible tiles that meet a condition, oldest first. -/
def oldestEligible (s : State) (p : Tile → Bool) : List (Nat × Tile) :=
  sortBy (fun a b => decide (a.2.ageBase ≤ b.2.ageBase)) (s.mem.tiles.filter (fun x => p x.2 && eligible s x.1 x.2))

/-- Switches an eligible tile to REMOTE; no issued ply reads it, so its granules are free at once (R169). -/
def evictTile (s : State) (oid : Nat) (t : Tile) : State :=
  let s1 := putTile s oid { t with tier := .remote, body := [], unread := [] }
  bump { s1 with mem := { s1.mem with evictAge := (s.time - t.ageBase) / 1000 } } (.tier 0)

/-- Evicts tiles that meet a condition, oldest first, until `enough` holds. -/
def evictUntil (fuel : Nat) (s : State) (p : Tile → Bool) (enough : State → Bool) : State :=
  match fuel with
  | 0 => s
  | n + 1 =>
    if enough s then s
    else match oldestEligible s p with
      | [] => s
      | (o, t) :: _ => evictUntil n (evictTile s o t) p enough

def tileCount (s : State) : Nat := s.mem.tiles.length

/-- Watermarks of a die in granules (R170). -/
def lowMark (s : State) (die : Nat) : Nat := 2048 * Tab.get s.mem.wmLow 6112 die
def highMark (s : State) (die : Nat) : Nat := 2048 * Tab.get s.mem.wmHigh 12224 die

/-! ### Allocation for a tenant (R167, R168) -/

/-- Where an allocation went, or the completion that refuses it. -/
inductive Alloc where
  | took (die : Nat) (body : List Gran) (hdr : Nat)
  | refused (c : Compl)
  deriving DecidableEq, Repr

/-- A tenant's charge leaves room for `charge` bytes more. -/
def quotaFits (s : State) (tenant charge : Nat) : Bool := decide (tenantCharge s tenant + charge ≤ (getTenant s tenant).tierQuota)

/-- Step 1 of R168: the tenant's own eligible tiles give way, oldest first, until its quota has room. -/
def quotaEvict (s : State) (tenant charge : Nat) : State :=
  evictUntil (tileCount s) s (fun t => decide (t.tenant = tenant)) (fun s => quotaFits s tenant charge)

/-- The pool of a die has the granules of an allocation. -/
def poolFits (s : State) (die n : Nat) (slot : Bool) : Bool := decide ((if slot then bodyNeed s die n else n) ≤ freePool s die)

/-- Step 3 of R168: eligible tiles of any tenant on the home die give way, oldest first, until it has the granules. -/
def poolEvict (s : State) (home n : Nat) (slot : Bool) : State :=
  evictUntil (tileCount s) s (fun t => match t.body with | g :: _ => decide (granDie g = home) | [] => false) (fun s => poolFits s home n slot)

/-- No die's pool has the granules, even after eviction (R168, R181). -/
def poolLacks (s : State) (home n : Nat) (slot : Bool) : Bool :=
  !poolFits s home n slot && !poolFits s (1 - home) n slot && !poolFits (poolEvict s home n slot) home n slot

/-- What refuses an allocation of R168, each condition by itself, for R7 to choose between. -/
def allocChecks (s : State) (tenant home n charge : Nat) (slot : Bool) : List (Bool × Compl) :=
  let s1 := quotaEvict s tenant charge
  [(poolLacks s1 home n slot, refusedWith scPoolFull), (!quotaFits s1 tenant charge, (stQuota, 0))]

/-- R168 for `n` body granules, a header slot where `slot` asks for one, and a charge in bytes, with home die `home`; the state as it was
where nothing is allocated. -/
def allocTenant (s : State) (tenant home n charge : Nat) (slot : Bool) : Alloc × State :=
  match firstOf (allocChecks s tenant home n charge slot) with
  | some c => (.refused c, s)
  | none =>
    let give := fun (s : State) (die : Nat) =>
      if slot then let b := takeBody s die tenant n; (Alloc.took die b.1 b.2.1, b.2.2)
      else let g := takeGrans s die n; (Alloc.took die g.1 0, g.2)
    let s1 := quotaEvict s tenant charge
    if poolFits s1 home n slot then give s1 home
    else if poolFits s1 (1 - home) n slot then give (bump s1 (.tier 10)) (1 - home)
    else give (poolEvict s1 home n slot) home

/-- The die whose pool has more free granules, 0 on a tie (R159). -/
def roomierDie (s : State) : Nat := if freePool s 0 < freePool s 1 then 1 else 0

/-- The home die of a stream: the half that holds its rows or requests, a tile's die while none does, else the roomier die (R159). -/
def homeDie (s : State) (tenant stream : Nat) : Nat :=
  let inHalf := fun (h : Nat) =>
    let x := getHalf s h
    (x.rows.any (fun r => r.2.tenant == tenant && r.2.stream == stream)) ||
      ((x.queue ++ x.waiting).any (fun r => r.tenant == tenant && r.stream == stream))
  if inHalf 0 then 0 else if inHalf 1 then 1
  else match ((allProgs s).map (fun p => if p.tenant = tenant then p.tiles else [])).flatten.find? (fun t => t.tile.stream == stream) with
    | some t => t.tile.die
    | none => roomierDie s

/-- A set that may give way to another: not trainable, every matrix of it backed, some in T1, none loading or protected (R171, R172). -/
def WeightSet.mayLeave (w : WeightSet) : Bool :=
  !w.train && w.mats.any (fun m => m.2.present) &&
    w.mats.all (fun m => m.2.backing.isSome && decide (m.2.load = none) && m.2.protectUntil.isNone)

/-- A set leaves T1. No admitted program names it, so no ply reads it and its granules are free at once (R171). -/
def WeightSet.leave (w : WeightSet) : WeightSet :=
  { w with mats := w.mats.map (fun m => (m.1, { m.2 with present := false, place := [] })) }

/-- R171: room in the weight reserve for `n` granules on a die; backed sets of the tenant that no admitted program names give way,
oldest first. -/
def makeReserve (s : State) (tenant die n : Nat) (named : SetKey → Bool) : State :=
  let age := fun (w : WeightSet) => maxBy (fun m => m.2.loadedAt) w.mats
  let cands := s.mem.weights.filter (fun w => decide (w.1.1 = tenant ∧ w.2.die = die) && w.2.mayLeave && !named w.1)
  (sortBy (fun a b => decide (age a.2 ≤ age b.2)) cands).foldl (fun s c =>
    if n ≤ freeReserve s die then s
    else { s with mem := { s.mem with weights := Tab.put s.mem.weights c.1 c.2.leave } }) s

/-! ### Fetches (R173, R175 to R177) -/

def putFetch (s : State) (key : Nat) (f : Fetch) : State := { s with mem := { s.mem with fetches := Tab.put s.mem.fetches key f } }
def delFetch (s : State) (key : Nat) : State := { s with mem := { s.mem with fetches := Tab.del s.mem.fetches key } }

/-- The tenant of an object. -/
def refTenant (s : State) (o : ObjRef) : Nat :=
  match o with
  | .tile i => ((getTile s i).map Tile.tenant).getD 0
  | .grad k => k.1
  | .weight k _ _ => k.1
  | .lse k => k.1
  | .none => 0

/-- Contiguous ranges (first, count) of ascending numbers. -/
def rangesOf (l : List Nat) : List (Nat × Nat) :=
  (l.foldl (fun (acc : List (Nat × Nat)) n =>
    match acc with
    | (a, c) :: r => if n = a + c then (a, c + 1) :: r else (n, 1) :: acc
    | [] => [(n, 1)]) []).reverse

/-- Asks replica `r` for pieces of a fetch. -/
def askPieces (s : State) (f : Fetch) (r : Nat) (pieces : List Nat) : State :=
  match f.replicas[r]? with
  | none => s
  | some node =>
    (rangesOf pieces).foldl (fun s p =>
      sendTier s node (refTenant s f.obj) (prioClass s f.prio) (tierHeader 3 0 p.2 f.key p.1 f.req)) s

def missingPieces (f : Fetch) : List Nat := (List.range f.pieces).filter (fun i => (Tab.find f.got i).isNone)

/-- Replica `r` may still give piece `i`. -/
def mayGive (f : Fetch) (i r : Nat) : Bool := !f.goneFrom.contains r && !f.failed.contains (i, r)

/-- The replicas that may still give a piece, in order. -/
def leftFor (f : Fetch) (i : Nat) : List Nat := (List.range f.replicas.length).filter (mayGive f i)

/-- A GET with a request number of which nothing has been handed on yet. -/
def OutMsg.unsentGet (m : OutMsg) (req : Nat) : Bool := m.type == 6 && m.sent == 0 && leAt m.bytes 0 1 == 3 && leAt m.bytes 24 8 == req

/-- The GETs of a raised fetch that wait at a peer take the demand class and their place among the requests there (R173, log 80). -/
def raiseAsks (s : State) (req : Nat) : State :=
  let raise := fun (m : OutMsg) => if m.unsentGet req then { m with cls := s.tr.origDemand } else m
  { s with net := { s.net with peers := s.net.peers.mapVals (fun _ p => { p with out := orderTier s (p.out.map raise) }) } }

/-- Starts a fetch, or raises the one under way (R165, R173, R174). -/
def startFetch (s : State) (prio : Prio) (obj : ObjRef) (key pieces : Nat) (replicas : List Nat) (waiter : Option (Nat × Nat)) : State :=
  match Tab.find s.mem.fetches key with
  | some f =>
    let f := { f with protect := f.protect || decide (prio = .prefetch) }
    if prio = .demand ∧ f.prio ≠ .demand then raiseAsks (putFetch s key { f with prio := .demand }) f.req
    else putFetch s key f
  | none =>
    let n := freshObj s
    let f : Fetch := ⟨prio, obj, key, pieces, replicas, 0, s.time, n.1, [], [], [], [], [], 0, none, waiter, decide (prio = .prefetch)⟩
    let s1 := match prio with | .demand => bump n.2 (.tier 2) | .prefetch => bump n.2 (.tier 3) | .copy => n.2
    askPieces (putFetch s1 key f) f 0 (List.range pieces)

/-- Pieces of a tile as it travels. -/
def tilePieces (t : Tile) : Nat := tileGranules t + 1

/-- Asks for a REMOTE tile's content, or for that of a BACKED tile whose copy in T1 is poisoned (R172 to R174, R178). A REMOTE tile
needs room first; without room nothing is asked. -/
def fetchTile (s : State) (prio : Prio) (oid : Nat) : State :=
  match getTile s oid with
  | none => s
  | some t =>
    let nodes := t.replicas.map Replica.node
    if t.lost then s
    else match t.tier with
      | .fetching => startFetch s prio (.tile oid) t.objKey (tilePieces t) nodes none
      | .remote =>
        match allocTenant s t.tenant (homeDie s t.tenant t.stream) (tileGranules t) (bodyCharge (tileGranules t)) true with
        | (.took die body hdr, s1) =>
          startFetch (putTile s1 oid { t with tier := .fetching, die := die, body := body, hdr := hdr }) prio (.tile oid) t.objKey
            (tilePieces t) nodes none
        | (.refused _, s1) => s1
      | .backed => if t.poisoned then startFetch s prio (.tile oid) t.objKey (tilePieces t) nodes none else s
      | _ => s

/-- How a fetch stands after something happened to it. -/
inductive FetchEnd where
  | ongoing
  | complete
  | poisonedAll
  | stalled
  deriving DecidableEq, Repr

/-- After a failure: what is missing is asked of the next replica; where a piece has no replica left the round ends, in poison or
to be tried again (R175 to R177). -/
def fetchNext (s : State) (key : Nat) (pieces : List Nat) : FetchEnd × State :=
  match Tab.find s.mem.fetches key with
  | none => (.ongoing, s)
  | some f =>
    if pieces.any (fun i => leftFor f i = []) then
      -- poison from every replica that answered (R176)
      if f.poisonFrom ≠ [] ∧ (f.answered ++ f.goneFrom).all f.poisonFrom.contains then (.poisonedAll, delFetch s key)
      else
        let s1 := putFetch s key { f with retryAt := some (s.time + 1000000), round := f.round + 1 }
        (.stalled, s1)
    else
      let rs := dedup (pieces.map (fun i => (leftFor f i).headD 0))
      let s1 := rs.foldl (fun s r => bump (askPieces s f r (pieces.filter (fun i => (leftFor f i).headD 0 == r))) (.tier 5)) s
      (.ongoing, putFetch s1 key { f with cur := rs.headD f.cur, asked := s.time })

/-- DATA of replica node `node` for a fetch: pieces from `first` on (R175). -/
def fetchPieces (s : State) (key node first : Nat) (pieces : List (List Byte)) : FetchEnd × State :=
  match Tab.find s.mem.fetches key with
  | none => (.ongoing, s)
  | some f =>
    match (List.range f.replicas.length).find? (fun r => f.replicas.getD r 0 == node) with
    | none => (.ongoing, s)
    | some r =>
      let res := ((List.range pieces.length).zip pieces).map (fun p => (first + p.1, checkPiece p.2))
      let good := res.filterMap (fun p => p.2.map (fun d => (p.1, d)))
      let bad := (res.filter (fun p => p.2.isNone)).map Prod.fst
      let s1 := addCtr (addCtr s (.tier 4) (sumBy (fun p => p.2.length) good)) (.tier 6) bad.length
      let f1 := { f with got := good.foldl (fun g p => Tab.put g p.1 p.2) f.got, failed := f.failed ++ bad.map (fun i => (i, r)),
                         answered := dedup (r :: f.answered),
                         poisonFrom := if bad = [] then f.poisonFrom else dedup (r :: f.poisonFrom), asked := s.time }
      let s2 := putFetch s1 key f1
      if bad ≠ [] then fetchNext s2 key bad
      else if missingPieces f1 = [] then (.complete, s2)
      else (.ongoing, s2)

/-- A replica answered NOT_HELD (R175). -/
def fetchGone (s : State) (key node : Nat) : FetchEnd × State :=
  match Tab.find s.mem.fetches key with
  | none => (.ongoing, s)
  | some f =>
    match (List.range f.replicas.length).find? (fun r => f.replicas.getD r 0 == node) with
    | none => (.ongoing, s)
    | some r =>
      let f1 := { f with goneFrom := dedup (r :: f.goneFrom) }
      fetchNext (putFetch s key f1) key (missingPieces f1)

/-- The whole attempt on the replica being asked fails: no data in time, or authentication (R175). -/
def fetchAttemptFails (s : State) (key : Nat) (auth : Bool) : FetchEnd × State :=
  match Tab.find s.mem.fetches key with
  | none => (.ongoing, s)
  | some f =>
    let all := List.range f.pieces
    let f1 := { f with got := if auth then [] else f.got }
    let ps := missingPieces f1
    let f2 := { f1 with failed := f1.failed ++ (if auth then all else ps).map (fun i => (i, f.cur)),
                        poisonFrom := if auth then dedup (f.cur :: f.poisonFrom) else f.poisonFrom }
    fetchNext (putFetch (if auth then bump s (.tier 7) else s) key f2) key ps

/-- A new round over the replicas (R177). -/
def fetchAgain (s : State) (key : Nat) : State :=
  match Tab.find s.mem.fetches key with
  | none => s
  | some f =>
    let f1 := { f with cur := 0, failed := [], answered := [], poisonFrom := [], goneFrom := [], retryAt := none, asked := s.time }
    askPieces (putFetch s key f1) f1 0 (missingPieces f1)

/-- The bytes of a complete fetch: the header block and the body. -/
def fetchBytes (f : Fetch) : List Byte × List Byte :=
  (Tab.get f.got [] 0, ((List.range (f.pieces - 1)).map (fun i => Tab.get f.got [] (i + 1))).flatten)

/-- A header with SHARE_COUNT taken as zero (R34, R164). -/
def unshared (h : List Byte) : List Byte := patch h 0x10 (zeros 3)

/-- Makes `c` the difference of block `n` from what was written. -/
def putErr (s : State) (n : Nat) (c : Blk) : State := { s with mem := { s.mem with err := ErrTab.write s.mem.err n c } }

/-- Blocks that hold other bytes than they should, under check words of their own. -/
def putOther (s : State) (blocks : List Nat) (got want : List Byte) : State :=
  let line := fun (b : List Byte) (i : Nat) => BitVec.ofNat 512 (leAt b (64 * i) 64)
  (List.zip (List.range blocks.length) blocks).foldl (fun s x => putErr s x.2 (sealedBlk (line got x.1 ^^^ line want x.1))) s

/-- A complete fetch of a tile: it is BACKED again with what has come, which its first read in T1 authenticates (R165, R175, R211). The 10 ms of
protection of what a prefetch asked for, whose start R172 does not give, run from here (DESIGN CHOICE, log 87). -/
def tileFetched (s : State) (key oid : Nat) (f : Fetch) : FetchEnd × State :=
  match getTile s oid with
  | none => (.complete, delFetch s key)
  | some t =>
    let b := fetchBytes f
    match tileImage s t with
    | some (h, body) =>
      if t.tier ≠ .fetching ∧ t.tier ≠ .backed then (.complete, delFetch s key)
      else
        let t1 := { t with tier := .backed, poisoned := false, ageBase := s.time, unread := dedup ((f.cur :: f.poisonFrom).map (fun r => f.replicas.getD r 0)),
                           protectUntil := if f.protect then some (s.time + 10000000) else t.protectUntil }
        (.complete, delFetch (putOther (putTile s oid t1) (tileBlocks t) (unshared b.1 ++ b.2) (unshared h ++ body)) key)
    | none => fetchAttemptFails s key true

/-- R176: the data of a tile is poisoned in every replica. -/
def tileLostAll (s : State) (oid : Nat) : State :=
  match getTile s oid with
  | none => s
  | some t =>
    let t1 := { t with poisoned := true, lost := true, tier := if t.tier = .fetching then .remote else t.tier,
                       body := if t.tier = .fetching then [] else t.body }
    putTile s oid t1

/-- FETCH_STALLED of an object (R177, R443). -/
def stalledPayload (s : State) (f : Fetch) : List Byte :=
  match f.obj with
  | .tile o =>
    match getTile s o with
    | some t => commonPayload { tenant := t.tenant, layer := t.layer, id := t.stream, pos := t.base, aux0 := f.key }
    | none => commonPayload { aux0 := f.key }
  | .weight k _ _ => commonPayload { tenant := k.1, layer := k.2.2, id := k.2.1, aux0 := f.key }
  | _ => commonPayload { aux0 := f.key }

/-- The data that a fetch brought into T1 fails authentication at its first read: the whole object is asked of the replicas that remain (R175
to R177). -/
def refetch (s : State) (oid : Nat) (t : Tile) : State :=
  let n := freshObj s
  let nodes := t.replicas.map Replica.node
  let all := List.range (tilePieces t)
  let bad := (List.range nodes.length).filter (fun r => t.unread.contains (nodes.getD r 0))
  let f : Fetch := ⟨.demand, .tile oid, t.objKey, tilePieces t, nodes, bad.headD 0, s.time, n.1, [], (bad.map (fun r => all.map (fun i => (i, r)))).flatten,
    bad, bad, [], 0, none, none, false⟩
  let r := fetchNext (putFetch (bump n.2 (.tier 2)) t.objKey f) t.objKey all
  match r.1 with
  | .poisonedAll => tileLostAll r.2 oid
  | .stalled => raiseEvent r.2 evFetchStalled (stalledPayload r.2 f)
  | _ => r.2

/-- R176: a weight set becomes UNAVAILABLE, and the host is told. -/
def weightsLostAll (s : State) (k : SetKey) : State :=
  match Tab.find s.mem.weights k with
  | none => s
  | some w =>
    let s1 := { s with mem := { s.mem with weights := Tab.put s.mem.weights k { w with state := .unavailable } } }
    raiseEvent s1 evLayerUnavailable (commonPayload { tenant := k.1, layer := k.2.2, id := k.2.1 })

/-! ### Copies in T2 (R163, R164, R166) -/

/-- Releases replicas of an object (R166). -/
def releaseReplicas (s : State) (tenant key : Nat) (nodes : List Nat) : State :=
  nodes.foldl (fun s n => sendTier s n tenant s.tr.origCopy (tierHeader 5 0 0 key 0 0)) s

/-- Ends any copy or fetch of a tile that goes away, and releases its replicas; a PUT of a cancelled copy that is acknowledged later is
released then (R165, R166). -/
def dropCopies (s : State) (t : Tile) : State :=
  let s1 := if (Tab.find s.mem.fetches t.objKey).isSome then delFetch s t.objKey else s
  match t.tier with
  | .copying =>
    let late := (t.replicas.filter (fun r => !r.acked)).map (fun r => (t.tenant, t.objKey, r.node))
    releaseReplicas { s1 with mem := { s1.mem with cancelled := s1.mem.cancelled ++ late } } t.tenant t.objKey
      ((t.replicas.filter Replica.acked).map Replica.node)
  | .resident => s1
  | _ => releaseReplicas s1 t.tenant t.objKey (t.replicas.map Replica.node)

/-- The pool targets of a tile in order: from the hash, distinct nodes (R164). -/
def targetsOf (s : State) (t : Tile) : List Nat :=
  let l := poolTargets s
  if l = [] then []
  else
    let i := Config.poolHash t.tenant t.stream t.layer t.base % l.length
    dedup (l.drop i ++ l.take i)

/-- Sends a tile to a node as a PUT (R164, R375). -/
def putTo (s : State) (t : Tile) (node : Nat) : State :=
  match tileImage s t with
  | none => s
  | some (h, b) =>
    sendTier s node t.tenant s.tr.origCopy (tierHeader 1 0 (tilePieces t) t.objKey 0 0 ++ (objectPieces h b).flatten)

/-- A tile may have a copy made: sealed, RESIDENT, whole (R163, R165). -/
def copyable (t : Tile) : Bool := t.isSealed && !t.poisoned && decide (t.tier = .resident)

/-- A tile may be copied now: its policy asks for it, under ON_PRESSURE as the oldest of its die, and the role allows copies (R163, R164,
R368). -/
def copyDue (s : State) (t : Tile) : Bool :=
  let p := (getTenant s t.tenant).policy
  copyable t && decide (effRole s ≠ roleShadow ∧ (getTenant s t.tenant).state ≠ .tombstone) &&
    (p == 1 || (p == 2 && decide (freePool s t.die < lowMark s t.die) &&
      s.mem.tiles.vals.all (fun x => !(copyable x && decide (x.die = t.die ∧ (getTenant s x.tenant).policy = 2 ∧ x.ageBase < t.ageBase)))))

def startCopy (s : State) (oid : Nat) : State :=
  match getTile s oid with
  | none => s
  | some t =>
    match (targetsOf s t).filter (reachable s) with
    | a :: b :: _ =>
      if !copyDue s t then s
      else
        let n := freshObj s
        let t1 := { t with tier := .copying, objKey := objectKey (ownId s) n.1, replicas := [⟨a, false, s.time⟩, ⟨b, false, s.time⟩] }
        bump (putTo (putTo (putTile n.2 oid t1) t1 a) t1 b) (.tier 1)
    | _ => s

/-- A target that does not acknowledge gives way to the next entry of the list (R164). -/
def replaceTarget (s : State) (oid node : Nat) : State :=
  match getTile s oid with
  | none => s
  | some t =>
    match t.replicas.find? (fun r => r.node == node && !r.acked) with
    | none => s
    | some r =>
      if (t.tier ≠ .copying ∧ t.tier ≠ .backed ∧ t.tier ≠ .remote) ∨ effRole s = roleShadow then s
      else
        let others := t.replicas.filter (fun x => x.node != node)
        let used := node :: others.map Replica.node
        let all := targetsOf s t
        let i := (all.findIdx (· == node)) + 1
        match ((all.drop i ++ all.take i).filter (fun n => !used.contains n && reachable s n)).head? with
        | none => putTile s oid { t with replicas := others ++ [{ r with at' := s.time }] }
        | some n => putTo (putTile s oid { t with replicas := others ++ [⟨n, false, s.time⟩] }) t n

/-- A target acknowledged: with two acknowledgements the tile is BACKED (R164, R165). -/
def replicaAcked (s : State) (oid node : Nat) : State :=
  match getTile s oid with
  | none => s
  | some t =>
    let rs := t.replicas.map (fun r => if r.node = node then { r with acked := true } else r)
    let two := decide (2 ≤ (rs.filter Replica.acked).length)
    putTile s oid { t with replicas := rs, tier := if t.tier = .copying ∧ two then .backed else t.tier }

/-! ### Retirement and moves (R41, R161) -/

/-- A tile no run lists any longer: its granules drain, its copies are released (R41, R165). -/
def retireTile (s : State) (oid : Nat) : State :=
  match getTile s oid with
  | none => s
  | some t =>
    let s1 := delTile (dropCopies s t) oid
    if t.body = [] then s1 else drainTile s1 oid t

/-- Copies a sealed tile to the other die and switches to the copy (R161). -/
def moveTile (s : State) (oid : Nat) : State :=
  match getTile s oid with
  | none => s
  | some t =>
    let dst := 1 - t.die
    if !t.isSealed ∨ t.body = [] ∨ t.poisoned ∨ t.tier = .fetching ∨ !poolFits s dst (tileGranules t) true then s
    else
      let b := takeBody s dst t.tenant (tileGranules t)
      let s2 := putTile b.2.2 oid { t with die := dst, body := b.1, hdr := b.2.1 }
      bump (drainTile s2 oid t) (.tier 11)

end Sys2Proof.Machine
end

