-- ==== Sys2Proof/Machine/Integrity.lean ====
section
/-! DEFINITION. Reads of stack blocks: classification, correction and write-back, what poison does to its object, the
MEM_UNCORRECTABLE events (09 R209 to R217). -/

namespace Sys2Proof.Machine
open Sys2Proof

/-- What holds a block (R214). -/
inductive Owner where
  | tile (oid : Nat)
  | grad (k : GradKey)
  | weight (k : SetKey) (mat : Nat) (aux : Bool)
  | loading (k : SetKey) (mat : Nat)
  | lse (k : LseKey)
  | mirror (die slot : Nat)
  | working
  | free
  | other
  deriving DecidableEq, Repr

/-- The block of the ledger mirror's record `slot`: the first granules of the die's working area, stack by stack (DESIGN CHOICE,
log 8). -/
def mirrorBlock (die slot : Nat) : Nat := let g := slot / 8; blockNo (6 * die + g % 6) (g / 6) (slot % 8)

/-- The mirror record that a block holds, if any. -/
def mirrorSlot (n : Nat) : Option (Nat × Nat) :=
  let st := blockStack n
  let slot := (blockGranule n * 6 + st % 6) * 8 + blockIdx n
  if slot < 32768 then some (st / 6, slot) else none

/-- What holds a block. A block of a tile or of kept values that a program has only prepared is `other` (DESIGN CHOICE, log 88). -/
def ownerOf (s : State) (n : Nat) : Owner :=
  let g : Gran := (blockStack n, blockGranule n)
  match mirrorSlot n with
  | some (d, k) => .mirror d k
  | none =>
    if g.2 < workGrans g.1 then .working
    else match s.mem.tiles.find? (fun t => decide (t.2.body ≠ []) && (t.2.hdr == n || t.2.body.contains g)) with
      | some t => .tile t.1
      | none => match s.mem.grads.find? (fun t => t.2.hdr == n || t.2.body.contains g) with
        | some t => .grad t.1
        | none => match s.mem.lse.find? (fun t => t.2.place.contains g) with
          | some t => .lse t.1
          | none =>
            let ws := (s.mem.weights.map (fun w => w.2.mats.map (fun m => (w.1, m.1, m.2)))).flatten
            match ws.find? (fun m => (matrixGrans m.2.2).contains g) with
            | some m => if ((m.2.2.load.map Load.place).getD []).contains g then .loading m.1 m.2.1 else .weight m.1 m.2.1 (m.2.2.auxPlace.contains g)
            | none => if (poolGrans s).contains g || (weightGrans s).contains g then .other else .free

/-- The OBJECT code, tenant, stream or set, layer and base position of R217. -/
def ownerInfo (s : State) (o : Owner) : Nat × Nat × Nat × Nat × Nat :=
  match o with
  | .tile i => match getTile s i with | some t => (0, t.tenant, t.stream, t.layer, t.base) | none => (0, 0, 0, 0, 0)
  | .grad k => (1, k.1, k.2.2.1, k.2.2.2.1, k.2.2.2.2)
  | .weight k _ _ | .loading k _ => (2, k.1, k.2.1, k.2.2, 0)
  | .lse k => (3, k.1, k.2.1, k.2.2.1, k.2.2.2)
  | .mirror _ _ => (4, 0, 0, 0, 0)
  | .working => (5, 0, 0, 0, 0)
  | .free => (6, 0, 0, 0, 0)
  | .other => (7, 0, 0, 0, 0)

/-- The payload of MEM_UNCORRECTABLE (R217). -/
def eccPayload (e : EccEvt) (count : Nat) : List Byte :=
  recordBytes [(4, blockStack e.block), (1, e.kind), (3, e.object), (8, 0), (16, Nat.min count 65535), (27, blockGranule e.block),
    (3, blockIdx e.block), (2, 0), (12, e.tenant), (20, 0), (32, e.stream), (24, e.base), (8, e.layer), (32, 0), (64, e.at')]

/-- Ends the open interval: one frame for the events beyond its first 64 (R217). -/
def closeEccWindow (s : State) : State :=
  match s.mem.eccWindow with
  | none => s
  | some (_, _, first, beyond) =>
    let s1 := { s with mem := { s.mem with eccWindow := none } }
    match first with
    | some e => raiseEvent s1 evMemUncorr (eccPayload e beyond)
    | none => s1

/-- One event of R217: sent singly, or counted beyond the limit of its interval. -/
def eccEvent (s : State) (e : EccEvt) : State :=
  let s := match s.mem.eccWindow with
    | some (t, _) => if t + 1000000 ≤ s.time then closeEccWindow s else s
    | none => s
  match s.mem.eccWindow with
  | none => raiseEvent { s with mem := { s.mem with eccWindow := some (s.time, 1, none, 0) } } evMemUncorr (eccPayload e 1)
  | some (t, n, first, beyond) =>
    if n < 64 then raiseEvent { s with mem := { s.mem with eccWindow := some (t, n + 1, first, beyond) } } evMemUncorr (eccPayload e 1)
    else bump { s with mem := { s.mem with eccWindow := some (t, n, first.or (some e), beyond + 1) } } (.mem (blockStack e.block) 3)

/-- Asks for a backed weight matrix again: the header block first, which tells its length (R171, R174, R178). -/
def fetchWeights (s : State) (prio : Prio) (k : SetKey) (mat : Nat) : State :=
  match Tab.find s.mem.weights k with
  | none => s
  | some w => match Tab.find w.mats mat with
    | none => s
    | some m => match m.backing with
      | none => s
      | some (key, nodes) => if w.state = .unavailable then s else startFetch s prio (.weight k mat 0) key 1 nodes none

def updMatrix (s : State) (k : SetKey) (mat : Nat) (f : Matrix → Matrix) : State :=
  match Tab.find s.mem.weights k with
  | none => s
  | some w => match Tab.find w.mats mat with
    | none => s
    | some m => { s with mem := { s.mem with weights := Tab.put s.mem.weights k { w with mats := Tab.put w.mats mat (f m) } } }

/-- What an uncorrectable block does to the object that holds it (R214, R178). -/
def poisonOwner (s : State) (o : Owner) : State :=
  match o with
  | .tile i => match getTile s i with
    | some t => let s1 := putTile s i { t with poisoned := true }; if t.tier = .backed then fetchTile s1 .demand i else s1
    | none => s
  | .grad k => match Tab.find s.mem.grads k with
    | some g => { s with mem := { s.mem with grads := Tab.put s.mem.grads k { g with poisoned := true } } }
    | none => s
  | .weight k mat aux =>
    let s1 := updMatrix s k mat (fun m => if aux then { m with auxPoisoned := true } else { m with poisoned := true })
    if aux then s1 else fetchWeights s1 .demand k mat
  | .loading k mat => updMatrix s k mat (fun m => { m with load := m.load.map (fun l => { l with poisoned := true }) })
  | .lse k => match Tab.find s.mem.lse k with
    | some l => { s with mem := { s.mem with lse := Tab.put s.mem.lse k { l with poisoned := true } } }
    | none => s
  | .mirror d k => { s with mem := { s.mem with mirrorLost := dedup ((d, k) :: s.mem.mirrorLost) } }
  | _ => s

/-- The object that holds a block is poisoned already. -/
def ownerPoisoned (s : State) (o : Owner) : Bool :=
  match o with
  | .tile i => ((getTile s i).map Tile.poisoned).getD true
  | .grad k => ((Tab.find s.mem.grads k).map GradCell.poisoned).getD true
  | .weight k mat aux =>
    (((Tab.find s.mem.weights k).bind (fun w => Tab.find w.mats mat)).map (fun m => if aux then m.auxPoisoned else m.poisoned)).getD true
  | .loading k mat =>
    (((Tab.find s.mem.weights k).bind (fun w => Tab.find w.mats mat)).bind Matrix.load |>.map Load.poisoned).getD true
  | .lse k => ((Tab.find s.mem.lse k).map Lse.poisoned).getD true
  | _ => true

/-- What a read of blocks found: a block uncorrectable or poisoned, a difference that only authentication shows, the counts of a
scrub summary, the first bad block, a bad block in the working area. -/
structure EccRes where
  bad : Bool
  authBad : Bool
  corrected : Nat
  uncorr : Nat
  poisoned : Nat
  newObjs : Nat
  first : Option Nat
  workHit : Bool
  deriving DecidableEq, Repr

def EccRes.zero : EccRes := ⟨false, false, 0, 0, 0, 0, none, false⟩

/-- Reads one block that the table of differences lists (R209, R212, R214, R217). `free` names its bits that no tag covers (R211, R404). -/
def readBlock (free : Nat → BitVec 512) (acc : EccRes × State) (n : Nat) : EccRes × State :=
  let r := acc.1
  let s := acc.2
  let b := ErrTab.read s.mem.err n
  let st := blockStack n
  let bad := fun (s : State) (kind : Nat) (event : Bool) =>
    let o := ownerOf s n
    let i := ownerInfo s o
    let fresh := !ownerPoisoned s o
    let s1 := { s with mem := { s.mem with lastUncorr := Tab.put s.mem.lastUncorr st ⟨n, 2 + kind, s.time⟩ } }
    let s2 := if event then eccEvent s1 ⟨kind, i.1, n, i.2.1, i.2.2.1, i.2.2.2.2, i.2.2.2.1, s.time⟩ else s1
    let s3 := if fresh then poisonOwner s2 o else match o with | .mirror _ _ => poisonOwner s2 o | _ => s2
    ((fresh, decide (o = .working)), s3)
  match classify b with
  | .clean => ({ r with authBad := r.authBad || decide (b.data &&& ~~~(free n) ≠ 0) }, s)
  | .corrected c =>
    let s1 := addHealth (bump (putErr s n c) (.mem st 0)) false 4
    ({ r with corrected := r.corrected + 1, authBad := r.authBad || decide (c.data &&& ~~~(free n) ≠ 0) },
     { s1 with mem := { s1.mem with lastCorr := Tab.put s1.mem.lastCorr st ⟨n, 1, s.time⟩ } })
  | .uncorrectable =>
    let x := bad (addHealth (bump (putErr s n (writeBack b)) (.mem st 1)) true 4096) 0 true
    ({ r with bad := true, uncorr := r.uncorr + 1, newObjs := r.newObjs + b2n x.1.1, first := r.first.or (some n),
              workHit := r.workHit || x.1.2 }, x.2)
  | .poisoned =>
    let first := !s.mem.seenPoison.contains n
    let s1 := bump { s with mem := { s.mem with seenPoison := if first then n :: s.mem.seenPoison else s.mem.seenPoison } } (.mem st 2)
    let x := bad s1 1 first
    ({ r with bad := true, poisoned := r.poisoned + 1, newObjs := r.newObjs + b2n x.1.1, first := r.first.or (some n),
              workHit := r.workHit || x.1.2 }, x.2)

/-- Reads blocks: those of the table that the list holds, in ascending order; `free` names bits that no tag covers. -/
def readBlocksFree (s : State) (free : Nat → BitVec 512) (blocks : List Nat) : EccRes × State :=
  ((s.mem.err.map Prod.fst).filter (fun n => blocks.contains n)).foldl (readBlock free) (EccRes.zero, s)

/-- Reads blocks whose every bit a tag covers. -/
def readBlocks (s : State) (blocks : List Nat) : EccRes × State := readBlocksFree s (fun _ => 0) blocks

/-- Nature flips bits of stored blocks (log 17). -/
def applyFlips (s : State) (fs : List Flip) : State := { s with mem := { s.mem with err := ErrTab.flips s.mem.err fs } }

/-- Bits of a gradient tile's block that its tag takes as zero: those of slots at or beyond VALID (R117, R404). -/
def gradFree (c : GradCell) : Nat → BitVec 512 :=
  match c.pending.or c.committed with
  | some g => bodyBits c.body (slotRanges g.kFmt g.vFmt false g.heads (headDim g.dimCode) g.valid 16)
  | none => fun _ => 0

/-- Bits of a block of an object that its tag does not cover. -/
def ownerFree (s : State) (o : Owner) : Nat → BitVec 512 :=
  match o with
  | .tile oid => match getTile s oid with | some t => tileFree t | none => fun _ => 0
  | .grad k => match Tab.find s.mem.grads k with | some c => gradFree c | none => fun _ => 0
  | _ => fun _ => 0

/-- Reads an object under the integrity code and authentication; an authentication failure poisons it (R211, R214). -/
def readObject (s : State) (o : Owner) (blocks : List Nat) : Bool × State :=
  let r := readBlocksFree s (ownerFree s o) blocks
  if r.1.bad then (true, r.2)
  else if r.1.authBad then (true, poisonOwner (bump r.2 (.tier 7)) o)
  else (false, r.2)

/-- A tile as R58 and R77 have it: no malformed pip byte, and the row sums of a ZP tile are those of its integers. -/
def tileSound (t : Tile) : Bool :=
  t.slots.all (fun x => pipsSound x.kPips && pipsSound x.vPips && (!t.zp || x.sums == headSums t.kFmt (headDim t.dimCode) x.k))

/-- A gradient tile as R58 has it. -/
def GradTile.sound (g : GradTile) : Bool := (g.k ++ g.v).all (fun q => pipsSound q.pips)

/-- A matrix as R58 and R77 have it. -/
def matSound (b : MatBody) : Bool :=
  b.rows.all (fun r => r.all (fun q => pipsSound q.pips)) && (!isInt b.fmt || b.sums == b.rows.map (spanSums b.fmt))

/-- Reads an object whose content must be sound as well: one that is not becomes poisoned (R58, R77). -/
def readSound (s : State) (o : Owner) (blocks : List Nat) (sound : Bool) : Bool × State :=
  let r := readObject s o blocks
  if r.1 ∨ sound then r else (true, poisonOwner r.2 o)

/-- Reads a tile; true where it is poisoned. -/
def readTile (s : State) (oid : Nat) : Bool × State :=
  match getTile s oid with
  | none => (true, s)
  | some t => if t.poisoned then (true, s) else readSound s (.tile oid) (tileBlocks t) (tileSound t)

/-- A tile that goes to another target is read where it lies in T1; a poisoned one is not sent, nor one that T1 does not hold (R164, R212). -/
def resendTile (s : State) (oid node : Nat) : State :=
  match getTile s oid with
  | none => s
  | some t =>
    if t.body = [] then s
    else
      let r := readTile s oid
      if r.1 then r.2 else replaceTarget r.2 oid node

/-- Reads the working copy of a matrix under its cipher records; true where it is poisoned (R77, R407). -/
def readMatrix (s : State) (k : SetKey) (mat : Nat) (m : Matrix) : Bool × State :=
  if m.poisoned then (true, s)
  else readSound s (.weight k mat false) ((m.place.map granBlocks).flatten) ((m.cur.map matSound).getD true && recsLive s k.1 (Tab.get m.recs [] 0))

def eccIntervalEffect (s : State) : State :=
  match s.mem.eccWindow with
  | none => s
  | some (t, _) => closeEccWindow (reach s (t + 1000000))

/-- ECC_EVENT_INTERVAL_END (R217). -/
def execEccEventIntervalEnd (s : State) : Host.Outcome State Fault Refusal := .next (eccIntervalEffect s)

end Sys2Proof.Machine
end

