-- ==== Sys2Proof/Machine/Operands.lean ====
section
/-! DEFINITION. Program messages and instruction words: layout, operand fields, what an instruction names, reads and writes
(10 R223 to R231, 11 R258 to R282, 12 R284 to R313). -/

namespace Sys2Proof.Machine
open Sys2Proof

/-! ### Opcodes (R258, R284) -/

/-- The opcodes that B1 defines. -/
inductive Op where
  | fence | wait | emit | ledgerRd
  | tileAppend | tileSeal | runSplice | runDrop
  | attDec | attPre | attBwd | attMerge
  | projKv | mm
  | nbEw | nbRope | nbQuant | nbAdam
  | move | prefetch
  | keyAdmit | keyRotate | keyRemove | keyStatus
  | regRd | regWr | canary | scrub
  deriving DecidableEq, Repr

/-- The opcode of a code. -/
def opOfCode (c : Nat) : Option Op :=
  match c with
  | 0x00 => some .fence | 0x01 => some .wait | 0x02 => some .emit | 0x03 => some .ledgerRd
  | 0x10 => some .tileAppend | 0x11 => some .tileSeal | 0x12 => some .runSplice | 0x13 => some .runDrop
  | 0x20 => some .attDec | 0x21 => some .attPre | 0x22 => some .attBwd | 0x23 => some .attMerge
  | 0x30 => some .projKv | 0x31 => some .mm
  | 0x40 => some .nbEw | 0x41 => some .nbRope | 0x42 => some .nbQuant | 0x43 => some .nbAdam
  | 0x50 => some .move | 0x51 => some .prefetch
  | 0x60 => some .keyAdmit | 0x61 => some .keyRotate | 0x62 => some .keyRemove | 0x63 => some .keyStatus
  | 0x70 => some .regRd | 0x71 => some .regWr | 0x72 => some .canary | 0x73 => some .scrub
  | _ => none

def opOf (w : Nat) : Option Op := opOfCode (fld w 7 0)
def funcOf (w : Nat) : Nat := fld w 15 8
def sdstOf (w : Nat) : Nat := fld w 19 16
def stwOf (w : Nat) : Bool := bitN w 20
def contOf (w : Nat) : Bool := bitN w 21
/-- The group of an opcode (R230). -/
def groupOf (w : Nat) : Nat := fld w 7 4
/-- Bit `i` of FUNC. -/
def fbit (w i : Nat) : Bool := bitN (funcOf w) i

/-- An instruction of class BANK (R258, R284): MOVE is so for WLOAD. -/
def isBank (w : Nat) : Bool :=
  match opOf w with
  | some .tileAppend | some .nbEw | some .nbRope | some .nbQuant | some .nbAdam => true
  | some .move => decide (funcOf w = 0)
  | _ => false

/-- FUNC is defined for the opcode (R258, R284). -/
def funcOk (op : Op) (f : Nat) : Bool :=
  match op with
  | .wait => decide (f ≤ 2)
  | .emit => decide (1 ≤ f ∧ f ≤ 3)
  | .tileAppend => decide (f < 16) && !(bitN f 0 && bitN f 1) && !(bitN f 2 && !bitN f 3)
  | .tileSeal | .prefetch | .regRd | .regWr | .canary | .attDec | .nbRope | .nbQuant => decide (f ≤ 1)
  | .move => decide (f ≤ 2)
  | .attPre | .attBwd => true
  | .attMerge => decide (f < 8) && !(bitN f 0 && bitN f 1)
  | .projKv =>
    let k := bitN f 3; let v := bitN f 4; let q := bitN f 5; let app := bitN f 1; let rot := bitN f 2; let md := bitN f 0
    decide (f < 128) && (k || v || q) && (!app || (k && v)) && (!rot || app || q) && !(md && (app || rot)) && (!bitN f 6 || md)
  | .mm => decide (f < 8 ∧ f % 4 ≠ 3)
  | .nbEw => decide (1 ≤ f ∧ f ≤ 11)
  | _ => decide (f = 0)

/-- The opcode and FUNC are defined for the program's minor version (R230, R231). -/
def versionOk (minor w : Nat) : Bool :=
  match opOf w with
  | none => false
  | some op => funcOk op (funcOf w) &&
    (match op with | .attBwd | .nbAdam => decide (1 ≤ minor) | .projKv => decide (1 ≤ minor) || !fbit w 0 | _ => true)

/-! ### What a word names -/

/-- The operand fields an instruction uses, the buffers it names with the KINDs that suit, and its handles. -/
structure Uses where
  fields : List (Nat × Nat)
  bufs : List (Nat × List Nat) := []
  handles : List Nat := []
  deriving DecidableEq, Repr

def kData : List Nat := [1, 2]
def kScratch : List Nat := [2]
def kOut : List Nat := [2, 3]
def kName : List Nat := [4]

/-- The used fields of an instruction word by its reference entry (R229, R259, R285). KV_BUF of R262 is checked at issue only. -/
def usesOf (op : Op) (w : Nat) : Uses :=
  match op with
  | .fence => { fields := [] }
  | .wait => { fields := [(43, 32)] }
  | .emit =>
    { fields := [(37, 35), (63, 48)] ++ (if fbit w 1 then [(34, 32)] else []),
      bufs := [(fld w 37 35, [3])] ++ (if fbit w 1 then [(fld w 34 32, kData)] else []) }
  | .ledgerRd => { fields := [(95, 32), (107, 96), (110, 108)], bufs := [(fld w 110 108, kOut)] }
  | .tileAppend =>
    { fields := [(39, 32), (94, 48), (110, 96)] ++ (if fbit w 0 then [(42, 40)] else []) ++ (if fbit w 3 then [(45, 43)] else []),
      bufs := [(fld w 36 34, kData), (fld w 39 37, kData)] ++ (if fbit w 0 then [(fld w 42 40, kData)] else []) ++
        (if fbit w 3 then [(fld w 45 43, kData)] else []),
      handles := [fld w 33 32] }
  | .tileSeal => { fields := [(33, 32), (71, 48), (95, 72)] ++ (if fbit w 0 then [] else [(47, 40)]), handles := [fld w 33 32] }
  | .runSplice => { fields := [(115, 32)], handles := [fld w 33 32, fld w 35 34] }
  | .runDrop => { fields := [(33, 32), (71, 48), (95, 72)], handles := [fld w 33 32] }
  | .attDec | .attPre =>
    { fields := [(127, 32)], bufs := [(fld w 38 36, kData), (fld w 41 39, kData), (fld w 44 42, kOut)], handles := [fld w 33 32] }
  | .attBwd =>
    { fields := [(41, 32), (127, 48)], bufs := [(fld w 38 36, kData), (fld w 41 39, kData)], handles := [fld w 33 32] }
  | .attMerge => { fields := [(37, 32), (63, 48)], bufs := [(fld w 34 32, kData), (fld w 37 35, kOut)] }
  | .projKv =>
    let md := fbit w 0; let app := fbit w 1; let rot := fbit w 2; let q := fbit w 5
    let kv := fbit w 3 || fbit w 4
    let y := !md && (!app || q)
    { fields := [(37, 32), (55, 48), (75, 64)] ++ (if md then [] else [(44, 43)]) ++ (if y then [(40, 38)] else []) ++
        (if app || md then [(42, 41)] else []) ++ (if rot then [(47, 45)] else []) ++ (if md then [(63, 60)] else [(59, 56)]) ++
        (if app || rot || md then [(103, 80)] else []) ++ (if md && kv then [(106, 104)] else []) ++ (if md && q then [(109, 107)] else []),
      bufs := [(fld w 34 32, kData), (fld w 37 35, kName)] ++ (if y then [(fld w 40 38, kScratch)] else []) ++
        (if rot then [(fld w 47 45, kData)] else []) ++ (if md && kv then [(fld w 106 104, kName)] else []) ++
        (if md && q then [(fld w 109 107, kData)] else []),
      handles := if app || md then [fld w 42 41] else [] }
  | .mm =>
    { fields := [(40, 32), (44, 43), (55, 48), (59, 56), (75, 64)],
      bufs := [(fld w 34 32, kData), (fld w 37 35, kName), (fld w 40 38, kScratch)] }
  | .nbEw =>
    { fields := [(36, 32)] ++ (if funcOf w = 6 ∨ funcOf w = 7 then [(95, 64)] else []), bufs := [(fld w 34 32, kData)] }
  | .nbRope =>
    { fields := [(39, 32), (71, 48), (82, 80), (93, 84)], bufs := [(fld w 34 32, kData), (fld w 39 37, kData)] }
  | .nbQuant =>
    { fields := [(36, 32)] ++ (if fbit w 0 then [(39, 37)] else []),
      bufs := [(fld w 34 32, kData)] ++ (if fbit w 0 then [(fld w 39 37, kData)] else []) }
  | .nbAdam =>
    { fields := [(39, 32), (48, 48), (51, 49)] ++ (if bitN w 48 then [] else [(47, 40)]),
      bufs := [(fld w 34 32, kName), (fld w 37 35, kData)] }
  | .move =>
    if funcOf w = 2 then { fields := [(47, 40), (63, 48), (66, 64)] }
    else { fields := [(34, 32)], bufs := [(fld w 34 32, kData)] }
  | .prefetch =>
    if fbit w 0 then { fields := [(47, 40), (63, 48), (66, 64)] }
    else { fields := [(33, 32), (47, 40), (71, 48), (95, 72)], handles := [fld w 33 32] }
  | .keyAdmit | .keyRotate => { fields := [(43, 32), (46, 44)], bufs := [(fld w 46 44, kData)] }
  | .keyRemove => { fields := [(43, 32)] }
  | .keyStatus => { fields := [(43, 32), (46, 44)], bufs := [(fld w 46 44, kOut)] }
  | .regRd => { fields := [if bitN w 68 then (68, 64) else (63, 32), (68, 68), (75, 72)] }
  | .regWr =>
    { fields := [if bitN w 68 then (68, 64) else (63, 32), (68, 68), (76, 76), if bitN w 76 then (127, 96) else (75, 72)] }
  | .canary =>
    { fields := [(34, 32), (55, 48)] ++ (if fbit w 0 then [] else [(37, 35), (41, 38)]), bufs := [(fld w 34 32, kOut)] }
  | .scrub => { fields := [(37, 32)], bufs := [(fld w 34 32, kData), (fld w 37 35, kOut)] }

/-- The bits that fields cover. -/
def maskOf (fs : List (Nat × Nat)) : Nat := fs.foldl (fun m f => m ||| ((2 ^ (f.1 + 1 - f.2) - 1) <<< f.2)) 0

/-- Bits [31:22] and the unused operand bits are zero (R231). -/
def reservedOk (w : Nat) : Bool :=
  match opOf w with
  | none => false
  | some op => decide (fld w 31 22 = 0) && decide (w &&& maskOf (usesOf op w).fields = (w >>> 32) <<< 32)

/-! ### The program message (R223 to R227) -/

/-- The header of a program message. -/
structure PHead where
  minor : Nat
  major : Nat
  tclass : Nat
  owner : Bool
  dlRel : Bool
  tenant : Nat
  count : Nat
  id : Nat
  deadline : Nat
  dataLen : Nat
  scratchKib : Nat
  retNode : Nat
  reserved : Bool
  deriving DecidableEq, Repr

/-- The header of a message of at least 64 bytes (R224). -/
def pheadOf (m : List Byte) : PHead :=
  let w0 := leAt m 0 4
  let w1 := leAt m 4 4
  let d := leAt m 0x10 8
  { minor := fld w0 7 0, major := fld w0 15 8, tclass := fld w0 18 16, owner := bitN w0 19, dlRel := bitN w0 20, tenant := fld w1 11 0,
    count := fld w1 28 16, id := leAt m 8 8, deadline := fld d 47 0, dataLen := leAt m 0x18 4, scratchKib := leAt m 0x1C 4 % 2048,
    retNode := leAt m 0x20 2,
    reserved := decide (fld w0 31 21 = 0 ∧ fld w1 15 12 = 0 ∧ fld w1 31 29 = 0 ∧ fld d 63 48 = 0 ∧ leAt m 0x1C 4 / 2048 = 0 ∧
      leAt m 0x22 2 = 0 ∧ leAt m 0x24 28 = 0) }

/-- A buffer descriptor from its 16 bytes (R226). -/
def bufOf (b : List Byte) : BufDesc := ⟨leAt b 0 4 % 16, leAt b 0 4 / 16 % 16, leAt b 4 4, leAt b 8 4, leAt b 12 4⟩

/-- A descriptor is well formed (R226). -/
def bufOk (dataLen scratchKib : Nat) (b : List Byte) : Bool :=
  let d := bufOf b
  let fmtOk := decide (d.fmt = 0 ∨ d.fmt = 1 ∨ d.fmt = 2 ∨ d.fmt = 15)
  let lim := if d.kind = 1 then dataLen else if d.kind = 2 then scratchKib * 1024 else 0
  decide (leAt b 0 4 / 256 = 0 ∧ d.kind ≤ 4 ∧ d.offset % 64 = 0 ∧ d.offset + d.length ≤ lim) && fmtOk && (d.kind == 4 || d.name == 0)

def bufBytesOf (m : List Byte) (i : Nat) : List Byte := slice m (64 + 0x80 + 16 * i) 16

/-- The instruction words of a message. -/
def wordsOf (m : List Byte) (n : Nat) : List Nat := (List.range n).map (fun i => leAt m (384 + 16 * i) 16)

/-- The checks of R231: the program is sound for its version. -/
def programOk (m : List Byte) : Bool :=
  let h := pheadOf m
  let bufs := (List.range 8).map (bufBytesOf m)
  let descs := bufs.map bufOf
  let handle := fun (i : Nat) => leAt m (64 + 0x100 + 8 * i) 8
  decide (h.major = 1 ∧ h.minor ≤ 2) && h.reserved && decide (leAt m (64 + 0x120) 32 = 0) &&
    (List.range 4).all (fun i => decide (handle i / 2 ^ 33 = 0)) && (!h.dlRel || h.minor == 2) &&
    decide (1 ≤ h.count ∧ h.count ≤ 4096) && decide (m.length = 384 + 16 * h.count + h.dataLen) &&
    decide (h.dataLen % 64 = 0 ∧ h.dataLen ≤ 16 * 2 ^ 20 ∧ h.scratchKib ≤ 1024) && bufs.all (bufOk h.dataLen h.scratchKib) &&
    (wordsOf m h.count).all (fun w => versionOk h.minor w && reservedOk w && (!contOf w || h.minor == 2) &&
      (match opOf w with
       | none => false
       | some op =>
         let u := usesOf op w
         u.bufs.all (fun b => b.2.contains (descs.getD b.1 ⟨0, 0, 0, 0, 0⟩).kind) && u.handles.all (fun i => bitN (handle i) 32)))

/-! ### Buffers and registers of a program -/

def BufDesc.none : BufDesc := ⟨0, 0, 0, 0, 0⟩

def Prog.buf (p : Prog) (b : Nat) : BufDesc := p.bufs.getD b BufDesc.none

/-- The bytes of a DATA or SCRATCH buffer; none of another kind. -/
def Prog.bytes (p : Prog) (b : Nat) : List Byte :=
  let d := p.buf b
  if d.kind = 1 then slice p.data d.offset d.length else if d.kind = 2 then slice p.scratch d.offset d.length else []

/-- Writes bytes at the start of a SCRATCH buffer, not past its end. -/
def Prog.writeBuf (p : Prog) (b : Nat) (bs : List Byte) : Prog :=
  let d := p.buf b
  if d.kind = 2 then { p with scratch := patch p.scratch d.offset (bs.take d.length) } else p

def Prog.scalar (p : Prog) (i : Nat) : W64 := p.scalars.getD i 0
def Prog.setScalar (p : Prog) (i : Nat) (v : W64) : Prog := { p with scalars := p.scalars.set i v }
def Prog.word (p : Prog) (k : Nat) : Nat := p.words.getD k 0
/-- The stream a handle names. -/
def Prog.stream (p : Prog) (h : Nat) : Nat := (p.handles.getD h (0, false)).1
/-- The low 16 bits of a NAME buffer: a weight-set or gradient-set ID. -/
def Prog.nameId (p : Prog) (b : Nat) : Nat := (p.buf b).name % 65536

/-- The FP32 values of a buffer in FP32 or BF16 (R259). -/
def Prog.vals (p : Prog) (b : Nat) : List F32 := bufVals (p.buf b).fmt (p.bytes b)
/-- The buffer supplies vectors: FP32 or BF16 (R259). -/
def BufDesc.vectors (d : BufDesc) : Bool := d.fmt == 15 || d.fmt == 1
/-- Elements a buffer holds. -/
def BufDesc.elems (d : BufDesc) : Nat := d.length / bufElem d.fmt
/-- The buffer holds exactly `n` elements. -/
def BufDesc.holds (d : BufDesc) (n : Nat) : Bool := decide (d.length = n * bufElem d.fmt)
/-- A buffer of KIND DATA or SCRATCH. -/
def BufDesc.source (d : BufDesc) : Bool := d.kind == 1 || d.kind == 2

/-! ### The parameter block (R84, R85, R110, R111, R490) -/

/-- A parameter block. -/
structure PBlock where
  ver : Nat
  qfmt : Nat
  pfmt : Nat
  qzp : Bool
  obf16 : Bool
  final : Bool
  keepLse : Bool
  qrot : Bool
  split : Bool
  causal : Bool
  inlined : Bool
  scale : F32
  base : F32
  dims : Nat
  gatherUs : Nat
  window : Nat
  pre : Nat
  sectCount : Nat
  sectBuf : Nat
  drafts : Nat
  qheads : Nat
  reserved : Bool
  bwd : List Byte
  deriving DecidableEq, Repr

/-- A parameter block from the first 64 bytes of a buffer; `reserved` says that its reserved fields outside bytes 0x20 to 0x3F are
zero. -/
def pblockOf (b : List Byte) : PBlock :=
  let w0 := leAt b 0 4
  let w3 := leAt b 12 4
  let w6 := leAt b 24 4
  { ver := fld w0 3 0, qfmt := if fld w0 7 4 = 0 then 4 else fld w0 7 4, pfmt := if fld w0 11 8 = 0 then 4 else fld w0 11 8,
    qzp := bitN w0 12, obf16 := bitN w0 13, final := bitN w0 14, keepLse := bitN w0 15, qrot := bitN w0 16, split := bitN w0 17,
    causal := bitN w0 18, inlined := bitN w0 19, scale := BitVec.ofNat 32 (leAt b 4 4), base := BitVec.ofNat 32 (leAt b 8 4),
    dims := fld w3 8 0, gatherUs := fld w3 25 16, window := leAt b 16 3, pre := leAt b 20 3, sectCount := fld w6 6 0,
    sectBuf := fld w6 10 8, drafts := fld w6 19 16, qheads := leAt b 28 4 % 1024,
    reserved := decide (fld w0 31 20 = 0 ∧ fld w3 15 9 = 0 ∧ fld w3 31 26 = 0 ∧ leAt b 19 1 = 0 ∧ leAt b 23 1 = 0 ∧ bitN w6 7 = false ∧
      fld w6 15 11 = 0 ∧ fld w6 31 20 = 0 ∧ leAt b 28 4 / 1024 = 0),
    bwd := slice b 32 32 }

/-- The parameter block at the start of a buffer. -/
def Prog.pblock (p : Prog) (b : Nat) : PBlock := pblockOf (p.bytes b)

/-- The rotation of a block for vectors of `d` elements: ROPE_DIMS 0 means all (R84). -/
def PBlock.rope (b : PBlock) (d : Nat) : Rope := ⟨b.base, if b.dims = 0 then d else b.dims, b.split⟩

/-- ROPE_BASE is finite and greater than 1. -/
def ropeBaseOk (x : F32) : Bool := F32.isFinite x && flt f32One x

/-- ROPE_DIMS is even and at most HEAD_DIM. -/
def ropeDimsOk (dims d : Nat) : Bool := decide (dims % 2 = 0 ∧ dims ≤ d)

/-- The checks of R490 on the block of a buffer for vectors of `d` elements. -/
def Prog.ropeBad (p : Prog) (b d : Nat) : Bool :=
  let bs := p.bytes b
  let x := pblockOf bs
  decide (bs.length < 64) || !(x.ver == 1) || !ropeBaseOk x.base || !ropeDimsOk x.dims d || !x.reserved || !x.bwd.all (· == 0)

/-- The section boundaries (R84). -/
def Prog.sections (p : Prog) (x : PBlock) : List Nat :=
  (List.range x.sectCount).map (fun i => leAt (p.bytes x.sectBuf) (4 * i) 4)

/-- Strictly ascending. -/
def ascending : List Nat → Bool
  | a :: b :: r => decide (a < b) && ascending (b :: r)
  | _ => true

/-- The checks of R85 for heads of `d` elements; `needRope` where QROT or a live run with an offset needs the base. -/
def Prog.pblockBad (p : Prog) (bytes : List Byte) (x : PBlock) (d : Nat) (needRope : Bool) : Bool :=
  let sc := x.scale
  decide (bytes.length < 64) || !(x.ver == 1) || !fmtOk x.qfmt || !(x.pfmt == 1 || x.pfmt == 2 || x.pfmt == 4) || (x.qzp && x.qfmt != 8) ||
    !F32.isFinite sc || (sc.toNat.testBit 31 && !F32.isZero sc) || (needRope && !ropeBaseOk x.base) || !ropeDimsOk x.dims d ||
    decide (1000 < x.gatherUs ∨ 64 < x.sectCount) ||
    (x.sectCount != 0 && (!(p.buf x.sectBuf).source || decide ((p.buf x.sectBuf).length < 4 * x.sectCount) ||
      !ascending (p.sections x) || (p.sections x).any (fun v => decide (2 ^ 24 ≤ v)))) ||
    decide (x.qheads = 0 ∨ 512 < x.qheads) || !x.reserved

/-- The backward fields (R110). -/
structure BwdBlock where
  ver : Nat
  gfmt : Nat
  lseSrc : Bool
  dSrc : Bool
  dqFmt : Nat
  dkvFmt : Nat
  accum : Bool
  doBuf : Nat
  odBuf : Nat
  lseBuf : Nat
  dqBuf : Nat
  gsetBuf : Nat
  reserved : Bool
  deriving DecidableEq, Repr

def bwdOf (b : List Byte) : BwdBlock :=
  let w := leAt b 0 4
  let u := leAt b 4 4
  { ver := fld w 3 0, gfmt := if fld w 7 4 = 0 then 1 else fld w 7 4, lseSrc := bitN w 8, dSrc := bitN w 9, dqFmt := fld w 11 10,
    dkvFmt := fld w 13 12, accum := bitN w 14, doBuf := fld u 2 0, odBuf := fld u 6 4, lseBuf := fld u 10 8, dqBuf := fld u 14 12,
    gsetBuf := fld u 18 16,
    reserved := decide (fld w 31 15 = 0 ∧ bitN u 3 = false ∧ bitN u 7 = false ∧ bitN u 11 = false ∧ bitN u 15 = false ∧ fld u 31 19 = 0) &&
      (b.drop 8).all (· == 0) }

/-- A gradient format code (R110): FP32, BF16, FP8 E4M3, FP8 E5M2. -/
def gradFmt (c : Nat) : Nat := match c with | 0 => 15 | 1 => 1 | 2 => 4 | _ => 3

/-- GFMT holds a code of R110. -/
def gfmtOk (c : Nat) : Bool := decide (1 ≤ c ∧ c ≤ 4)

/-! ### Tensor references (R275) -/

/-- A tensor reference. -/
structure TRef where
  kind : Nat
  buf : Nat
  fmt : Nat
  part : Nat
  id : Nat
  layer : Nat
  stream : Nat
  low : Nat
  high : Nat
  count : Nat
  domain : Nat
  reserved : Bool
  deriving DecidableEq, Repr

def trefOf (b : List Byte) : TRef :=
  let w := leAt b 0 4
  let u := leAt b 4 4
  { kind := fld w 3 0, buf := fld w 6 4, fmt := fld w 11 8, part := fld w 15 12, id := fld w 31 16, layer := fld u 7 0,
    stream := leAt b 8 4, low := leAt b 12 3, high := leAt b 16 3, count := leAt b 20 4, domain := leAt b 24 4 % 8192,
    reserved := decide (bitN w 7 = false ∧ fld u 31 8 = 0 ∧ leAt b 15 1 = 0 ∧ leAt b 19 1 = 0 ∧ leAt b 24 4 / 8192 = 0 ∧ leAt b 28 4 = 0) }

/-- References A, B and D of a reference buffer. -/
def Prog.trefs (p : Prog) (b : Nat) : TRef × TRef × TRef :=
  let bs := p.bytes b
  (trefOf (slice bs 0 32), trefOf (slice bs 32 32), trefOf (slice bs 64 32))

/-! ### The order of R235 -/

/-- Scalar registers an instruction reads. -/
def regReads (w : Nat) : List Nat :=
  match opOf w with
  | some .emit => if fbit w 0 then List.range 16 else []
  | some .regRd => if bitN w 68 then [fld w 67 64] else []
  | some .regWr => (if bitN w 68 then [fld w 67 64] else []) ++ (if bitN w 76 then [] else [fld w 75 72])
  | _ => []

/-- Scalar registers it writes. -/
def regWrites (w : Nat) : List Nat :=
  (if stwOf w then [sdstOf w] else []) ++ (match opOf w with | some .regRd => [fld w 75 72] | _ => [])

/-- A byte range of the scratch space. -/
abbrev Range := Nat × Nat

/-- The range of a buffer of a kind: 1 in the data section, 2 in the scratch space. -/
def Prog.range (p : Prog) (kind b : Nat) : List Range := let d := p.buf b; if d.kind = kind ∧ 0 < d.length then [(d.offset, d.length)] else []

/-- The ranges of a kind that an instruction writes, as its operands stand. -/
def Prog.rangeWrites (p : Prog) (kind w : Nat) : List Range :=
  match opOf w with
  | some .ledgerRd => p.range kind (fld w 110 108)
  | some .attDec | some .attPre => p.range kind (fld w 44 42)
  | some .attBwd => p.range kind (bwdOf (p.pblock (fld w 38 36)).bwd).dqBuf
  | some .attMerge => p.range kind (fld w 37 35)
  | some .projKv => if !fbit w 0 && (!fbit w 1 || fbit w 5) then p.range kind (fld w 40 38) else []
  | some .mm => p.range kind (fld w 40 38)
  | some .nbEw | some .nbRope | some .nbQuant => let d := (p.trefs (fld w 34 32)).2.2; if d.kind = 1 then p.range kind d.buf else []
  | some .keyStatus => p.range kind (fld w 46 44)
  | some .canary => p.range kind (fld w 34 32)
  | some .scrub => p.range kind (fld w 37 35)
  | _ => []

/-- The ranges of a kind that an instruction reads, as its operands stand. -/
def Prog.rangeReads (p : Prog) (kind w : Nat) : List Range :=
  match opOf w with
  | none => []
  | some op =>
    let named := ((usesOf op w).bufs.map (fun b => p.range kind b.1)).flatten
    let pb := fun (b : Nat) => let x := p.pblock b; if x.sectCount = 0 then [] else p.range kind x.sectBuf
    match op with
    | .attDec | .attPre =>
      let x := p.pblock (fld w 38 36)
      named ++ pb (fld w 38 36) ++ (if x.inlined then p.range kind (fld w 47 45) ++ p.range kind (fld w 47 45 + 1) else [])
    | .attBwd =>
      let y := bwdOf (p.pblock (fld w 38 36)).bwd
      named ++ pb (fld w 38 36) ++ p.range kind y.doBuf ++ p.range kind y.odBuf ++ (if y.lseSrc then p.range kind y.lseBuf else [])
    | .nbEw | .nbRope | .nbQuant =>
      let t := p.trefs (fld w 34 32)
      named ++ (if t.1.kind = 1 then p.range kind t.1.buf else []) ++ (if t.2.1.kind = 1 then p.range kind t.2.1.buf else [])
    | .move =>
      if funcOf w = 0 then
        let d := p.bytes (fld w 34 32)
        let u := leAt d 16 4
        named ++ p.range kind (fld u 2 0) ++ p.range kind (fld u 6 4) ++ p.range kind (fld u 10 8) ++ p.range kind (fld u 14 12)
      else named
    | _ => named

def overlap (a b : Range) : Bool := decide (a.1 < b.1 + b.2 ∧ b.1 < a.1 + a.2)

/-- A gradient set, or the weight-gradient areas of a set in a layer or in all. -/
inductive GradRes where
  | gset (id : Nat)
  | area (id : Nat) (layer : Option Nat)
  deriving DecidableEq, Repr

/-- Two names may mean the same gradient. -/
def GradRes.meets (a b : GradRes) : Bool :=
  match a, b with
  | .gset i, .gset j => i == j
  | .area i l, .area j m => i == j && (l == m || l == none || m == none)
  | _, _ => false

def TRef.grad (t : TRef) : List GradRes :=
  if t.kind = 2 then [.gset t.id] else if t.kind = 3 ∧ 6 ≤ t.part then [.area t.id (some t.layer)] else []

/-- The gradient objects an instruction writes. -/
def Prog.gradWrites (p : Prog) (w : Nat) : List GradRes :=
  match opOf w with
  | some .attBwd => [.gset (p.nameId (bwdOf (p.pblock (fld w 38 36)).bwd).gsetBuf)]
  | some .projKv => if fbit w 0 then [.area (p.nameId (fld w 37 35)) (some (fld w 55 48))] else []
  | some .nbEw | some .nbRope | some .nbQuant => (p.trefs (fld w 34 32)).2.2.grad
  | _ => []

/-- The gradient objects an instruction reads. -/
def Prog.gradReads (p : Prog) (w : Nat) : List GradRes :=
  match opOf w with
  | some .projKv => if fbit w 0 ∧ (fbit w 3 ∨ fbit w 4) then [.gset (p.nameId (fld w 106 104))] else []
  | some .nbEw | some .nbRope | some .nbQuant => let t := p.trefs (fld w 34 32); t.1.grad ++ t.2.1.grad
  | some .nbAdam => [.area (p.nameId (fld w 34 32)) (if bitN w 48 then none else some (fld w 47 40))]
  | _ => []

/-- A step that has not issued. -/
def Step.idle : Step := ⟨.idle, 0, 0, 0, false, false, 0, 0, [], [], none⟩

def Prog.step (p : Prog) (k : Nat) : Step := p.steps.getD k Step.idle

/-- The program with the scratch space as the operands of step `k` stood at its issue (R235). -/
def Prog.asOf (p : Prog) (k : Nat) : Prog := { p with scratch := (p.step k).scratch }
def Prog.isDone (p : Prog) (k : Nat) : Bool := decide ((p.step k).phase = .done)

/-- The stream and layer that a PROJ.KV appends to when it completes. -/
def Prog.lateAppend (p : Prog) (w : Nat) : Option (Nat × Nat) :=
  if opOf w = some .projKv ∧ fbit w 1 ∧ !fbit w 0 then some (p.stream (fld w 42 41), fld w 55 48) else none

/-- The streams and layers whose end an instruction looks at or changes; no layer where it means every layer. -/
def Prog.tailUses (p : Prog) (w : Nat) : List (Nat × Option Nat) :=
  match opOf w with
  | some .tileAppend => [(p.stream (fld w 33 32), some (fld w 55 48))]
  | some .projKv => ((p.lateAppend w).map (fun x => (x.1, some x.2))).toList
  | some .tileSeal | some .runDrop => [(p.stream (fld w 33 32), none)]
  | some .runSplice => [(p.stream (fld w 33 32), none), (p.stream (fld w 35 34), none)]
  | some .attDec | some .attPre => if (p.pblock (fld w 38 36)).inlined then [(p.stream (fld w 33 32), some (fld w 55 48))] else []
  | _ => []

/-- A later instruction on the end of a stream waits for an append that a projection still computes: two instructions that write one
object take effect in program order (R235; DEDUCED, log 13). -/
def Prog.tailWaits (p : Prog) (v w : Nat) : Bool :=
  match p.lateAppend v with
  | some a => (p.tailUses w).any (fun x => x.1 == a.1 && (x.2 == none || x.2 == some a.2))
  | none => false

/-- Step `e` has not completed and stands in the way of step `w` under R235. -/
def Prog.blocks (p : Prog) (e : Nat) (w : Nat) : Bool :=
  let v := p.word e
  let q := p.asOf e
  let held := match opOf v with | some .fence | some .wait => true | _ => false
  let regs := regReads w ++ regWrites w
  let rngs := p.rangeReads 2 w ++ p.rangeWrites 2 w
  let grads := p.gradReads w ++ p.gradWrites w
  held || p.tailWaits v w || (regWrites v).any (fun r => regs.contains r) || (q.rangeWrites 2 v).any (fun a => rngs.any (overlap a)) ||
    (q.gradWrites v).any (fun a => grads.any (GradRes.meets a))

/-- R235: the next instruction may issue. -/
def Prog.mayIssue (p : Prog) : Bool :=
  decide (p.next < p.words.length) &&
    (List.range p.next).all (fun e => p.isDone e || !p.blocks e (p.word p.next))

/-- The detection mode of a BANK step: that of the first WAIT with MODE 1 or 2 that names it (R288). -/
def Prog.polled (p : Prog) (k : Nat) : Bool :=
  match p.words.find? (fun w => decide (opOf w = some .wait ∧ funcOf w ≠ 0 ∧ fld w 43 32 = k)) with
  | some w => decide (funcOf w = 2)
  | none => false

/-! ### The scrub descriptor (R313) -/

/-- The scrub descriptor (R313). -/
structure ScrubDesc where
  scope : Nat
  allLayers : Bool
  layer : Nat
  tenant : Nat
  stack : Nat
  first : Nat
  count : Nat
  stream : Nat
  low : Nat
  high : Nat
  setId : Nat
  reserved : Bool
  deriving DecidableEq, Repr

def scrubDescOf (b : List Byte) : ScrubDesc :=
  let w := leAt b 0 4
  let sc := fld w 1 0
  let raw := decide (leAt b 4 4 = 0 ∧ leAt b 8 4 = 0 ∧ leAt b 12 4 = 0)
  let range := decide (leAt b 16 4 = 0 ∧ leAt b 20 4 = 0 ∧ leAt b 24 4 = 0)
  let layers := !bitN w 2 && decide (fld w 15 8 = 0)
  { scope := sc, allLayers := bitN w 2, layer := fld w 15 8, tenant := fld w 27 16, stack := leAt b 4 4 % 16, first := leAt b 8 4 % 2 ^ 27,
    count := leAt b 12 4, stream := leAt b 16 4, low := leAt b 20 3, high := leAt b 24 3, setId := leAt b 28 2,
    reserved := decide (fld w 7 3 = 0 ∧ fld w 31 28 = 0 ∧ leAt b 4 4 / 16 = 0 ∧ leAt b 8 4 / 2 ^ 27 = 0 ∧ leAt b 23 1 = 0 ∧ leAt b 27 1 = 0 ∧
        leAt b 30 2 = 0) &&
      (sc == 0 || raw) && (sc == 1 || range) && (sc == 3 || decide (leAt b 28 2 = 0)) && (sc == 1 || sc == 3 || layers) &&
      (sc != 0 || decide (fld w 27 16 = 0)) && (!bitN w 2 || decide (fld w 15 8 = 0)) }

end Sys2Proof.Machine
end

