-- ==== Sys2Proof/Machine/Directory.lean ====
section
/-! DEFINITION. The run directory: lookups, staging and shifts, the group steps of a commit, discard and purge (06 R132 to R153). -/

namespace Sys2Proof.Machine
open Sys2Proof

/-- Rows of a half (R132). -/
def rowCount : Nat := 65536

/-- The pre-filter tag (R137). -/
def dirTag (t st : Nat) : Nat :=
  fld st 7 0 ^^^ fld st 15 8 ^^^ fld st 23 16 ^^^ fld st 31 24 ^^^ fld t 7 0 ^^^ (fld t 11 8 * 0x11)

/-- The entry key of R140 as one number. -/
def entryKey (t st low : Nat) : Nat := (t * 2 ^ 32 + st) * 2 ^ 32 + low

def Row.key (r : Row) : Nat := entryKey r.tenant r.stream r.low
def Row.compared (r : Row) : Bool := r.state != .staged
def Row.of (r : Row) (t st : Nat) : Bool := r.tenant == t && r.stream == st

/-- A row as staging writes it (R141). -/
def StageReq.row (q : StageReq) : Row :=
  { low := q.low, high := q.high, stream := q.stream, tenant := q.tenant, tag := dirTag q.tenant q.stream, state := .staged, remove := false,
    shadow := false, result := q.result, ctx := q.ctx, shadowHigh := 0, shadowResult := 0 }

/-- Puts a row at a free row number of a sorted list. -/
def rowInsert (rows : List (Nat × Row)) (n : Nat) (r : Row) : List (Nat × Row) :=
  match rows with
  | [] => [(n, r)]
  | x :: rest => if n < x.1 then (n, r) :: x :: rest else x :: rowInsert rest n r

/-- The end of the block of rows that stand without a gap from `n` on. -/
def gapAfter (rows : List (Nat × Row)) (n : Nat) : Nat := rows.foldl (fun m x => if x.1 = m then m + 1 else m) n

/-- The row number below which the block that ends with `n` begins, counted as `n` less its length. -/
def gapBefore (rows : List (Nat × Row)) (n : Nat) : Nat := rows.foldr (fun x m => if x.1 + 1 = m then m - 1 else m) n

/-- R141: the rows with a new one staged, and how many rows the shift moved; none where the half is full. -/
def stageRow (rows : List (Nat × Row)) (r : Row) : Option (List (Nat × Row) × Nat) :=
  let j := ((rows.find? (fun x => decide (r.key < x.2.key))).map Prod.fst).getD rowCount
  let used := fun (n : Nat) => rows.any (fun x => x.1 == n)
  if 0 < j ∧ !used (j - 1) then some (rowInsert rows (j - 1) r, 0)
  else
    let f := gapAfter rows j
    if f < rowCount then
      some (rowInsert (rows.map (fun x => if j ≤ x.1 ∧ x.1 < f then (x.1 + 1, x.2) else x)) j r, f - j)
    else
      let g := gapBefore rows j
      if g = 0 then none
      else some (rowInsert (rows.map (fun x => if g ≤ x.1 ∧ x.1 < j then (x.1 - 1, x.2) else x)) (j - 1) r, j - g)

/-- Rows and requests of a tenant over both halves (R151). -/
def dirUsed (s : State) (t : Nat) : Nat :=
  sumBy (fun h => let x := getHalf s h
    (x.rows.filter (fun r => r.2.tenant == t)).length + ((x.queue ++ x.waiting).filter (fun q => q.tenant == t)).length) [0, 1]

/-- Rows that are not FREE, requests counted. -/
def halfUsed (s : State) (h : Nat) : Nat := let x := getHalf s h; x.rows.length + x.queue.length + x.waiting.length

/-- Rows of a stream over both halves with their half, in order; requests stand as the STAGED rows they will be. -/
def streamEntries (s : State) (t st : Nat) : List (Nat × Row) :=
  sortBy (fun a b => decide (a.2.low ≤ b.2.low)) (([0, 1].map (fun h => let x := getHalf s h
    ((x.rows.map Prod.snd).filter (fun r => r.of t st) ++ ((x.queue ++ x.waiting).filter (fun q => q.tenant == t && q.stream == st)).map StageReq.row).map
      (fun r => (h, r)))).flatten)

/-- The home half of a stream that holds an entry (R132). -/
def homeHalf (s : State) (t st : Nat) : Option Nat := (streamEntries s t st).head?.map Prod.fst

/-- The half that a new entry of a stream goes to: its home half, else that of its tiles' die, or the other if that one is full
(R132, R150). -/
def halfFor (s : State) (t st : Nat) : Option Nat :=
  match homeHalf s t st with
  | some h => if halfUsed s h < rowCount then some h else none
  | none =>
    let h := homeDie s t st
    if halfUsed s h < rowCount then some h else if halfUsed s (1 - h) < rowCount then some (1 - h) else none

/-- Streams present on the node, requests counted (R26). -/
def streamCount (s : State) : Nat :=
  (dedup ([0, 1].map (fun h => let x := getHalf s h
    x.rows.map (fun r => (r.2.tenant, r.2.stream)) ++ (x.queue ++ x.waiting).map (fun q => (q.tenant, q.stream)))).flatten).length

/-! ### Lookups (R138, R139) -/

/-- Rows that a lookup compares. -/
def comparedRows (x : Half) (t st : Nat) : List Row := (x.rows.map Prod.snd).filter (fun r => r.compared && r.tag == dirTag t st)

/-- The outcome of a lookup (R138). -/
def lookupOutcome (x : Half) (l : Lookup) : Outcome138 :=
  let rs := (comparedRows x l.tenant l.stream).filter (fun r => r.of l.tenant l.stream)
  if rs.any (fun r => r.state == .pending) then .pending
  else .rows (rs.filter (fun r => r.state == .valid && decide (r.low ≤ l.high ∧ l.low ≤ r.high)))

/-- One lookup with its counts; a repeat counts in REPEATS alone (log 14). -/
def lookupEffect (s : State) (h req : Nat) (l : Lookup) (again : Bool) : State :=
  let x := getHalf s h
  let o := lookupOutcome x l
  let s1 := addCtr s (.dirPf h) (comparedRows x l.tenant l.stream).length
  let s2 := bump s1 (.dirStat h (if again then 2 else 0))
  let s3 := if o = .pending then bump s2 (.dirStat h 1) else s2
  putHalf s3 h { x with outcomes := Tab.put x.outcomes req o,
                        lookups := if o = .pending then Tab.put x.lookups req l else Tab.del x.lookups req }

/-! ### Group steps (R144) -/

/-- A row that a context holds. -/
def Row.heldBy (r : Row) (c : Nat) : Bool := r.ctx == c && (r.state != .valid || r.remove || r.shadow)

/-- Step 1 on one half. -/
def groupInvalidate (s : State) (h c : Nat) : State :=
  let x := getHalf s h
  putHalf s h { x with rows := x.rows.map (fun r => if r.2.heldBy c then (r.1, { r.2 with state := .pending }) else r) }

/-- Streams that a context's rows touch on one half. -/
def touched (s : State) (h c : Nat) : List (Nat × Nat) :=
  dedup (((getHalf s h).rows.filter (fun r => r.2.heldBy c)).map (fun r => (r.2.tenant, r.2.stream)))

/-- A stream that the context touches is inside the quiet window of an earlier commit (R145). -/
def quietFor (s : State) (h c : Nat) : Bool :=
  let q := (getHalf s h).quiet
  ((getHalf s h).rows.any (fun r => r.2.heldBy c && r.2.state != .pending && q.contains (r.2.tenant, r.2.stream)))

/-- The descriptor of a freed row leaves: own tiles retire or borrowed ones lose a share; it is read by issued plies a while longer
(R41, R135, R297). -/
def lowerShare (s : State) (oid : Nat) : State :=
  match getTile s oid with
  | none => s
  | some t =>
    let s1 := putHeader s oid { t with share := t.share - 1 }
    if t.share ≤ 1 ∧ t.retired then retireTile s1 oid else s1

def unlistOwn (s : State) (oid : Nat) : State :=
  match getTile s oid with
  | none => s
  | some t => if t.share = 0 then retireTile s oid else putTile s oid { t with retired := true }

/-- Drops a descriptor and what it lists. -/
def dropDesc (s : State) (d : Nat) : State :=
  match getDesc s d with
  | none => s
  | some r =>
    let s1 := r.tiles.foldl (fun s t => if r.borrowed then lowerShare s t.2 else unlistOwn s t.2) s
    drainAfter s1 ⟨r.tenant, false, [], none, some d, []⟩

/-- A descriptor leaves; what it lists stays (R135). -/
def replaceDesc (s : State) (d : Nat) : State :=
  match getDesc s d with
  | none => s
  | some r => drainAfter s ⟨r.tenant, false, [], none, some d, []⟩

/-- A descriptor gives way to another, which lists the tiles it lists (R135, R149). -/
def switchDesc (s : State) (d new : Nat) : State :=
  match getDesc s d, getDesc s new with
  | some r, some n => replaceDesc (putDesc s new { n with tiles := r.tiles }) d
  | _, _ => s

/-- Kept logsumexp values are freed. -/
def freeLse (s : State) (p : LseKey → Bool) : State :=
  { s with mem := { s.mem with lse := s.mem.lse.filter (fun x => !p x.1) } }

/-- A dropped run's row is FREE: its descriptor goes, and the values kept at its positions (R108, R144, R297). -/
def dropRow (s : State) (r : Row) : State :=
  freeLse (dropDesc s r.result) (fun k => k.1 == r.tenant && k.2.1 == r.stream && decide (r.low ≤ k.2.2.2 ∧ k.2.2.2 ≤ r.high))

/-- Steps 2 and 3 on one half, and the quiet window that follows (R144, R145). -/
def groupWrite (s : State) (h c : Nat) : State :=
  let x := getHalf s h
  let mine := x.rows.filter (fun r => r.2.ctx == c && r.2.state == .pending)
  let ts := dedup (mine.map (fun r => (r.2.tenant, r.2.stream)))
  let rows := (x.rows.filter (fun r => !(r.2.ctx == c && r.2.state == .pending && r.2.remove))).map (fun r =>
    if r.2.ctx == c && r.2.state == .pending then
      (r.1, { r.2 with state := .valid, high := if r.2.shadow then r.2.shadowHigh else r.2.high,
                       result := if r.2.shadow then r.2.shadowResult else r.2.result, shadow := false })
    else r)
  let s1 := putHalf s h { x with rows := rows, quiet := dedup (x.quiet ++ ts) }
  let s2 := (mine.filter (fun r => r.2.remove)).foldl (fun s r => dropRow s r.2) s1
  (mine.filter (fun r => r.2.shadow && !r.2.remove)).foldl (fun s r => switchDesc s r.2.result r.2.shadowResult) s2

/-- What a context staged and marked is undone (R144); its staged descriptors go. -/
def dirDiscard (s : State) (c : Nat) : State :=
  [0, 1].foldl (fun s h =>
    let x := getHalf s h
    let gone := (x.rows.filter (fun r => r.2.ctx == c && r.2.state == .staged)).map (fun r => r.2.result) ++
      (x.rows.filter (fun r => r.2.ctx == c && r.2.state == .valid && r.2.shadow)).map (fun r => r.2.shadowResult) ++
      ((x.queue ++ x.waiting).filter (fun q => q.ctx == c)).map StageReq.result
    let rows := (x.rows.filter (fun r => !(r.2.ctx == c && r.2.state == .staged))).map (fun r =>
      if r.2.ctx == c && r.2.state == .valid then (r.1, { r.2 with remove := false, shadow := false }) else r)
    gone.foldl delDesc (putHalf s h { x with rows := rows, queue := x.queue.filter (fun q => q.ctx != c),
                                             waiting := x.waiting.filter (fun q => q.ctx != c) })) s

/-- The tenant purge of R152: the rows go, and their descriptors under R135. -/
def dirPurge (s : State) (t : Nat) : State :=
  [0, 1].foldl (fun s h =>
    let x := getHalf s h
    let gone := x.rows.filter (fun r => r.2.tenant == t)
    let s1 := putHalf s h { x with rows := x.rows.filter (fun r => r.2.tenant != t), queue := x.queue.filter (fun q => q.tenant != t),
                                   waiting := x.waiting.filter (fun q => q.tenant != t), quiet := x.quiet.filter (fun q => q.1 != t) }
    gone.foldl (fun s r => replaceDesc s r.2.result) s1) s

/-! ### Marks (R147) -/

/-- Changes the rows of a half that meet a condition. -/
def mapRows (s : State) (h : Nat) (p : Row → Bool) (f : Row → Row) : State :=
  let x := getHalf s h
  putHalf s h { x with rows := x.rows.map (fun r => if p r.2 then (r.1, f r.2) else r),
                       queue := x.queue.map (fun q => if p q.row then { q with high := (f q.row).high, result := (f q.row).result } else q),
                       waiting := x.waiting.map (fun q => if p q.row then { q with high := (f q.row).high, result := (f q.row).result } else q) }

/-- Another context holds a VALID row. -/
def Row.heldElse (r : Row) (c : Nat) : Bool := r.state == .valid && (r.remove || r.shadow) && r.ctx != c

/-- The range of an entry as a program in context `c` counts it, if it is there for it (R147). -/
def Row.seen (r : Row) (c : Nat) : Option (Nat × Nat) :=
  if r.ctx = c ∧ r.state = .valid ∧ r.remove then none
  else if r.ctx = c ∧ r.state = .valid ∧ r.shadow then some (r.low, r.shadowHigh)
  else some (r.low, r.high)

def Row.cuts (r : Row) (c low high : Nat) : Bool :=
  match r.seen c with
  | some (a, b) => decide (a ≤ high ∧ low ≤ b)
  | none => false

/-- Queues a staging request for an instruction: it waits in the control complex (R143). -/
def askStage (s : State) (h : Nat) (q : StageReq) : State :=
  let x := getHalf s h
  putHalf s h { x with waiting := x.waiting ++ [q] }

/-- A row or request that a context has itself staged is FREE again at once, its descriptor with it (R147). -/
def unstageRow (s : State) (h c desc : Nat) : State :=
  let x := getHalf s h
  let here := fun (r : Row) => r.ctx == c && r.state == .staged && r.result == desc
  delDesc (putHalf s h { x with rows := x.rows.filter (fun r => !here r.2), queue := x.queue.filter (fun q => !here q.row),
                                waiting := x.waiting.filter (fun q => !here q.row) }) desc

/-- A descriptor pointer nothing uses: 32-byte slots of die SRAM from 0x0010_0000 (DESIGN CHOICE, log 8). -/
def freshDesc (s : State) : Nat :=
  0x100000 + 32 * kthFree (s.mem.descs.keys.map (fun d => (d - 0x100000) / 32)) 0

/-! ### Commands -/

/-- A commit whose group steps a repeat must find done (R145): contexts with PENDING rows of the stream. -/
def pendingCtxs (s : State) (h t st : Nat) : List Nat :=
  dedup (((getHalf s h).rows.filter (fun r => r.2.of t st && r.2.state == .pending)).map (fun r => r.2.ctx))

def dirLookupEffect (s : State) (h req t st low high : Nat) : State :=
  if high < low ∨ 1 < h then s else lookupEffect s h req ⟨t, st, low, high⟩ false

/-- DIR_LOOKUP (R138). -/
def execDirLookup (h req t st low high : Nat) (s : State) : Host.Outcome State Fault Refusal := .next (dirLookupEffect s h req t st low high)

def dirLookupRepeatEffect (s : State) (h req : Nat) : State :=
  match Tab.find (getHalf s h).lookups req with
  | none => s
  | some l =>
    let s1 := (pendingCtxs s h l.tenant l.stream).foldl (fun s c => groupWrite s h c) s
    lookupEffect s1 h req l true

/-- DIR_LOOKUP_REPEAT (R139, R145). -/
def execDirLookupRepeat (h req : Nat) (s : State) : Host.Outcome State Fault Refusal := .next (dirLookupRepeatEffect s h req)

def dirStagingRequestEffect (s : State) (h : Nat) : State :=
  let x := getHalf s h
  match x.waiting with
  | q :: r => if x.queue.length < 64 then putHalf s h { x with queue := x.queue ++ [q], waiting := r } else s
  | [] => s

/-- DIR_STAGING_REQUEST (R143). -/
def execDirStagingRequest (h : Nat) (s : State) : Host.Outcome State Fault Refusal := .next (dirStagingRequestEffect s h)

def spreadEffect (s : State) (h : Nat) : State :=
  let x := getHalf s h
  let n := x.rows.length
  if x.queue ≠ [] ∨ n = 0 then s
  else
    let rows := ((List.range n).zip x.rows).map (fun p => (p.1 * rowCount / n, p.2.2))
    -- a move takes a row one row further, in one cycle (log 14)
    let moved := (List.zipWith (fun (a b : Nat × Row) => (a.1 - b.1) + (b.1 - a.1)) rows x.rows).foldl (· + ·) 0
    addCtr (putHalf s h { x with rows := rows }) (.dirStat h 5) moved

/-- DIR_SPREADING_PASS (R143). -/
def execDirSpreadingPass (h : Nat) (s : State) : Host.Outcome State Fault Refusal := .next (spreadEffect s h)

end Sys2Proof.Machine
end

