-- ==== Sys2Proof/Machine/Canary.lean ====
section
/-! DEFINITION. Canaries, retirement of cores, spares and degraded clusters (12 R312, 17 R425, R435 to R440, R447). -/

namespace Sys2Proof.Machine
open Sys2Proof

/-- The reading of a monitor; MON_VAL resets to 0. -/
def monVal (s : State) (k i : Nat) : BitVec 16 := Tab.get s.mon.vals 0 (k, i)

/-- The monitors near a core: those of its cluster (R425). -/
def nearTemps (c : Nat) : List Nat := (List.range 9).map (fun i => c / 4 * 48 + c % 4 * 9 + i)
def nearVolts (c : Nat) : List Nat := (List.range 3).map (fun i => c / 4 * 24 + c % 4 * 3 + i)
def nearProcs (c : Nat) : List Nat := (List.range 6).map (fun i => c / 4 * 32 + c % 4 * 6 + i)

/-- TEMP_MAX near a core, in 1/16 °C (R312). -/
def tempMax (s : State) (c : Nat) : Int :=
  match (nearTemps c).map (fun i => (monVal s 0 i).toInt) with | [] => 0 | x :: r => r.foldl max x
/-- VOLT_MIN near a core, in mV (R312). -/
def voltMin (s : State) (c : Nat) : Nat :=
  match (nearVolts c).map (fun i => (monVal s 1 i).toNat) with | [] => 0 | x :: r => r.foldl Nat.min x
/-- PROC: the mean ring count near a core (R312), rounded down. -/
def procMean (s : State) (c : Nat) : Nat := sumBy (fun i => (monVal s 2 i).toNat) (nearProcs c) / 6

/-- Bytes 0x20 to 0x27 of a canary record (R312). -/
def readingsOf (s : State) (c load : Nat) : Nat :=
  packFields [(16, twos 16 (tempMax s c)), (16, voltMin s c), (16, procMean s c), (8, load), (8, 0)]

/-- A canary record (R312). -/
def canaryRecord (s : State) (r : CanaryRun) (suite : Nat) (spare isMatch retire : Bool) : List Byte :=
  recordBytes [(3, r.cluster), (4, r.pcore), (1, b2n spare), (8, suite), (1, b2n isMatch), (1, b2n retire), (14, 0), (32, r.runNs),
    (64, r.digest.toNat), (64, (Config.goldenDigest suite).toNat), (64, s.time), (64, readingsOf s r.cluster r.load), (192, 0)]

/-- Records a retirement in the list of the boot flash (R440). -/
def flashRetire (s : State) (c p : Nat) : State :=
  { s with boot := { s.boot with flashRetired := (List.range 8).map (fun i =>
      let m := s.boot.flashRetired.getD i 0; if i = c then m ||| BitVec.ofNat 9 (2 ^ p) else m) } }

/-- A core is retired already. -/
def isRetired (s : State) (c p : Nat) : Bool := (spareMap s c).retired.toNat.testBit p

/-- Retires a core: a spare leaves its cluster without one at once; an active core waits for the ply boundary (R437 to R439). -/
def retireCore (s : State) (c p reason : Nat) : State :=
  if isRetired s c p ∨ 8 ≤ c ∨ 9 ≤ p then s
  else
    let m := spareMap s c
    let s1 := flashRetire s c p
    let m1 := { m with retired := m.retired ||| BitVec.ofNat 9 (2 ^ p) }
    if m.spare = p then
      let s2 := setAlert (putSpare s1 c { m1 with spare := 15 }) alCore
      raiseEvent s2 evCoreRetired (corePayload c p 15 (logicalCount s2) reason 0)
    else
      let s2 := putSpare s1 c m1
      { s2 with cores := { s2.cores with pending := s2.cores.pending ++ [((c, p), reason)] } }

/-- The mismatches of a core meet the first rule of R437: the latest RETIRE_COUNT lie within the window and their readings agree. -/
def mismatchesRetire (s : State) (ms : List Mismatch) : Bool :=
  let n := s.cores.retireCount
  let l := (ms.filter (fun m => decide (s.time ≤ m.at' + s.cores.retireWindow * 1000000000))).take n
  let span := fun (f : Mismatch → Int) => (l.map f).foldl max (l.map f |>.headD 0) - (l.map f).foldl min (l.map f |>.headD 0)
  decide (n ≤ l.length ∧ span Mismatch.temp ≤ 128 ∧ span (fun m => (m.volt : Int)) ≤ 20)

/-- Lists a record in CANARY_LOG (R436). -/
def logCanary (s : State) (rec : List Byte) : State :=
  { s with cores := { s.cores with log := Tab.put s.cores.log s.cores.head rec, head := (s.cores.head + 1) % 64 } }

/-- One canary run of a suite on a core, with what a mismatch does (R311, R436, R437): its record and the state. -/
def canaryRun (s : State) (r : CanaryRun) (suite : Nat) : List Byte × State :=
  let core : CoreId := (r.cluster, r.pcore)
  let spare := decide ((spareMap s r.cluster).spare = r.pcore)
  let ok := decide (r.digest = Config.goldenDigest suite)
  if ok then (canaryRecord s r suite spare true false, s)
  else
    let ms := ⟨s.time, tempMax s r.cluster, voltMin s r.cluster⟩ :: Tab.get s.cores.mismatches [] core
    let retire := mismatchesRetire s ms
    let rec' := canaryRecord s r suite spare false retire
    let s1 := { s with cores := { s.cores with mismatches := Tab.put s.cores.mismatches core ms,
                                               fast := Tab.put s.cores.fast core (s.time + 600000000000) } }
    let s2 := raiseEvent (setAlert (addHealth (logCanary s1 rec') true 8192) alCanary) evCanary rec'
    (rec', if retire then retireCore s2 r.cluster r.pcore 1 else s2)

/-- The period of a core's runs in ns: 1 s in the 600 s after a mismatch, else CANARY_CTL.PERIOD (R435, R436). -/
def canaryPeriod (s : State) (core : CoreId) : Nat :=
  if (Tab.find s.cores.fast core).isSome then 1000000000 else s.cores.period * 1000000000

/-- When a core's next run of suite 0 is due: at once where digests differed (R386); else the instant that its last run set; the first runs start
evenly, one every PERIOD / 72 s (R435, log 81). -/
def canaryDue (s : State) (core : CoreId) : Time :=
  if s.cores.due.contains core then s.time
  else Tab.get s.cores.nextRun ((8 * core.2 + core.1) * s.cores.period * 1000000000 / 72) core

/-- When the run can start: not before the cluster's previous run has ended (R435). -/
def canaryStart (s : State) (core : CoreId) : Time := Nat.max (canaryDue s core) (Tab.get s.cores.runEnd 0 core.1)

/-- The run takes its core within 10 ms (R435). -/
def canaryTakes (s : State) (r : CanaryRun) : Bool :=
  let core : CoreId := (r.cluster, r.pcore)
  r.taken && !(busyCores s).contains (9 * r.cluster + r.pcore) && decide (canaryStart s core ≤ Nat.max s.time (canaryDue s core) + 10000000)

/-- Notes the instant of a core's next run, and that the one that was due is over. -/
def setNextRun (s : State) (core : CoreId) (t : Time) : State :=
  { s with cores := { s.cores with nextRun := Tab.put s.cores.nextRun core t, due := s.cores.due.filter (· != core) } }

/-- A scheduled run; one that cannot take its core within 10 ms is tried again 1 s later (R435). -/
def canaryScheduledEffect (s : State) (r : CanaryRun) : State :=
  let core : CoreId := (r.cluster, r.pcore)
  if !started s ∨ 8 ≤ r.cluster ∨ 9 ≤ r.pcore ∨ isRetired s r.cluster r.pcore then s
  else if !canaryTakes s r then
    let s1 := reach s (canaryDue s core + 10000000)
    setNextRun s1 core (s1.time + 1000000000)
  else
    let s1 := reach s (canaryStart s core)
    let s2 := (canaryRun s1 r 0).2
    let s3 := { s2 with cores := { s2.cores with runEnd := Tab.put s2.cores.runEnd r.cluster (s1.time + r.runNs) } }
    setNextRun s3 core (canaryDue s core + canaryPeriod s3 core)

/-- CANARY_SCHEDULED (R435 to R437). -/
def execCanaryScheduled (r : CanaryRun) (s : State) : Host.Outcome State Fault Refusal := .next (canaryScheduledEffect s r)

def canaryFastEndEffect (s : State) (c p : Nat) : State :=
  match Tab.find s.cores.fast (c, p) with
  | none => s
  | some t => { (reach s t) with cores := { s.cores with fast := Tab.del s.cores.fast (c, p) } }

/-- CANARY_FAST_PERIOD_END (R436). -/
def execCanaryFastPeriodEnd (c p : Nat) (s : State) : Host.Outcome State Fault Refusal := .next (canaryFastEndEffect s c p)

/-- The reason for which a core waits for its ply boundary. -/
def pendingReason (s : State) (core : CoreId) : Option Nat := Tab.find s.cores.pending core

/-- The logical index that a physical core serves. -/
def lindexOf (m : SpareMap) (p : Nat) : Option Nat := (List.range 8).find? (fun i => m.map.getD i 15 == p)

def substituteEffect (s : State) (c p ns : Nat) : State :=
  let m := spareMap s c
  match pendingReason s (c, p), lindexOf m p with
  | some reason, some i =>
    if m.spare = 15 ∨ (busyCores s).contains (9 * c + p) then s
    else
      let s1 := putSpare s c { m with map := m.map.set i m.spare, spare := 15 }
      let s2 := { s1 with cores := { s1.cores with pending := Tab.del s1.cores.pending (c, p) } }
      raiseEvent (setAlert (addHealth s2 true 16384) alCore) evSpare (corePayload c p i (logicalCount s2) reason ns)
  | _, _ => s

/-- SPARE_SUBSTITUTION (R438). -/
def execSpareSubstitution (c p ns : Nat) (s : State) : Host.Outcome State Fault Refusal := .next (substituteEffect s c p ns)

/-- The effective role is DEGRADED_SERVE: ROLE_DEGRADED is sent, and an entry to it counts in the health (R368, R389, R439). -/
def degradedCheck (s : State) (before : Nat) : State :=
  if effRole s = roleDegraded then
    let s1 := if before = roleDegraded then s else addHealth s true 32768
    raiseEvent s1 evRoleDegraded (commonPayload { aux0 := logicalCount s })
  else s

def drainDegradeEffect (s : State) (c p : Nat) : State :=
  let m := spareMap s c
  match pendingReason s (c, p), lindexOf m p with
  | some reason, some i =>
    if m.spare ≠ 15 ∨ (busyCores s).contains (9 * c + p) then s
    else
      let s1 := putSpare s c { m with map := m.map.set i 15 }
      let s2 := { s1 with cores := { s1.cores with pending := Tab.del s1.cores.pending (c, p) } }
      let s3 := raiseEvent (setAlert s2 alCore) evCoreRetired (corePayload c p i (logicalCount s2) reason 0)
      degradedCheck s3 (effRole s)
  | _, _ => s

/-- CORE_DRAIN_DEGRADE (R439). -/
def execCoreDrainDegrade (c p : Nat) (s : State) : Host.Outcome State Fault Refusal := .next (drainDegradeEffect s c p)

end Sys2Proof.Machine
end

