-- ==== Sys2Proof/Machine/Shadow.lean ====
section
/-! DEFINITION. Comparison of instruction digests with a peer (15 R385 to R387). -/

namespace Sys2Proof.Machine
open Sys2Proof

/-- H(r) of R250: the first 8 bytes of SHA-256 over a record whose PROGRAM_ID, where it starts with one, is taken as zero. -/
def recordHash (pid : Bool) (r : List Byte) : Nat := leNat ((sha256 (if pid then patch r 0 (zeros 8) else r)).take 8)

/-- The node compares: it holds a peer (R385). -/
def holdsPeer (s : State) : Bool := s.fab.shEnable && decide (s.fab.shPeer ≠ 0)

/-- An instruction is sampled; `shadow` says that it issued in the SHADOW role (R369, R385). -/
def sampledDigest (s : State) (shadow : Bool) (program step : Nat) : Bool :=
  shadow || decide (leNat ((sha256 (leBytes 8 program ++ leBytes 2 step)).take 2) < s.fab.shSample)

def DigEntry.same (a b : DigEntry) : Bool := a.tenant == b.tenant && a.program == b.program && a.step == b.step

/-- Two digests of one instruction have met: a match or a mismatch (R386, R387, R389, R436). -/
def compareDigests (s : State) (mine theirs : DigEntry) : State :=
  if mine.digest = theirs.digest then
    let s1 := bump s (.shadow 0)
    if effRole s1 = roleShadow then
      let n := satAdd 32 s1.fab.shRun 1
      let w := if s1.fab.shWindow = 0 then 1 else s1.fab.shWindow
      let s2 := { s1 with fab := { s1.fab with shRun := n, promotable := s1.fab.promotable || decide (w ≤ n) } }
      if n = w ∨ (w ≤ n ∧ !s1.fab.promotable) then raiseEvent s2 evShadowReady (commonPayload { aux0 := n }) else s2
    else s1
  else
    let s1 := addHealth (bump s (.shadow 1)) true 8192
    let c := mine.cluster
    let s2 := { s1 with fab := { s1.fab with shRun := if effRole s = roleShadow then 0 else s1.fab.shRun },
                        cores := { s1.cores with due := dedup (s1.cores.due ++ ((List.range 9).filter (fun p => !isRetired s c p)).map (fun p => (c, p))) } }
    let l := drawPick s2 256
    raiseEvent l.2 evDigestMismatch (commonPayload { tenant := mine.tenant, step := mine.step, node := s.fab.shPeer, aux0 := mine.program,
                                                     aux1 := mine.digest, aux2 := theirs.digest, readings := readingsOf s c l.1 })

/-- The node forms a digest of its own (R385). -/
def noteDigest (s : State) (shadow : Bool) (d : DigEntry) : State :=
  if !holdsPeer s then s
  else
    let s1 := if sampledDigest s shadow d.program d.step then { s with fab := { s.fab with digSend := s.fab.digSend ++ [d] } } else s
    match s1.fab.digTheirs.find? (DigEntry.same d) with
    | some t => compareDigests { s1 with fab := { s1.fab with digTheirs := s1.fab.digTheirs.filter (fun x => !x.same d) } } d t
    | none => { s1 with fab := { s1.fab with digMine := s1.fab.digMine ++ [d] } }

/-- An entry of the peer arrives (R386). -/
def takeDigest (s : State) (d : DigEntry) : State :=
  match s.fab.digMine.find? (DigEntry.same d) with
  | some m => compareDigests { s with fab := { s.fab with digMine := s.fab.digMine.filter (fun x => !x.same d) } } m d
  | none => { s with fab := { s.fab with digTheirs := s.fab.digTheirs ++ [d] } }

/-- A DIGEST message, whoever sends it: COUNT is taken from bits [31:16] of the head's first word (PRESUMED, log 30). -/
def digestMessage (s : State) (m : List Byte) : State :=
  if leAt m 0 1 ≠ 9 then s
  else
    let n := leAt m 2 2
    let es := (chunks 32 (m.drop 16)).take n
    es.foldl (fun s e => if e.length < 32 then s
      else takeDigest s ⟨leAt e 16 4 % 4096, leAt e 0 8, leAt e 18 2, leAt e 8 8, s.time, 0⟩) s

/-- DIGEST (R386, R387). -/
def execDigest (node : Nat) (bytes : List Byte) (s : State) : Host.Outcome State Fault Refusal := .next (whilePlaced s node (fun s => digestMessage s bytes))

def digestEntry (d : DigEntry) : List Byte := recordBytes [(64, d.program), (64, d.digest), (12, d.tenant), (4, 0), (16, d.step), (96, 0)]

def digestSendEffect (s : State) : State :=
  if !holdsPeer s ∨ s.fab.digSend = [] then s
  else
    let s1 := { s with fab := { s.fab with digSend := [] } }
    (chunks 2047 s.fab.digSend).foldl (fun s es =>
      sendMsg s s.fab.shPeer 7 0 7 (recordBytes [(8, 9), (8, 0), (16, es.length), (96, 0)] ++ (es.map digestEntry).flatten)) s1

/-- DIGEST_SEND (R385). -/
def execDigestSend (s : State) : Host.Outcome State Fault Refusal := .next (digestSendEffect s)

def digestExpiryEffect (s : State) (tenant program step : Nat) : State :=
  let k : DigEntry := ⟨tenant, program, step, 0, 0, 0⟩
  match s.fab.digTheirs.find? (DigEntry.same k), s.fab.digMine.find? (DigEntry.same k) with
  | some d, _ =>
    let s1 := reach s (d.at' + 100000000)
    bump { s1 with fab := { s1.fab with digTheirs := s1.fab.digTheirs.filter (fun x => !x.same k) } } (.shadow 2)
  | none, some d =>
    let s1 := reach s (d.at' + 100000000)
    { s1 with fab := { s1.fab with digMine := s1.fab.digMine.filter (fun x => !x.same k) } }
  | none, none => s

/-- DIGEST_UNPAIRED_EXPIRY (R386). -/
def execDigestUnpairedExpiry (tenant program step : Nat) (s : State) : Host.Outcome State Fault Refusal :=
  .next (digestExpiryEffect s tenant program step)

end Sys2Proof.Machine
end

