-- ==== Sys2Proof/Machine/Program.lean ====
section
/-! DEFINITION. Programs: completion of instructions, failures, emitted records, the ledger, the end without commit (10 R238 to R254, 08
R203, 04 R99). -/

namespace Sys2Proof.Machine
open Sys2Proof

/-! ### The ledger (R251 to R253) -/

def ledgerSlot (lsn : Nat) : Nat × Nat := (lsn % 2, lsn / 2 % 32768)

/-- A live record: neither EMPTY nor final. -/
def Ledger.live (r : Ledger) : Bool := decide (1 ≤ r.state ∧ r.state ≤ 3)

/-- Writes a record to the ring and to its mirror slot. -/
def putLedger (s : State) (r : Ledger) : State :=
  let k := ledgerSlot r.lsn
  let s1 := clearErr s [mirrorBlock k.1 k.2]
  { s1 with pg := { s1.pg with ring := Tab.put s1.pg.ring k r, mirror := Tab.put s1.pg.mirror k r },
            mem := { s1.mem with mirrorLost := s1.mem.mirrorLost.filter (· != k) } }

/-- Changes the record of a program. -/
def updLedger (s : State) (lsn : Nat) (f : Ledger → Ledger) : State :=
  match Tab.find s.pg.ring (ledgerSlot lsn) with
  | some r => if r.lsn = lsn then putLedger s (f r) else s
  | none => s

/-- The next admission count of a die. -/
def nextCountOf (s : State) (die : Nat) : Nat := Tab.get s.pg.nextCount 1 die

/-- The first count from `c` on whose slot holds no live record (R251). -/
def freeCount (fuel : Nat) (s : State) (die c : Nat) : Nat :=
  match fuel with
  | 0 => c
  | n + 1 => if ((Tab.find s.pg.ring (die, c % 32768)).map Ledger.live).getD false then freeCount n s die (c + 1) else c

/-- Assigns an LSN. -/
def takeLsn (s : State) (die : Nat) : Nat × State :=
  let c := freeCount (s.pg.ring.length + 1) s die (nextCountOf s die)
  (2 * c + die, { s with pg := { s.pg with nextCount := Tab.put s.pg.nextCount die (c + 1) } })

/-- The 64 bytes of a record (R252). -/
def ledgerBytes (r : Ledger) : List Byte :=
  recordBytes [(64, r.program), (64, r.lsn), (12, r.tenant), (4, 0), (3, r.state), (3, r.tclass), (1, b2n r.owner), (9, 0), (16, r.lastStep),
    (16, r.stepCount), (16, r.status), (16, r.detail), (16, r.endStep), (10, r.ctx), (6, 0), (64, r.digest), (64, r.tAccept), (64, r.tEnd),
    (64, 0)]

/-- The record of a tenant and PROGRAM_ID with the highest LSN (R255). -/
def ledgerFind (s : State) (tenant id : Nat) : Option Ledger :=
  (s.pg.ring.vals.filter (fun r => r.tenant == tenant && r.program == id && r.state != 0)).foldl (fun acc r =>
    match acc with | none => some r | some a => if a.lsn < r.lsn then some r else some a) none

/-! ### Contexts -/

def getCtx (s : State) (c : Nat) : Option Prog := Tab.find s.pg.ctxs c
def putCtx (s : State) (c : Nat) (p : Prog) : State := { s with pg := { s.pg with ctxs := Tab.put s.pg.ctxs c p } }
def delCtx (s : State) (c : Nat) : State := { s with pg := { s.pg with ctxs := Tab.del s.pg.ctxs c } }
def updCtx (s : State) (c : Nat) (f : Prog → Prog) : State := match getCtx s c with | some p => putCtx s c (f p) | none => s

/-- The context of a program that runs. -/
def ctxOf (s : State) (lsn : Nat) : Option Nat := (s.pg.ctxs.find? (fun p => p.2.lsn == lsn)).map Prod.fst

/-- The deadline has passed (R241). -/
def deadlinePassed (s : State) (p : Prog) : Bool := match p.deadline with | some t => decide (t ≤ s.time) | none => false

/-! ### What a program sends (R249, R250) -/

/-- The peer that sent the program. -/
def Prog.senderKey (p : Prog) : Nat := peerKey p.sender p.seat
/-- Where its emitted records go. -/
def Prog.returnKey (p : Prog) : Nat := if p.retNode = 0 then p.senderKey else p.retNode

/-- The completion record (R249). -/
def completionBytes (id status detail endStep lsn digest : Nat) : List Byte :=
  recordBytes [(64, id), (16, status), (16, detail), (16, endStep), (16, 0), (64, lsn), (64, digest)]

def sendCompletion (s : State) (p : Prog) (e : Ending) : State :=
  sendTo s p.senderKey 2 p.tenant p.tclass (completionBytes p.id e.status e.detail e.step p.lsn p.digest)

/-- Records that step `k` of a context's program emits: they enter the digest, and leave unless the step issued in the SHADOW role
(R250, R368). `pid` says that they start with a PROGRAM_ID. -/
def emitRecords (s : State) (c k : Nat) (pid : Bool) (recs : List (List Byte)) : State :=
  match getCtx s c with
  | none => s
  | some p =>
    let h := sumBy (recordHash pid) recs % 2 ^ 64
    let d := (p.digest + h) % 2 ^ 64
    let s1 := updLedger (putCtx s c { p with digest := d }) p.lsn (fun r => { r with digest := d })
    if (p.step k).shadow then s1 else recs.foldl (fun s r => sendTo s p.returnKey 3 p.tenant p.tclass r) s1

/-- The records of a PLY-class instruction, with its instruction digest (R385). -/
def emitPly (s : State) (c k : Nat) (pid : Bool) (cluster : Nat) (recs : List (List Byte)) : State :=
  match getCtx s c with
  | none => s
  | some p =>
    let s1 := emitRecords s c k pid recs
    if recs = [] then s1 else noteDigest s1 (p.step k).shadow ⟨p.tenant, p.id, k, sumBy (recordHash pid) recs % 2 ^ 64, s.time, cluster⟩

/-- Places records in an output buffer: framed for RETURN, padded to 64 bytes each and back to back for SCRATCH (R260). -/
def placeRecords (s : State) (c b : Nat) (recs : List (List Byte)) (emit : State → List (List Byte) → State) : State :=
  match getCtx s c with
  | none => s
  | some p => if (p.buf b).kind = 3 then emit s recs else putCtx s c (p.writeBuf b ((recs.map (padTo 64)).flatten))

/-! ### Sequences and plies of a program that ends (R99, R203) -/

/-- A ply's instruction has sequences write its results: those of ATT.BWD and of PROJ.KV that appends or makes gradients (R118, R123, R125). -/
def writesByUnits (w : Nat) : Bool :=
  match opOf w with | some .attBwd => true | some .projKv => fbit w 0 || fbit w 1 | _ => false

/-- A program's sequences are issued in program order: those of a step wait while one of an earlier step waits, or that step is still in its ply
(R192). -/
def heldBack (s : State) (q : Seq) : Bool :=
  s.nb.units.vals.any (fun x => x.seqs.any (fun y => decide (y.lsn = q.lsn ∧ y.step < q.step ∧ y.state = .waiting))) ||
    (match (ctxOf s q.lsn).bind (getCtx s) with
     | none => false
     | some p => s.pg.plies.vals.any (fun x => x.members.any (fun m => m.lsn == q.lsn && decide (m.step < q.step) && writesByUnits (p.word m.step))))

/-- A sequence that its controller may issue: its unit has fewer than 8 queued (R193). After a watchdog trip none is (R430). -/
def nextIssue (s : State) : Option ((Nat × Nat) × Seq) :=
  if s.rst.wdog.isSome then none
  else s.nb.units.findSome? (fun x =>
    if 8 ≤ (x.2.seqs.filter (fun q => q.state == .queued)).length then none
    else (x.2.seqs.find? (fun q => q.state == .waiting && !heldBack s q)).map (fun q => (x.1, q)))

/-- The controller issues a sequence: it is QUEUED, last at its unit (R192, R193). -/
def queueSeq (s : State) (u : Nat × Nat) (q : Seq) : State :=
  let x := Tab.get s.nb.units Unit'.reset u
  let here := x.seqs.filter (fun y => y.state != .waiting)
  let rest := x.seqs.filter (fun y => y.state == .waiting && y != q)
  { s with nb := { s.nb with units := Tab.put s.nb.units u { x with seqs := here ++ [{ q with state := .queued, order := s.nb.nextOrder }] ++ rest },
                             nextOrder := s.nb.nextOrder + 1 } }

/-- The controllers issue what they may. -/
def issueWaiting (n : Nat) (s : State) : State :=
  match n with
  | 0 => s
  | n + 1 => match nextIssue s with | some (u, q) => issueWaiting n (queueSeq s u q) | none => s

def requeueSeqs (s : State) : State :=
  issueWaiting (sumBy (fun x => (x.seqs.filter (fun q => q.state == .waiting)).length) s.nb.units.vals) s

/-- Lane store, preemption registers and key slots are cleared (R189, R203, R205). -/
def Unit'.clear (x : Unit') : Unit' := { x with lane := [], saved := none, keys := [] }

/-- The sequence has been started and is not final. -/
def Seq.active (q : Seq) : Bool := decide (q.state = .running ∨ q.state = .yielded ∨ q.state = .preempted)

/-- A sequence that has become final stands in its unit's status word (R193 to R195); no refresh is postponed for it any longer. -/
def retireSeq (s : State) (u : Nat × Nat) (q : Seq) (final status : Nat) : State :=
  let x := Tab.get s.nb.units Unit'.reset u
  let q1 := { q with state := .final, finalState := final, status := status, doms := [], blks := [], lock := false, owed := 0 }
  let x1 := { (if q.active then x.clear else x) with seqs := x.seqs.filter (fun y => y.tag != q.tag || y.lsn != q.lsn), last := some q1 }
  let units := Tab.put s.nb.units u x1
  let more := units.vals.any (fun y => y.seqs.any (fun z => z.lsn == q.lsn && z.step == q.step))
  let key := (q.lsn, q.step)
  let nb := if more then s.nb else { s.nb with taken := Tab.del s.nb.taken key }
  let s1 := requeueSeqs { s with nb := { nb with units := units } }
  bump s1 (.nbStat u.1 (if final = 5 then 0 else if final = 6 then 1 else 2))

/-- Cancels the sequences that a condition names: those not running at once, the running ones at their next row boundary (R203). -/
def cancelSeqs (s : State) (p : Seq → Bool) (status : Nat) : State :=
  s.nb.units.foldl (fun s u =>
    (u.2.seqs.filter p).foldl (fun s q =>
      if q.state = .running then
        let x := Tab.get s.nb.units Unit'.reset u.1
        { s with nb := { s.nb with units := Tab.put s.nb.units u.1 { x with seqs := x.seqs.map (fun y => if y.tag = q.tag ∧ y.lsn = q.lsn then
          { y with cancel := some status } else y) } } }
      else retireSeq s u.1 q 7 status) s) s

/-- Takes members out of the plies; a ply being formed without members goes. -/
def dropMembers (s : State) (p : Member → Bool) : State :=
  let ps := s.pg.plies.map (fun x => (x.1, { x.2 with members := x.2.members.filter (fun m => !p m) }))
  { s with pg := { s.pg with plies := ps.filter (fun x => x.2.issued.isSome || decide (x.2.members ≠ [])) } }

/-! ### The end without commit (R239, R242, R248) -/

/-- An optimizer step on a set did not come to its commit: the set is TORN until every matrix with a master copy has been reloaded (R121,
R129, R130). -/
def WeightSet.tear (w : WeightSet) (lsn : Nat) : WeightSet :=
  { w with state := if w.state = .unavailable then .unavailable else .torn, steppers := w.steppers.filter (· != lsn),
           torn := (w.mats.filter (fun m => m.2.master.isSome)).map Prod.fst }

/-- The change belongs to an optimizer step on a set. -/
def Change.steps (ch : Change) (k : SetKey) : Bool :=
  match ch with
  | .adam k' _ _ _ _ | .torn k' => k' == k
  | _ => false

/-- The working copies that a failed optimizer step prepared are given up; its sets will be TORN when the program ends (R130). -/
def Prog.tearSets (p : Prog) (ks : List SetKey) : Prog :=
  { p with changes := p.changes.filter (fun ch => !ks.any ch.steps) ++ ks.map Change.torn }

/-- Gradient sets and areas that a program wrote return to their committed contents, and are released (R118, R125, R248). -/
def discardGrads (s : State) (p : Prog) : State :=
  let held := (s.mem.gradHold.filter (fun h => h.2 == p.lsn)).map Prod.fst
  let mine := fun (k : GradKey) => held.contains (k.1, k.2.1)
  let g := (s.mem.grads.map (fun x => if mine x.1 then (x.1, { x.2 with pending := none }) else x)).filter (fun x => x.2.committed.isSome || x.2.pending.isSome)
  let w := s.mem.weights.map (fun x =>
    let y : WeightSet := if x.2.gradHolder = some p.lsn then
        { x.2 with gradHolder := none, mats := x.2.mats.map (fun m => (m.1, { m.2 with gradPending := none, gradBiasPending := [], recs := Tab.del m.2.recs 5 })) }
      else x.2
    -- an uncommitted NB.ADAM leaves the set TORN (R121)
    (x.1, if p.changes.any (fun ch => ch.steps x.1) then y.tear p.lsn else y))
  { s with mem := { s.mem with grads := g, weights := w, gradHold := s.mem.gradHold.filter (fun h => h.2 != p.lsn) } }

/-- Staged keys of a program are destroyed (R286, R305). -/
def discardKeys (s : State) (lsn : Nat) : State :=
  let gone := (s.trust.tenants.filter (fun t => match t.2.staging with | some g => g.lsn == lsn && g.key.isSome | none => false)).length
  let s := s.trust.tenants.foldl (fun s t => match t.2.staging with
    | some g => if g.lsn = lsn then destroyKeys s t.1 g.key.toList else s
    | none => s) (addCtr s (.keyStat 2) gone)
  { s with trust := { s.trust with tenants := s.trust.tenants.map (fun t =>
      match t.2.staging with
      | some g => if g.lsn = lsn then (t.1, { t.2 with staging := none }) else t
      | none => t) } }

/-- A fetch whose waiter has ended is given up. -/
def discardFetches (s : State) (lsn : Nat) : State :=
  { s with mem := { s.mem with fetches := s.mem.fetches.filter (fun f => match f.2.waiter with | some w => w.1 != lsn | none => true) } }

/-- A final ledger record and the counts of R471. -/
def endLedger (s : State) (p : Prog) (e : Ending) (steps : Nat) : State :=
  let last := if steps = 0 then 0xFFFF else steps - 1
  let s1 := updLedger s p.lsn (fun r =>
    { r with state := 5, status := e.status, detail := e.detail, endStep := e.step, tEnd := s.time, digest := p.digest, lastStep := last })
  match progCodes.findIdx? (· == e.status) with
  | some i => bump s1 (.prog (2 + i))
  | none => s1

/-- The steps from the first on that have completed; those that issued complete when the program ends, SCRUB apart (R239, R242). -/
def Prog.ledSteps (p : Prog) : Nat :=
  ((List.range p.next).takeWhile (fun k => p.isDone k || decide (opOf (p.word k) ≠ some .scrub))).length

/-- Instructions of a program that wait in held plies (R174). -/
def heldMembers (s : State) (lsn : Nat) : Nat :=
  sumBy (fun x => if x.held.isSome && x.issued.isNone then (x.members.filter (fun m => m.lsn == lsn)).length else 0) s.pg.plies.vals

/-- A running program ends without commit. -/
def endProg (s : State) (c : Nat) (e : Ending) : State :=
  match getCtx s c with
  | none => s
  | some p =>
    let s0 := if e.status = stLate then addCtr s (.tier 9) (heldMembers s p.lsn) else s
    let s1 := delCtx (dirDiscard s0 c) c
    let s2 := dropMembers (cancelSeqs s1 (fun q => !q.pass && q.lsn == p.lsn) e.status) (fun m => m.lsn == p.lsn)
    let s2 := { s2 with nb := { s2.nb with jobs := s2.nb.jobs.filter (fun j => j.1.1 != p.lsn) } }
    let s3 := discardFetches (discardKeys (discardGrads s2 p) p.lsn) p.lsn
    let s4 := endLedger s3 p e p.ledSteps
    if e.status = stAbortedReset then s4 else sendCompletion s4 p e

/-- A queued program ends. -/
def endQueued (s : State) (p : Prog) (e : Ending) : State :=
  let s1 := { s with pg := { s.pg with queue := s.pg.queue.filter (fun q => q.lsn != p.lsn) } }
  let s2 := endLedger s1 p e 0
  if e.status = stAbortedReset then s2 else sendCompletion s2 p e

/-! ### Completion of an instruction (R235, R238, R239) -/

/-- The completion word (R238). -/
def completionWord (c : Compl) (k : Nat) : W64 := BitVec.ofNat 64 (packFields [(16, c.1), (16, c.2), (16, k), (16, 0)])

/-- Step `k` counts as complete with a status: its phase and its completion word. -/
def Prog.complete (p : Prog) (k : Nat) (c : Compl) (t : Time) : Prog :=
  let w := p.word k
  let st := p.step k
  let p1 := { p with steps := p.steps.set k { st with phase := .done, status := c.1, detail := c.2, at' := t } }
  let own := decide (opOf w = some .regRd ∧ fld w 75 72 = sdstOf w ∧ c.1 = stOk)
  if stwOf w && !own then p1.setScalar (sdstOf w) (completionWord c k) else p1

/-- A FENCE or WAIT that holds and whose condition is met completes (R287, R288). -/
def Prog.wake (p : Prog) (t : Time) : Prog :=
  let k := p.next - 1
  let w := p.word k
  if p.next = 0 ∨ (p.step k).phase ≠ .running then p
  else
    match opOf w with
    | some .fence => if (List.range k).all p.isDone then p.complete k (stOk, 0) t else p
    | some .wait => if p.isDone (fld w 43 32) then p.complete k (stOk, 0) t else p
    | _ => p

/-- Steps done from the first on. -/
def Prog.doneSteps (p : Prog) : Nat := ((List.range p.next).takeWhile p.isDone).length

/-- Every instruction has completed. -/
def Prog.allDone (p : Prog) : Bool := decide (p.next = p.words.length) && (List.range p.next).all p.isDone

/-- LAST_STEP of the ledger follows the program (R252, R253). -/
def ledgerProgress (s : State) (p : Prog) : State :=
  let n := p.doneSteps
  updLedger s p.lsn (fun r => if n = 0 then { r with state := 2 } else { r with state := 3, lastStep := n - 1 })

/-- Step `k` of the program in context `c` completes: a failure ends the program unless CONT says otherwise, and the deadline is
looked at when the last instruction completes (R239, R242). -/
def finishStep (s : State) (c k : Nat) (r : Compl) : State :=
  match getCtx s c with
  | none => s
  | some p =>
    if (p.step k).phase ≠ .running then s
    else
      let p1 := p.complete k r s.time
      let ends := isFailure r.1 && (!contOf (p.word k) || decide (0x0501 = r.1 ∨ 0x0600 ≤ r.1))
      if ends then endProg (putCtx s c p1) c ⟨r.1, r.2, k⟩
      else
        let p2 := ({ p1 with fails := if isFailure r.1 then p1.fails + 1 else p1.fails }).wake s.time
        let s1 := ledgerProgress (putCtx s c p2) p2
        let s1 := if writesByUnits (p.word k) then { s1 with nb := { s1.nb with jobs := Tab.del s1.nb.jobs (p.lsn, k) } } else s1
        if p2.allDone && deadlinePassed s p2 then endProg s1 c ⟨stLate, 0, 0xFFFF⟩ else s1

/-- Several steps of one program complete at once; the lowest failing one governs (R239). -/
def finishSteps (s : State) (l : List (Nat × Nat × Compl)) : State :=
  (sortBy (fun a b => decide (a.2.1 ≤ b.2.1)) l).foldl (fun s x => match ctxOf s x.1 with | some c => finishStep s c x.2.1 x.2.2 | none => s) s

end Sys2Proof.Machine
end

