-- ==== Sys2Proof/Machine/CtlReset.lean ====
section
/-! DEFINITION. The control reset as an operation (10 R254, 14 R364, 17 R431 to R434). -/

namespace Sys2Proof.Machine
open Sys2Proof

/-- LEDGER_GEN is advanced by one, or is unsure where the flash could not be written (R254, R471, log 6). -/
def advanceLedgerGen (s : State) : State :=
  let d := draw s
  let ok := d.1.toNat.testBit 0
  { d.2 with boot := { d.2.boot with ledgerGen := if ok then s.boot.ledgerGen + 1 else s.boot.ledgerGen, genUnsure := !ok } }

/-! ### Control reset (R431, R433) -/

/-- Causes of R432 that count as faults. -/
def faultCause (c : Nat) : Bool := decide (0x22 ≤ c ∧ c ≤ 0x25)

/-- Queued originated frames are discarded (R364). -/
def dropOriginated (s : State) : State :=
  let s1 := discardFrames s (fun _ => true)
  { s1 with net := { s1.net with backlog := [] } }

/-- Traffic control after a control reset: per-tenant settings, marks and counters reset, the pause times with them; seat and class settings kept
(R364). -/
def trafficCtlReset (s : State) : State :=
  let mark := fun (c : Ctr) => match c with | .egress _ _ _ | .police _ _ _ | .transit _ _ => false | _ => true
  { s with tr := { s.tr with shapers := [], weights := [], policers := [],
                             classes := s.tr.classes.mapVals (fun _ c => { c with hwmOcc := 0, hwmSojourn := 0 }),
                             queues := s.tr.queues.mapVals (fun _ q => { q with hwmOcc := 0, hwmSojourn := 0 }) },
           seats := s.seats.mapVals (fun _ x => { x with paused := x.paused.mapVals (fun _ _ => s.time) }),
           ctr := s.ctr.filter (fun c => mark c.1) }

/-- Transport state is cleared (R335, R344). -/
def clearPeers (s : State) : State := { s with net := { s.net with peers := [], backlog := [] } }

/-- The blocks of the working areas are rewritten (R433). -/
def cleanWorking (s : State) : State :=
  let work := fun (n : Nat) => decide (blockGranule n < workGrans (blockStack n))
  { s with mem := { s.mem with err := s.mem.err.filter (fun e => !work e.1), seenPoison := s.mem.seenPoison.filter (fun n => !work n) } }

/-- Programs that have not passed their commit point end with ABORTED_RESET; their records are framed (R431, R433). -/
def abortPrograms (s : State) : State :=
  let e : Ending := ⟨stAbortedReset, 0, 0xFFFF⟩
  let ps := s.pg.queue ++ s.pg.ctxs.vals.filter (fun p => decide (p.state ≠ .committing))
  ps.foldl (fun s p => bump (sendCompletion s p e) (.prog (2 + (progCodes.findIdx (· == stAbortedReset))))) s

/-- A control reset cause (R433, R434): one that arrives during a control reset is only counted. -/
def controlReset (s : State) (cause : Nat) : State :=
  let r := s.rst
  let s0 := { s with rst := { r with ctlCount := satAdd 16 r.ctlCount 1, lastCtl := if r.ctlRunning then r.lastCtl else cause, ctlRunning := true } }
  if r.ctlRunning then s0
  else
    let s1 := if faultCause cause then addHealth s0 true 32768 else s0
    let s2 := abortPrograms (dropOriginated s1)
    let s3 := s2.nb.units.foldl (fun s u => u.2.seqs.foldl (fun s q => retireSeq s u.1 q 7 stAbortedReset) s) s2
    let s4 := advanceLedgerGen (cleanWorking (trafficCtlReset s3))
    let keys := sumBy (fun t => (t.2.current.toList ++ t.2.old.toList ++ (t.2.staging.bind Staging.key).toList).length) s.trust.tenants
    let s5 := addCtr s4 (.keyStat 2) keys
    { s5 with rst := { s5.rst with wdogHold := 100, wdog := none },
              boot := { s5.boot with halted := [], coreMem := [], kemSeed := [] },
              supply := { s5.supply with offset := 0 },
              mon := { s5.mon with limits := [] },
              fab := { s5.fab with prev := none, graceEnd := none, offers := [], copyAsks := [], handovers := [], served := [], digMine := [],
                                   digTheirs := [], digSend := [], poolObjs := [], proposals := [], withdrawn := [] },
              dir := [],
              mem := { Memory.reset with err := s5.mem.err, seenPoison := s5.mem.seenPoison, lastCorr := s5.mem.lastCorr,
                                         lastUncorr := s5.mem.lastUncorr, eccWindow := s5.mem.eccWindow, scrubLast := s5.mem.scrubLast,
                                         reserve := s5.mem.reserve, evictAge := s5.mem.evictAge, holdMax := s5.mem.holdMax,
                                         nextObj := s5.mem.nextObj },
              pg := Programs.reset,
              nb := { s5.nb with units := s5.nb.units.mapVals (fun _ u => u.clear), taken := [], jobs := [] },
              trust := { s5.trust with tenants := [] } }

end Sys2Proof.Machine
end

