-- ==== Sys2Proof/Machine/Issue.lean ====
section
/-! DEFINITION. Programs: admission, contexts, the issue of an instruction, deadlines (10 R228, R232 to R235, R240 to R242). -/

namespace Sys2Proof.Machine
open Sys2Proof

/-! ### Issue (R235, R240, R285, R369) -/

/-- The tenant slot holds an admitted tenant. -/
def admitted (s : State) (t : Nat) : Bool := decide ((getTenant s t).state = .admitted)

/-- The checks that come first in every entry: privilege and TENANT_ABSENT of R285, then the role of R368, R369. -/
def generalChecks (s : State) (p : Prog) (w : Nat) : List (Bool × Compl) :=
  let needs := match opOf w with | some .keyAdmit | some .keyRotate | some .keyRemove | some .regWr | some .canary => true | _ => false
  let acts := match opOf w with
    | some .tileAppend | some .tileSeal | some .runSplice | some .runDrop | some .move | some .prefetch => true
    | _ => false
  [(needs && !p.owner, refusedWith scNotPrivileged),
   (acts && p.owner && !admitted s p.tenant, refusedWith scTenantAbsent),
   (decide (effRole s = rolePool) && !p.owner && decide (1 ≤ groupOf w ∧ groupOf w ≤ 5), refusedWith scRoleRefused)]

/-- The program ended with a failure of its step `k`. -/
def failedAt (s : State) (lsn k : Nat) : Bool :=
  match Tab.find s.pg.ring (ledgerSlot lsn) with
  | some r => decide (r.lsn = lsn ∧ r.state = 5 ∧ r.endStep = k)
  | none => false

/-! ### Sections in the working area (R200, R213, R214, R228) -/

/-- The blocks of the working area that hold some of a byte range of the data section, or of the scratch space after it. -/
def Prog.sectionBlocks (p : Prog) (kind : Nat) (r : Range) : List Nat :=
  let off := (if kind = 2 then p.data.length else 0) + r.1
  if p.place = [] ∨ r.2 = 0 then []
  else (List.range ((off + r.2 - 1) / 64 - off / 64 + 1)).map (fun i =>
    let b := off / 64 + i
    let g := p.place.getD (b / 8) (0, 0)
    blockNo g.1 g.2 (b % 8))

/-- Those of a range that it holds whole. -/
def Prog.wholeBlocks (p : Prog) (r : Range) : List Nat :=
  let first := (r.1 + 63) / 64
  let last := (r.1 + r.2) / 64
  if last ≤ first then [] else p.sectionBlocks 2 (64 * first, 64 * (last - first))

/-- What an instruction reads of its program's sections: its operands, and the blocks that it writes in part (R200). -/
def Prog.sectionReads (p : Prog) (w : Nat) : List Nat :=
  let outs := p.rangeWrites 2 w
  let whole := (outs.map p.wholeBlocks).flatten
  (((p.rangeReads 1 w).map (p.sectionBlocks 1)) ++ ((p.rangeReads 2 w ++ outs).map (p.sectionBlocks 2))).flatten.filter (fun n => !whole.contains n)

/-- What the issue of an instruction touches of the working area holds no listed difference. -/
def sectionClean (s : State) (p : Prog) (w : Nat) : Bool :=
  (p.sectionReads w ++ ((p.rangeWrites 2 w).map p.wholeBlocks).flatten).all (fun n => (Tab.find s.mem.err n).isNone)

/-- The sections are read, and what is written whole holds what was written; true where a block is bad (R213, R214). The accesses count
from the issue (DESIGN CHOICE, log 89). -/
def touchSections (s : State) (p : Prog) (w : Nat) : Bool × State :=
  let r := readBlocks s (p.sectionReads w)
  (r.1.workHit, clearErr r.2 (((p.rangeWrites 2 w).map p.wholeBlocks).flatten))

/-- The next instruction of a context issues, if it is one that `is` describes and R235 lets it; its meaning `f` follows. Where the deadline has
passed, a failure of the instruction governs, else the program is LATE and nothing of the instruction happens (R7, R242). -/
def issueStep (s : State) (c : Nat) (is : Nat → Bool) (f : State → Prog → Nat → Nat → State) : State :=
  match getCtx s c with
  | none => s
  | some p =>
    let k := p.next
    let w := p.word k
    if !serving s || decide (p.state ≠ .running) || !is w || !p.mayIssue then s
    else
      let st : Step := ⟨.running, 0, 0, s.time, decide (effRole s = roleShadow), isBank w && p.polled k, 0, 0, [], p.scratch, none⟩
      let p1 := { p with next := k + 1, steps := p.steps.set k st }
      let x := if sectionClean s p w then (false, s) else touchSections s p w
      if x.1 then controlReset x.2 0x23
      else
        let t := f (ledgerProgress (putCtx x.2 c p1) p1) p1 w k
        if deadlinePassed s p && !failedAt t p.lsn k then endProg x.2 c ⟨stLate, 0, 0xFFFF⟩ else t

def isOp (op : Op) (w : Nat) : Bool := decide (opOf w = some op)

/-! ### Admission (R232, R233) -/

/-- A program from its message, accepted or not. -/
def progOf (s : State) (seat node : Nat) (m : List Byte) (lsn : Nat) : Prog :=
  let h := pheadOf m
  let d := if h.deadline = 0 then none
    else if h.dlRel then some (s.time + h.deadline * 1000) else some (h.deadline * 1000)
  let handle := fun (i : Nat) => let v := leAt m (64 + 0x100 + 8 * i) 8; (v % 2 ^ 32, bitN v 32)
  { lsn := lsn, die := seatDie seat, id := h.id, tenant := h.tenant, tclass := h.tclass, owner := h.owner, minor := h.minor, deadline := d,
    sender := node, seat := seat, retNode := h.retNode, scratchKib := h.scratchKib, state := .queued,
    scalars := (List.range 16).map (fun i => BitVec.ofNat 64 (leAt m (64 + 8 * i) 8)), bufs := (List.range 8).map (fun i => bufOf (bufBytesOf m i)),
    handles := (List.range 4).map handle, words := wordsOf m h.count, data := slice m (384 + 16 * h.count) h.dataLen, scratch := [],
    steps := List.replicate h.count Step.idle, next := 0, fails := 0, digest := 0, epoch := 0,
    tiles := [], holds := [], changes := [], newStreams := [], seenLayers := [], deferred := false, place := [] }

/-- The message arrived on the host seat from the owning host (R232, R366). -/
def fromOwner (s : State) (seat node : Nat) : Bool :=
  match owningHost s with
  | some (n, _) => decide (seat = s.net.hostActive ∧ node = n)
  | none => false

/-- The first failing check of R232 from the second on; PROGRAM_ID_LIVE is told apart. -/
def admitCheck (s : State) (p : Prog) (m : List Byte) (seat node : Nat) : Option Compl :=
  let live := s.pg.ring.vals.any (fun r => r.tenant == p.tenant && r.program == p.id && r.live)
  if !programOk m then some (stVersion, 0)
  else if !p.owner && !admitted s p.tenant then some (refusedWith scTenantAbsent)
  else if p.owner && !fromOwner s seat node then some (refusedWith scNotPrivileged)
  else if live then some (refusedWith scProgramIdLive)
  else if 2048 ≤ (s.pg.queue.filter (fun q => q.die == p.die)).length then some (refusedWith scContextsFull)
  else if deadlinePassed s p then some (stLate, 0)
  else none

def ledgerOf (p : Prog) (state : Nat) (t : Time) : Ledger :=
  { program := p.id, lsn := p.lsn, tenant := p.tenant, state := state, tclass := p.tclass, owner := p.owner, lastStep := 0xFFFF,
    stepCount := p.words.length, status := 0, detail := 0, endStep := 0xFFFF, ctx := 0, digest := 0, tAccept := t, tEnd := 0 }

/-- A tombstoned slot drops what names it (R232, R413). -/
def dropTombstone (s : State) (t : Nat) : State := let x := getTenant s t; putTenant s t { x with dropped := satAdd 32 x.dropped 1 }

/-- PROGRAM_MESSAGE: the checks of R232 and what follows from each. -/
def programMessageEffect (s : State) (seat node : Nat) (m : List Byte) : State :=
  if !serving s then s
  else if effRole s = roleUnplaced then bump s (.seatStat seat 12)
  else if m.length < 64 then bump s (.prog 16)
  else
    let t := (pheadOf m).tenant
    if (getTenant s t).state = .tombstone then dropTombstone (bump s (.prog 15)) t
    else
      let p0 := progOf s seat node m 0
      let c := admitCheck s p0 m seat node
      if c = some (refusedWith scProgramIdLive) then
        sendCompletion (bump s (.prog 3)) p0 ⟨stRefused, scProgramIdLive, 0xFFFF⟩
      else
        let l := takeLsn s p0.die
        let p := { p0 with lsn := l.1 }
        let s1 := putLedger l.2 (ledgerOf p 1 s.time)
        match c with
        | some r => sendCompletion (endLedger s1 p ⟨r.1, r.2, 0xFFFF⟩ 0) p ⟨r.1, r.2, 0xFFFF⟩
        | none => bump { s1 with pg := { s1.pg with queue := s1.pg.queue ++ [p] } } (.prog 0)

/-- PROGRAM_MESSAGE (R232). -/
def execProgramMessage (seat node : Nat) (bytes : List Byte) (s : State) : Host.Outcome State Fault Refusal :=
  .next (programMessageEffect s seat node bytes)

/-- Contexts a tenant holds. -/
def ctxHeld (s : State) (t : Nat) : Nat := (s.pg.ctxs.filter (fun p => p.2.tenant == t)).length

/-- Data and scratch bytes that a die's contexts hold (R228). -/
def dieData (s : State) (die : Nat) : Nat := sumBy (fun p => if p.die = die then p.data.length else 0) s.pg.ctxs.vals
def dieScratch (s : State) (die : Nat) : Nat := sumBy (fun p => if p.die = die then p.scratchKib * 1024 else 0) s.pg.ctxs.vals

/-- A queued program may take a context (R233). -/
def qualifies (s : State) (p : Prog) : Bool :=
  decide (s.pg.ctxs.length < 1024 ∧ ctxHeld s p.tenant < (getTenant s p.tenant).ctxQuota ∧
    dieData s p.die + p.data.length ≤ 512 * 2 ^ 20 ∧ dieScratch s p.die + p.scratchKib * 1024 ≤ 8 * 2 ^ 20)

/-- Of the programs of both dies that qualify: highest TCLASS first, then earliest accepted (R233). -/
def bestQueued (s : State) : Option Prog :=
  (s.pg.queue.filter (qualifies s)).foldl (fun acc p => match acc with | none => some p | some a => if a.tclass < p.tclass then some p else some a) none

/-- Bytes of a program's data section and scratch space. -/
def Prog.held (p : Prog) : Nat := p.data.length + p.scratchKib * 1024

/-- The `j`-th granule of a die's working area, stack by stack. -/
def workGran (die j : Nat) : Gran := (6 * die + j % 6, j / 6)

/-- Where a program's data section and scratch space lie: in die SRAM while those that lie there leave room for them beside the ledger ring
(R12, R253), else in the lowest granules of the working area after the mirror that hold no others (R228; DESIGN CHOICE, log 89). -/
def placeSections (s : State) (p : Prog) : List Gran :=
  let here := s.pg.ctxs.vals.filter (fun q => q.die == p.die)
  let n := granulesOf p.held
  let used := (here.map Prog.place).flatten
  if sumBy Prog.held (here.filter (fun q => q.place == [])) + p.held ≤ 30 * 2 ^ 20 then []
  else ((((List.range (4098 + used.length + n)).drop 4098).map (workGran p.die)).filter (fun g => !used.contains g)).take n

/-- The queued program that is first takes a context on its die, with its sections in die SRAM or in the working area (R228, R233; which of the two and
where there: DESIGN CHOICE, log 89). -/
def contextTakeEffect (s : State) (die : Nat) : State :=
  match bestQueued s with
  | none => s
  | some p =>
    if !serving s ∨ p.die ≠ die then s
    else
      let n := drawPick s (1024 - s.pg.ctxs.length)
      let c := kthFree s.pg.ctxs.keys n.1
      let b := drawBytes n.2 (p.scratchKib * 1024)
      let place := placeSections s p
      -- in the working area both are written whole under the tenant's current epoch (R228, R405)
      let k := takeSeqs (clearErr b.2 ((place.map granBlocks).flatten)) p.tenant (if place = [] ∨ nonceSpent b.2 p.tenant 2 then 0 else 2)
      let p1 := { p with state := .running, scratch := b.1, epoch := k.2.1, place := place }
      -- the context's selectors start at zero (R455)
      let s1 := { k.2.2 with pg := { k.2.2.pg with queue := k.2.2.pg.queue.filter (fun q => q.lsn != p.lsn) },
                             acc := { k.2.2.acc with paths := Tab.del k.2.2.acc.paths (.ctx c) } }
      updLedger (putCtx s1 c p1) p.lsn (fun r => { r with ctx := c })

/-- CONTEXT_TAKE (R233). -/
def execContextTake (die : Nat) (s : State) : Host.Outcome State Fault Refusal := .next (contextTakeEffect s die)

def deadlinePassesEffect (s : State) (lsn : Nat) : State :=
  match ctxOf s lsn with
  | some c =>
    match getCtx s c with
    | some p =>
      match p.deadline with
      | some t => if p.state = .running ∧ !p.allDone then endProg (reach s t) c ⟨stLate, 0, 0xFFFF⟩ else s
      | none => s
    | none => s
  | none =>
    match s.pg.queue.find? (fun q => q.lsn == lsn) with
    | some p => match p.deadline with | some t => endQueued (reach s t) p ⟨stLate, 0, 0xFFFF⟩ | none => s
    | none => s

/-- DEADLINE_PASSES (R242). -/
def execDeadlinePasses (lsn : Nat) (s : State) : Host.Outcome State Fault Refusal := .next (deadlinePassesEffect s lsn)

end Sys2Proof.Machine
end

