-- ==== Sys2Proof/Machine/Commit.lean ====
section
/-! DEFINITION. The commit of a program: preparation, commit point, applying (10 R243 to R247, 06 R144, R145, 02 R41, R42, 05 R118, R129,
12 R286). -/

namespace Sys2Proof.Machine
open Sys2Proof

/-! ### Tiles (R41, R42) -/

/-- The VALID own row of a stream that covers a position. -/
def ownRowAt (s : State) (t st pos : Nat) : Option Row :=
  (streamRows s t st).find? (fun r => decide (r.low ≤ pos ∧ pos ≤ r.high) && ((getDesc s r.result).map (fun d => !d.borrowed)).getD false)

/-- A tile that a program prepared becomes visible in one header write (R42). A rewritten tile takes the copy's place (R405). -/
def commitTile (s : State) (x : StagedTile) : State :=
  if x.isNew then
    match ownRowAt s x.tile.tenant x.tile.stream x.tile.base with
    | none => s
    | some r => match getDesc s r.result with
      | none => s
      | some d => putDesc (putHeader s x.oid { x.tile with ageBase := s.time }) r.result { d with tiles := d.tiles ++ [(x.tile.layer, x.oid)] }
  else
    match getTile s x.oid with
    | none => s
    | some t =>
      let t1 := { t with valid := x.tile.valid, slots := x.tile.slots, written := x.tile.written, ageBase := s.time }
      if x.rewrite then
        let s1 := putHeader s x.oid { t1 with epoch := x.tile.epoch, counter := x.tile.counter, die := x.tile.die, body := x.tile.body, hdr := x.tile.hdr }
        drainTile s1 x.oid t
      else putHeader s x.oid { t1 with counter := { t.counter with commit := t.counter.commit + 1 } }

/-- A tile is sealed, in the header write of its append where the same program appended to it; one that is sealed already stays as it is
(R295). -/
def commitSeal (s : State) (oid : Nat) (appended : Bool) : State :=
  match getTile s oid with
  | none => s
  | some t =>
    if t.isSealed then s
    else putHeader s oid { t with isSealed := true, ageBase := s.time,
                                  counter := if appended then t.counter else { t.counter with commit := t.counter.commit + 1 } }

/-- Every tile that a borrowed run lists gains a share (R41). -/
def commitSplice (s : State) (desc : Nat) : State :=
  match getDesc s desc with
  | none => s
  | some d => d.tiles.foldl (fun s x => match getTile s x.2 with | some t => putHeader s x.2 { t with share := t.share + 1 } | none => s) s

/-- Kept logsumexp values replace those at their position (R107, R108); their epoch and number were taken at issue (R245, R305). -/
def commitLse (s : State) (k : LseKey) (v : Lse) : State := { s with mem := { s.mem with lse := Tab.put s.mem.lse k v } }

/-! ### Weight sets (R121, R129, R300, R301) -/

def Matrix.empty : Matrix :=
  { cur := none, bias := [], master := none, m := [], v := [], grad := none, gradPending := none, gradBias := [], gradBiasPending := [], load := none, recs := [],
    place := [], auxPlace := [], poisoned := false, auxPoisoned := false, present := true, backing := none, loadedAt := 0,
    protectUntil := none, backEpoch := 0 }

def getSet (s : State) (k : SetKey) : Option WeightSet := Tab.find s.mem.weights k
def putSet (s : State) (k : SetKey) (w : WeightSet) : State := { s with mem := { s.mem with weights := Tab.put s.mem.weights k w } }

/-- An old version of weights waits for its last reader (R129). -/
def drainWeights (s : State) (k : SetKey) (g : List Gran) : State :=
  if g = [] then s else drainReads s (fun x => x.readsSet k) ⟨k.1, true, g, none, none, []⟩

/-- A set without any matrix, on a die. -/
def WeightSet.empty (die dModel : Nat) (train : Bool) : WeightSet := ⟨.ready, die, dModel, train, [], [], [], none⟩

/-- A new version of a matrix has come: the last one that a TORN set waited for makes it READY (R121, R300). -/
def WeightSet.reloaded (w : WeightSet) (mat : Nat) : WeightSet :=
  let rest := w.torn.filter (· != mat)
  { w with torn := rest, state := if w.state = .torn ∧ rest = [] then .ready else w.state }

/-- Rows of zeros of a row length: an empty gradient area. -/
def zeroRow (fmt cols : Nat) : List QDom :=
  (rowGroups cols).map (fun n => ⟨f32One, 0, if hasPips fmt then List.replicate (n / 16) 0 else [], List.replicate n 0⟩)

/-- A committed piece of a matrix: the incomplete version grows; with its last piece it replaces the matrix (R300). -/
def commitLoad (s : State) (k : SetKey) (mat : Nat) (l : Load) : State :=
  let w := (getSet s k).getD (WeightSet.empty ((l.place.head?.map granDie).getD 0) l.dModel l.train)
  let m := Tab.get w.mats Matrix.empty mat
  let old := (m.load.map Load.place).getD []
  -- what a read found meanwhile stays found
  let bad := l.poisoned || (decide (old = l.place) && (m.load.map Load.poisoned).getD false)
  let s1 := if old ≠ [] ∧ old ≠ l.place then drainWeights s k old else s
  if l.body.rows.length < l.rows then putSet s1 k { w with mats := Tab.put w.mats mat { m with load := some { l with poisoned := bad } } }
  else
    let n := matGranules l.fmt l.rows l.dModel l.bias
    let m1 : Matrix := { m with cur := some l.body, bias := l.biasRows, master := if l.train then some l.master else none, m := l.m, v := l.v,
                                grad := none, gradPending := none, gradBias := [], gradBiasPending := [], load := none, recs := l.recs,
                                place := l.place.take n, auxPlace := l.place.drop n, poisoned := bad, auxPoisoned := bad && l.train, present := true, backing := none,
                                loadedAt := s.time, protectUntil := none, backEpoch := 0 }
    drainWeights (putSet s1 k { (w.reloaded mat) with dModel := l.dModel, train := l.train, mats := Tab.put w.mats mat m1 }) k (m.place ++ m.auxPlace)

/-- A matrix that WFETCH brought replaces the one there was (R301); a row length of 0 stands for one that never came. -/
def commitFetch (s : State) (k : SetKey) (mat dModel : Nat) (m1 : Matrix) : State :=
  if dModel = 0 then s
  else
  let w := (getSet s k).getD (WeightSet.empty ((m1.place.head?.map granDie).getD 0) dModel false)
  let m := Tab.get w.mats Matrix.empty mat
  drainWeights (putSet s k { (w.reloaded mat) with dModel := dModel, train := false, mats := Tab.put w.mats mat { m1 with loadedAt := s.time } })
    k (matrixGrans m)

/-- WDROP removes matrices; a set without any is gone, and a TORN one waits for none of them any longer (R121, R301). -/
def commitWdrop (s : State) (k : SetKey) (mats : Nat) : State :=
  match getSet s k with
  | none => s
  | some w =>
    let gone := w.mats.filter (fun m => mats.testBit m.1)
    let rest := w.mats.filter (fun m => !mats.testBit m.1)
    let torn := w.torn.filter (fun i => !mats.testBit i)
    let st := if w.state = .torn ∧ torn = [] then .ready else w.state
    let s1 := if rest = [] then { s with mem := { s.mem with weights := Tab.del s.mem.weights k } }
      else putSet s k { w with mats := rest, torn := torn, state := st }
    gone.foldl (fun s m => drainWeights s k (matrixGrans m.2)) s1

/-- A new working copy replaces the old one; granules, epoch and numbers were taken at issue (R129, R171, R245). -/
def commitCopy (s : State) (k : SetKey) (mat : Nat) (b : MatBody) (g : List Gran) (first : CRec) : State :=
  match getSet s k with
  | none => s
  | some w => match Tab.find w.mats mat with
    | none => s
    | some m =>
      let m1 := { m with cur := some b, recs := Tab.upd m.recs [] 0 (fun l => first.run l.length), place := g, poisoned := false, backing := none,
                         present := true }
      drainWeights (putSet s k { w with mats := Tab.put w.mats mat m1 }) k m.place

/-- Some part of a matrix stands under an epoch: a row group of it in T1, or the object that only T2 holds; an incomplete version (R405, R410). -/
def Matrix.under (m : Matrix) (e : Nat) : Bool :=
  (if m.present then recsUnder m.recs e else m.backing.isSome && m.backEpoch == e) || ((m.load.map (fun l => recsUnder l.recs e)).getD false)

/-- The gradient area that a program wrote becomes the committed one (R118, R125). -/
def Matrix.commitGrad (m : Matrix) : Matrix :=
  if m.gradPending.isSome then
    { m with grad := m.gradPending, gradBias := m.gradBiasPending, gradPending := none, gradBiasPending := [],
             recs := Tab.del (Tab.put m.recs 4 (Tab.get m.recs [] 5)) 5 }
  else m

/-- An optimizer step has committed: the set is READY unless another still runs or the set is TORN (R121). -/
def WeightSet.stepped (w : WeightSet) (lsn : Nat) : WeightSet :=
  let rest := w.steppers.filter (· != lsn)
  { w with steppers := rest, state := if w.state = .stepping ∧ rest = [] then .ready else w.state }

/-- What a program changed in gradients becomes committed; its holds end; its steps leave the sets READY (R118, R121, R125). -/
def commitGrads (s : State) (lsn : Nat) : State :=
  let held := (s.mem.gradHold.filter (fun h => h.2 == lsn)).map Prod.fst
  let grads := s.mem.grads.map (fun x =>
    if held.contains (x.1.1, x.1.2.1) then (x.1, { x.2 with committed := x.2.pending.or x.2.committed, pending := none }) else x)
  let weights := s.mem.weights.map (fun x =>
    let y : WeightSet := if x.2.gradHolder = some lsn then
        { x.2 with gradHolder := none, mats := x.2.mats.map (fun m => (m.1, m.2.commitGrad)) }
      else x.2
    (x.1, y.stepped lsn))
  { s with mem := { s.mem with grads := grads, weights := weights, gradHold := s.mem.gradHold.filter (fun h => h.2 != lsn) } }

/-- Staged keys become current; both trust blocks switch (R286, R305, R411). -/
def commitKeys (s : State) (lsn : Nat) : State :=
  let s := (s.trust.tenants.filterMap (fun t => match t.2.staging with
    | some g => if g.lsn = lsn then g.key.map (fun k => (t.1, k)) else none
    | none => none)).foldl (fun s x => channelSend s (keyTransfer 1 x.1 x.2)) s
  { s with trust := { s.trust with tenants := s.trust.tenants.map (fun t =>
      match t.2.staging with
      | some g =>
        if g.lsn ≠ lsn then t
        else match g.key with
          | none => (t.1, { t.2 with staging := none })
          | some k => if g.admission then (t.1, { t.2 with state := .admitted, current := some k, old := none, staging := none })
                      else (t.1, { t.2 with old := t.2.current, current := some k, staging := none, skipped := [] })
      | none => t) } }

/-- One prepared change takes effect. -/
def applyChange (s : State) (p : Prog) (c : Change) : State :=
  match c with
  | .seal oid => commitSeal s oid (p.tiles.any (fun t => t.oid == oid))
  | .splice _ => s
  | .lse _ k v g e n => commitLse s k ⟨v, e, n, g, false⟩
  | .load k m l => commitLoad s k m l
  | .fetch k m d x => commitFetch s k m d x
  | .wdrop k ms => commitWdrop s k ms
  | .adam k m b g r | .copyOf k m b g r => commitCopy s k m b g r
  | .torn k => (match getSet s k with | some w => putSet s k (w.tear p.lsn) | none => s)
  | .area _ _ _ => s

/-- The shares that a program's borrowed runs add: before its dropped runs give theirs up, so that a tile which both name stays (R41). -/
def commitSplices (s : State) (p : Prog) : State :=
  p.changes.foldl (fun s x => match x with | .splice d => commitSplice s d | _ => s) s

/-- Step 4 of R245: the whole commit of context `c` is applied, and the program is COMMITTED. -/
def applyCommit (s : State) (c : Nat) : State :=
  match getCtx s c with
  | none => s
  | some p =>
    let s2 := [0, 1].foldl (fun s h => groupWrite (groupInvalidate s h c) h c) (commitSplices s p)
    let s3 := p.tiles.foldl commitTile s2
    let s4 := p.changes.foldl (fun s x => applyChange s p x) s3
    let s5 := commitKeys (commitGrads s4 p.lsn) p.lsn
    let d := Nat.min p.fails 65535
    let s6 := updLedger s5 p.lsn (fun r =>
      { r with state := 4, status := stOk, detail := d, endStep := 0xFFFF, tEnd := s.time, digest := p.digest, lastStep := p.words.length - 1 })
    sendCompletion (bump (delCtx s6 c) (.prog 1)) p ⟨stOk, d, 0xFFFF⟩

/-! ### Commands -/

/-- Ownership stalls the commit point of a program that wrote the stream (R379). -/
def stalledFor (s : State) (p : Prog) : Bool :=
  p.newStreams.any (fun st => match Tab.find s.fab.own (p.tenant, st) with | some o => decide (o.state = .stalled) | none => false)

/-- The commit record: every step has completed, and the digest is the program's last (R245, R252, R253). It goes to the ring and to the
mirror. That it is the program's own record with LAST_STEP and DIGEST rewritten and STATE still STEPPING is the model's choice (DESIGN CHOICE, log
83). -/
def commitRecord (s : State) (p : Prog) : State := updLedger s p.lsn (fun r => { r with lastStep := p.words.length - 1, digest := p.digest })

def commitStartEffect (s : State) (c : Nat) : State :=
  match getCtx s c with
  | none => s
  | some p => if p.state = .running ∧ p.allDone ∧ serving s then commitRecord (putCtx s c { p with state := .preparing }) p else s

/-- COMMIT_START (R245 steps 1 and 2): headers, tags and descriptors are prepared and the commit record is written. -/
def execCommitStart (c : Nat) (s : State) : Host.Outcome State Fault Refusal := .next (commitStartEffect s c)

def commitPointEffect (s : State) (c : Nat) : State :=
  match getCtx s c with
  | none => s
  | some p =>
    if p.state ≠ .preparing ∨ !serving s then s
    else if stalledFor s p then putCtx s c { p with deferred := true }
    else
      let s1 := putCtx s c { p with state := .committing, deferred := false }
      [0, 1].foldl (fun s h => if quietFor s h c then s else groupInvalidate s h c) s1

/-- COMMIT_POINT (R245 step 3, step 1 of R144). -/
def execCommitPoint (c : Nat) (s : State) : Host.Outcome State Fault Refusal := .next (commitPointEffect s c)

def commitApplyEndEffect (s : State) (c : Nat) : State :=
  match getCtx s c with
  | none => s
  | some p =>
    -- a commit that meets a quiet window waits for its end (R145)
    if p.state ≠ .committing ∨ quietFor s 0 c ∨ quietFor s 1 c then s else applyCommit s c

def dirQuietEndEffect (s : State) (h t st : Nat) : State :=
  let x := getHalf s h
  let s1 := putHalf s h { x with quiet := x.quiet.filter (· != (t, st)) }
  (s1.pg.ctxs.filter (fun p => p.2.state == .committing)).foldl (fun s p => if quietFor s h p.1 then s else groupInvalidate s h p.1) s1

/-- DIR_QUIET_WINDOW_END (R145): the half may start step 1 of a later commit that touches the stream. -/
def execDirQuietWindowEnd (h t st : Nat) (s : State) : Host.Outcome State Fault Refusal := .next (dirQuietEndEffect s h t st)

end Sys2Proof.Machine
end

