-- ==== Sys2Proof/Machine/Control.lean ====
section
/-! DEFINITION. FENCE, WAIT, EMIT and LEDGER.RD (12 R287 to R291). -/

namespace Sys2Proof.Machine
open Sys2Proof

/-- FENCE and WAIT stay running until the condition holds; the wake of a completion ends them (R287, R288). -/
def wakeCtx (s : State) (c : Nat) : State :=
  match getCtx s c with
  | none => s
  | some p =>
    let p1 := p.wake s.time
    let s1 := ledgerProgress (putCtx s c p1) p1
    if p1.allDone && deadlinePassed s p1 then endProg s1 c ⟨stLate, 0, 0xFFFF⟩ else s1

def fenceEffect (s : State) (c : Nat) : State := issueStep s c (isOp .fence) (fun s _ _ _ => wakeCtx s c)

/-- FENCE (R287). -/
def execFence (c : Nat) (s : State) : Host.Outcome State Fault Refusal := .next (fenceEffect s c)

/-- The conditions of STEP_INVALID (R288). -/
def waitInvalid (p : Prog) (w k : Nat) : Bool :=
  decide (k ≤ fld w 43 32) || (decide (funcOf w ≠ 0) && !isBank (p.word (fld w 43 32)))

def waitEffect (s : State) (c : Nat) : State :=
  issueStep s c (isOp .wait) (fun s p w k =>
    if waitInvalid p w k then finishStep s c k (refusedWith scStepInvalid) else wakeCtx s c)

/-- WAIT (R288). -/
def execWait (c : Nat) (s : State) : Host.Outcome State Fault Refusal := .next (waitEffect s c)

/-- The record of EMIT, padded to 64 bytes (R290). -/
def emitRecord (p : Prog) (w k : Nat) : List Byte :=
  let bs := if fbit w 1 then p.bytes (fld w 34 32) else []
  padTo 64 (recordBytes [(64, p.id), (16, k), (8, 0xFF), (1, b2n (fbit w 0)), (1, b2n (fbit w 1)), (6, 0), (16, fld w 63 48), (16, 0),
    (32, bs.length), (96, 0)] ++ (if fbit w 0 then (p.scalars.map (fun x => leBytes 8 x.toNat)).flatten else []) ++ bs)

def emitEffect (s : State) (c : Nat) : State :=
  issueStep s c (isOp .emit) (fun s p w k =>
    if fbit w 1 && decide (65536 < (p.buf (fld w 34 32)).length) then finishStep s c k (refusedWith scShapeInvalid)
    else finishStep (emitRecords s c k true [emitRecord p w k]) c k (stOk, 0))

/-- EMIT (R289, R290). -/
def execEmit (c : Nat) (s : State) : Host.Outcome State Fault Refusal := .next (emitEffect s c)

/-- An output buffer is too short for `n` bytes; RETURN is never short (R491). -/
def outShort (p : Prog) (b n : Nat) : Bool := (p.buf b).kind == 2 && decide ((p.buf b).length < n)

def ledgerRdEffect (s : State) (c : Nat) : State :=
  issueStep s c (isOp .ledgerRd) (fun s p w k =>
    let t := fld w 107 96
    let b := fld w 110 108
    match firstOf [(!p.owner && t != p.tenant, refusedWith scNotPrivileged), (outShort p b 64, refusedWith scBufferShort)] with
    | some r => finishStep s c k r
    | none =>
      let r := ledgerFind s t (fld w 95 32)
      let rec' := (r.map ledgerBytes).getD (zeros 64)
      finishStep (placeRecords s c b [rec'] (fun s rs => emitRecords s c k true rs)) c k (stOk, b2n r.isNone))

/-- LEDGER_RD (R291). -/
def execLedgerRd (c : Nat) (s : State) : Host.Outcome State Fault Refusal := .next (ledgerRdEffect s c)

end Sys2Proof.Machine
end

