-- ==== Sys2Proof/Machine/Sequences.lean ====
section
/-! DEFINITION. Near-bank sequences as the controllers hold them, and the completion of BANK instructions (08 R182, R192 to R195, 12
R288). -/

namespace Sys2Proof.Machine
open Sys2Proof

/-- The unit whose channel holds a granule (R182). -/
def unitOf (g : Gran) : Nat × Nat := (g.1, Config.channelOf g.1 g.2 % 32)

def getUnit (s : State) (u : Nat × Nat) : Unit' := Tab.get s.nb.units Unit'.reset u
def putUnit (s : State) (u : Nat × Nat) (x : Unit') : State := { s with nb := { s.nb with units := Tab.put s.nb.units u x } }

/-- The unit whose channel holds a block. -/
def blockUnit (n : Nat) : Nat × Nat := unitOf (blockStack n, blockGranule n)

/-- What a unit has to do for a step: the domains of which it holds a part, and the blocks that it writes besides, with their element operations. -/
structure UnitWork where
  unit : Nat × Nat
  doms : List Nat
  blks : List (Nat × Bool × BitVec 512)
  ops : Nat
  deriving DecidableEq, Repr

/-- Who issues a sequence: a step of a program, or a scrub pass of one. -/
structure SeqFor where
  lsn : Nat
  step : Nat
  tenant : Nat
  pass : Bool
  deriving DecidableEq, Repr

/-- One more sequence for a unit, which waits at its controller: what it reads and writes, the element operations for each element. -/
def issueSeq (s : State) (f : SeqFor) (w : UnitWork) (reads writes : List ObjRef) (ops : Nat) : State :=
  let q : Seq := { lsn := f.lsn, step := f.step, tenant := f.tenant, tag := s.nb.nextTag, state := .waiting, reads := reads, writes := writes,
                   doms := w.doms, opsPer := ops, finalState := 0, status := 0, blocks := 0, corrected := 0, uncorr := 0, owed := 0,
                   wasPreempted := false, lock := false, due := false, dueSince := none, cancel := none, order := 0, blks := w.blks,
                   blkOps := w.ops, pass := f.pass }
  let x := getUnit s w.unit
  let s1 := { s with nb := { s.nb with nextTag := (s.nb.nextTag + 1) % 4096 } }
  putUnit s1 w.unit { x with seqs := x.seqs ++ [q] }

/-- Issues the sequences of a step and notes how many it waits for. -/
def issueSeqs (s : State) (c k : Nat) (l : List UnitWork) (reads writes : List ObjRef) (ops : Nat) : State :=
  match getCtx s c with
  | none => s
  | some p =>
    let s1 := l.foldl (fun s x => issueSeq s ⟨p.lsn, k, p.tenant, false⟩ x reads writes ops) s
    updCtx (requeueSeqs s1) c (fun p => { p with steps := p.steps.set k { p.step k with seqs := l.length } })

/-- Blocks to be written, each at its unit, with the element operations that fall to a unit (R182). -/
def dealBlocks (bs : List (Nat × Bool × BitVec 512)) (ops : Nat × Nat → Nat) : List UnitWork :=
  (dedup (bs.map (fun b => blockUnit b.1))).map (fun u => ⟨u, [], bs.filter (fun b => blockUnit b.1 == u), ops u⟩)

/-- The result of a BANK step that no longer waits for anything: R7 decides between the statuses of its sequences (R194). -/
def bankStatus (st : Step) : Nat := worst st.seqStatus

/-! ### What a failed step leaves (R107, R130, R239) -/

/-- The stream, layer and first position that an instruction appends to. -/
def Prog.appendAt (p : Prog) (w : Nat) : Option (Nat × Nat × Nat) :=
  match opOf w with
  | some .tileAppend => some (p.stream (fld w 33 32), fld w 55 48, fld w 79 56)
  | some .projKv => if fbit w 1 && !fbit w 0 then some (p.stream (fld w 42 41), fld w 55 48, fld w 103 80) else none
  | _ => none

/-- A prepared tile without the positions from `pos` on; none where nothing prepared is left of it. -/
def StagedTile.cutAt (x : StagedTile) (pos committed : Nat) : Option StagedTile :=
  let n := pos - x.tile.base
  if x.tile.base + x.tile.valid ≤ pos then some x
  else if n = 0 ∨ (!x.isNew && n ≤ committed) then none
  else some { x with tile := { x.tile with valid := n, slots := x.tile.slots.take n, written := n } }

/-- The positions from `pos` on that a program has prepared in a stream and layer are given up. -/
def cutAppend (s : State) (p : Prog) (st layer pos : Nat) : Prog :=
  { p with tiles := p.tiles.filterMap (fun x =>
      if x.tile.stream = st ∧ x.tile.layer = layer then x.cutAt pos (((getTile s x.oid).map Tile.valid).getD 0) else some x) }

/-- A run that the program in context `c` has staged for a stream and in which it has prepared nothing any more (R148). -/
def emptyRun (s : State) (p : Prog) (c st : Nat) : Option (Nat × Row) :=
  (streamEntries s p.tenant st).find? (fun e => decide (e.2.ctx = c ∧ e.2.state = .staged) &&
    ((getDesc s e.2.result).map (fun d => d.tail)).getD false &&
    !p.tiles.any (fun x => x.tile.stream == st && decide (e.2.low ≤ x.tile.base ∧ x.tile.base ≤ e.2.high)))

/-- What a step that has failed prepared in the program: its append, the values it was to keep, its piece of a load, the working copies of its optimizer
step. -/
def undoProg (s : State) (p : Prog) (k : Nat) : Prog :=
  let w := p.word k
  let piece := fun (l : Load) => decide (opOf w = some .move ∧ funcOf w = 0) &&
    decide (l.body.rows.length = leAt ((p.asOf k).bytes (fld w 34 32)) 0x14 4 + leAt ((p.asOf k).bytes (fld w 34 32)) 0x18 4)
  let p1 := { p with changes := p.changes.filter (fun ch => match ch with | .lse j _ _ _ _ _ => j != k | .load _ _ l => !piece l | _ => true) }
  let p2 := match p.appendAt w with | some (st, layer, pos) => cutAppend s p1 st layer pos | none => p1
  let dst := (p.trefs (fld w 34 32)).2.2
  let same := fun (j : Nat) => (match opOf (p.word j) with | some .nbEw | some .nbQuant => true | _ => false) &&
    decide ((p.trefs (fld (p.word j) 34 32)).2.2 = dst) && p.isDone j && !isFailure (p.step j).status
  -- a working copy that no earlier step has made whole is given up
  let p2 := if (opOf w = some .nbEw ∨ opOf w = some .nbQuant) ∧ dst.kind = 3 ∧ !(List.range k).any same then
      { p2 with changes := p2.changes.filter (fun ch => match ch with
          | .copyOf key i _ _ _ => !(decide (key.2.1 = dst.id ∧ key.2.2 = dst.layer ∧ i = dst.part))
          | _ => true) }
    else p2
  if opOf w = some .nbAdam then
    p2.tearSets (dedup (p.changes.filterMap (fun ch => match ch with
      | .adam key _ _ _ _ => if key.2.1 = p.nameId (fld w 34 32) ∧ (bitN w 48 ∨ key.2.2 = fld w 47 40) then some key else none
      | _ => none)))
  else p2

/-- The gradient tiles that an ATT.BWD was to write have their prior contents (R120). -/
def undoGrads (s : State) (lsn k : Nat) : State :=
  match Tab.find s.nb.jobs (lsn, k) with
  | some (.tiles _ _ parts) =>
    let g := parts.foldl (fun (g : Tab GradKey GradCell) x => match Tab.find g x.key with
      | some c => if c.committed.isNone ∧ x.before.isNone then Tab.del g x.key else Tab.put g x.key { c with pending := x.before }
      | none => g) s.mem.grads
    { s with mem := { s.mem with grads := g } }
  | _ => s

/-- A failed step has no effect: what it prepared is given up, and the run it staged with it. -/
def undoStep (s : State) (c k : Nat) : State :=
  match getCtx s c with
  | none => s
  | some p =>
    let p1 := undoProg s p k
    let s1 := undoGrads (putCtx s c p1) p.lsn k
    match p.appendAt (p.word k) with
    | some (st, _, _) => (match emptyRun s1 p1 c st with | some (h, r) => unstageRow s1 h c r.result | none => s1)
    | none => s1

/-- Step `k` completes; where it fails, what it prepared is undone. -/
def endStep (s : State) (c k : Nat) (r : Compl) : State := finishStep (if isFailure r.1 then undoStep s c k else s) c k r

/-- A step that waited for its sequences gives its results: they go out once its outcome is known (R239, R250, R260). -/
def releaseOuts (s : State) (c k : Nat) : State :=
  match getCtx s c with
  | none => s
  | some p => match (p.step k).outs with
    | some o => if o.plain then updCtx s c (fun p => p.writeBuf o.buf o.recs.flatten)
      else placeRecords s c o.buf o.recs (fun s rs => emitPly s c k true o.cluster rs)
    | none => s

/-- A BANK step completes when no sequence and no staging request is left: in poll mode at the next poll read (R194, R288). -/
def bankReady (s : State) (c k : Nat) (detected : Bool) : State :=
  match getCtx s c with
  | none => s
  | some p =>
    let st := p.step k
    if st.phase = .running ∧ st.seqs = 0 ∧ st.stages = 0 ∧ (detected ∨ !st.poll) then
      endStep (if isFailure (bankStatus st) then s else releaseOuts s c k) c k (bankStatus st, 0)
    else s

/-- A sequence of a step has become final with a status; a poison stop cancels the others (R194, R202). A scrub pass ends by itself (R221). -/
def seqFinal (s : State) (q : Seq) (status : Nat) : State :=
  if q.pass then s else
  match ctxOf s q.lsn with
  | none => s
  | some c =>
    let s1 := updCtx s c (fun p => let st := p.step q.step
      { p with steps := p.steps.set q.step { st with seqs := st.seqs - 1, seqStatus := status :: st.seqStatus } })
    bankReady s1 c q.step false

/-- Notes a staging request of a step. -/
def noteStage (s : State) (c k : Nat) : State :=
  updCtx s c (fun p => { p with steps := p.steps.set k { p.step k with stages := (p.step k).stages + 1 } })

/-- A staging request of a step has been served. -/
def stageServed (s : State) (c k : Nat) : State :=
  bankReady (updCtx s c (fun p => { p with steps := p.steps.set k { p.step k with stages := (p.step k).stages - 1 } })) c k false

/-- DIR_STAGE: the first queued request is written by R141; it waits while its stream has a PENDING row (R136). -/
def dirStageEffect (s : State) (h : Nat) : State :=
  let x := getHalf s h
  match x.queue with
  | [] => s
  | q :: rest =>
    if x.rows.any (fun r => r.2.of q.tenant q.stream && r.2.state == .pending) then s
    else match stageRow x.rows q.row with
      | none => endStep (bump (putHalf s h { x with queue := rest }) (.dirStat h 3)) q.ctx q.step (refusedWith scDirFull)
      | some (rows, moved) =>
        let s1 := addCtr (putHalf s h { x with rows := rows, queue := rest, shiftMax := Nat.max x.shiftMax moved }) (.dirStat h 5) moved
        stageServed s1 q.ctx q.step

/-- DIR_STAGE (R141, R143). -/
def execDirStage (h : Nat) (s : State) : Host.Outcome State Fault Refusal := .next (dirStageEffect s h)

end Sys2Proof.Machine
end

