-- ==== Sys2Proof/Machine/Tiles.lean ====
section
/-! DEFINITION. Streams as a program sees them, appends, TILE.APPEND and TILE.SEAL (02 R26 to R43, 03 R65 to R69, 12 R292 to R298, 06
R147, R148, 10 R244, 16 R405, R409). -/

namespace Sys2Proof.Machine
open Sys2Proof

/-! ### A stream as a program sees it (R147, R244) -/

/-- An entry of a stream that counts for the program in context `c`, with its range and descriptor. -/
structure View where
  half : Nat
  row : Row
  low : Nat
  high : Nat
  desc : RunDesc
  deriving DecidableEq, Repr

/-- The entries that count for the program: committed ones less its own removals, and those it has staged. -/
def views (s : State) (t st c : Nat) : List View :=
  (streamEntries s t st).filterMap (fun e =>
    if e.2.state = .staged ∧ e.2.ctx ≠ c then none
    else match e.2.seen c, getDesc s e.2.result with
      | some (a, b), some d => some ⟨e.1, e.2, a, b, d⟩
      | _, _ => none)

/-- The stream has a row in the middle of a commit: marks and staging wait (R136). -/
def pendingStream (s : State) (t st : Nat) : Bool := (streamEntries s t st).any (fun e => e.2.state == .pending)

/-- The tail run a program may append to: not cut by itself. -/
def tailView (vs : List View) : Option View := vs.find? (fun v => v.desc.tail && v.high == 16777215)

/-- A tile as the program sees it: with its own prepared positions. -/
def tileView (s : State) (p : Prog) (oid : Nat) : Option Tile :=
  match p.tiles.find? (fun x => x.oid == oid) with
  | some x => some x.tile
  | none => getTile s oid

/-- Own tiles of a run in a layer as the program sees them, its new ones included. -/
def viewTiles (s : State) (p : Prog) (v : View) (layer : Nat) : List (Nat × Tile) :=
  if v.desc.borrowed then []
  else
    (layerTiles v.desc layer).filterMap (fun o => (tileView s p o).map (fun t => (o, t))) ++
      ((p.tiles.filter (fun x => x.isNew && x.tile.layer == layer && x.tile.stream == v.row.stream &&
        decide (v.low ≤ x.tile.base ∧ x.tile.base ≤ v.high))).map (fun x => (x.oid, x.tile)))

/-- One more than the highest position that the stream holds in a layer, own and borrowed (R32). -/
def layerEnd (s : State) (p : Prog) (vs : List View) (layer : Nat) : Option Nat :=
  let own := (vs.map (fun v => (viewTiles s p v layer).map (fun t => t.2.base + t.2.valid))).flatten
  let borrowed := (vs.map (fun v => if v.desc.borrowed then
    (layerTiles v.desc layer).filterMap (fun o => (getTile s o).map (fun t =>
      Nat.min (v.high + 1) (((t.base + t.valid : Nat) : Int) + v.desc.offset).toNat)) else [])).flatten
  match own ++ borrowed with
  | [] => none
  | l => some (maxBy id l)

/-- What R32 says of an append at `pos`: refused, or the end at which it goes with the tail tile and whether a tail run is to be
staged. -/
structure Spot where
  refuse : Option Nat
  tail : Option (Nat × Tile)
  stage : Bool
  deriving DecidableEq, Repr

/-- R32's steps for one position. Where L lies below the tail run's LOW, or is covered without a tail run, steps 3 and 4 name no refusal: the
model answers POSITION_FILLED (DESIGN CHOICE, log 76). -/
def spotFor (s : State) (p : Prog) (vs : List View) (layer pos : Nat) : Spot :=
  let covered := fun (x : Nat) => vs.any (fun v => decide (v.low ≤ x ∧ x ≤ v.high))
  let refuse := fun (c : Nat) => (⟨some c, none, false⟩ : Spot)
  let tv := tailView vs
  let sealedAt := vs.any (fun v => (viewTiles s p v layer).any (fun t => t.2.isSealed && decide (t.2.base ≤ pos ∧ pos < t.2.base + t.2.valid)))
  let go := fun (l : Nat) =>
    if pos < l then refuse (if sealedAt then scPositionSealed else scPositionFilled)
    else if l < pos then refuse scPositionGap
    else match tv with
      | some v =>
        if l < v.low then refuse scPositionFilled
        else ⟨none, (viewTiles s p v layer).find? (fun t => !t.2.isSealed && t.2.base + t.2.valid == l && decide (t.2.valid < 16)), false⟩
      | none => if covered l then refuse scPositionFilled else ⟨none, none, true⟩
  match layerEnd s p vs layer with
  | some l => go l
  | none => match tv with
    | some v => go v.low
    | none => if covered pos then refuse scPositionFilled else ⟨none, none, true⟩

/-! ### Ownership (R378, R379) -/

/-- The ownership check of a write: none where it may go on. -/
def ownerCheck (s : State) (t st : Nat) : Option Compl :=
  if effRole s = roleShadow then none
  else match Tab.find s.fab.own (t, st) with
    | some o =>
      if o.conflict then some (stNotOwner, 0)
      else match o.state with
        | .owner | .stalled => none
        | .awaiting => some (refusedWith scTailAwaited)
        | _ => some (stNotOwner, 0)
    | none => some (stNotOwner, 0)

/-- The ownership check as a condition. It stands first, so that TAIL_AWAITED comes before every other state code of the entry, whose rules and
tables do not list it (DESIGN CHOICE, log 94). -/
def ownerCond (s : State) (t st : Nat) : Bool × Compl := let o := ownerCheck s t st; (o.isSome, o.getD (stOk, 0))

/-- Another uncommitted program has appended to the stream and layer (R244). -/
def tailHeld (s : State) (p : Prog) (st : Nat) (layer : Option Nat) : Bool :=
  s.pg.ctxs.vals.any (fun q => q.lsn != p.lsn && q.tenant == p.tenant && q.holds.any (fun h => h.1 == st && (layer == none || layer == some h.2)))

/-! ### Positions in tiles (R36, R65 to R69) -/

/-- The formats of an append. -/
structure AppendFmt where
  kf : Nat
  vf : Nat
  zp : Bool
  posEnc : Nat
  heads : Nat
  dimCode : Nat
  deriving DecidableEq, Repr

def Tile.fmt (t : Tile) : AppendFmt := ⟨t.kFmt, t.vFmt, t.zp, t.posEnc, t.heads, t.dimCode⟩

/-- The scale set of a tile: K scales, V scales, K and V zero points. -/
structure ScaleSet where
  k : List F32
  v : List F32
  kz : List Int
  vz : List Int
  deriving DecidableEq, Repr

def Tile.scales (t : Tile) : ScaleSet := ⟨t.kScale, t.vScale, t.kZp, t.vZp⟩

/-- The heads of one position: `h` vectors of `d` values from the start of a list. -/
def headsOf (h d : Nat) (xs : List F32) : List (List F32) := (List.range h).map (fun i => (xs.drop (i * d)).take d)

/-- The scales that R67 gives for the heads of a tile's first position; none of them has a zero point. -/
def freshScales (f : AppendFmt) (ks vs : List (List F32)) : ScaleSet :=
  ⟨ks.map (scaleFor false f.kf), vs.map (scaleFor false f.vf), ks.map (fun _ => 0), vs.map (fun _ => 0)⟩

/-- One position quantized under a scale set (R66), and how many conversions saturated. -/
def makeSlot (f : AppendFmt) (sc : ScaleSet) (ks vs : List (List F32)) : Slot × Nat :=
  let q := fun (fmt : Nat) (scl : List F32) (zps : List Int) (hs : List (List F32)) =>
    (List.zipWith (fun (i : Nat) (x : List F32) => quantWith false fmt (scl.getD i f32One) (if zpAllowed fmt then zps.getD i 0 else 0) x)
      (List.range hs.length) hs)
  let k := q f.kf sc.k sc.kz ks
  let v := q f.vf sc.v sc.vz vs
  let sums := if f.zp then (k.map (fun x => headSums f.kf x.1.codes.length x.1.codes)).flatten else []
  (⟨(k.map (fun x => x.1.codes)).flatten, (k.map (fun x => x.1.pips)).flatten, (v.map (fun x => x.1.codes)).flatten,
    (v.map (fun x => x.1.pips)).flatten, sums⟩, sumBy Prod.snd k + sumBy Prod.snd v)

/-- A tile that an append opens (R32, R38, R293). -/
def newTile (t st layer base : Nat) (f : AppendFmt) (sc : ScaleSet) : Tile :=
  { tenant := t, stream := st, layer := layer, base := base, kFmt := f.kf, vFmt := f.vf, zp := f.zp, isSealed := false, posEnc := f.posEnc,
    valid := 0, epoch := 0, share := 0, heads := f.heads, dimCode := f.dimCode, counter := ⟨0, 0, 0⟩, kScale := sc.k, vScale := sc.v, kZp := sc.kz,
    vZp := sc.vz, slots := [], written := 0, die := 0, body := [], hdr := 0, poisoned := false, lost := false, retired := false,
    tier := .resident, replicas := [], objKey := 0, ageBase := 0, protectUntil := none, unread := [] }

/-- The positions of an append split over the tail tile and new tiles: base and the indices of the positions of each. -/
def splitAppend (tail : Option (Nat × Tile)) (pos n : Nat) : List (Option (Nat × Tile) × Nat × List Nat) :=
  let room := match tail with | some t => 16 - t.2.valid | none => 0
  let first := Nat.min room n
  (match tail with | some t => [(some t, t.2.base, List.range first)] | none => []) ++
    ((chunks 16 ((List.range n).drop first)).map (fun is => (none, pos + is.headD 0, is)))

/-! ### Writing positions (R42, R160, R168, R405, R409) -/

/-- Bytes [off, off + n) of a body that start at granule-aligned sections: the blocks of `body` they touch, with whether they fill each. -/
def touchBlocks (body : List Gran) (off n : Nat) : List (Nat × Bool) :=
  if n = 0 then []
  else (List.range ((off + n - 1) / 64 + 1 - off / 64)).map (fun i =>
    let b := off / 64 + i
    let g := body.getD (b / 8) (0, 0)
    (blockNo g.1 g.2 (b % 8), decide (off ≤ 64 * b ∧ 64 * b + 64 ≤ off + n)))

/-- The byte ranges of slots `a` to `b` of a tile. -/
def Tile.ranges (t : Tile) (a b : Nat) : List (Nat × Nat) := slotRanges t.kFmt t.vFmt t.zp t.heads (headDim t.dimCode) a b

/-- A block whose bits `w` are written over and whose check word is made anew: what else differs in it stays (R200, R213). -/
def mergeErr (s : State) (n : Nat) (w : BitVec 512) : State :=
  putErr s n (sealedBlk ((ErrTab.read s.mem.err n).data &&& ~~~w))

/-- The blocks that byte ranges of a body touch: whether one range fills a block, and the bits that are written (R200). -/
def rangeBlocks (body : List Gran) (rs : List (Nat × Nat)) : List (Nat × Bool × BitVec 512) :=
  let bs := (rs.map (fun r => touchBlocks body r.1 r.2)).flatten
  (dedup (bs.map Prod.fst)).map (fun n => (n, bs.contains (n, true), bodyBits body rs n))

/-- Writes blocks: whole ones as they are, the others read, checked and merged (R200, R213); nothing is written where such a read fails. -/
def writeBlocks (s : State) (bs : List (Nat × Bool × BitVec 512)) : EccRes × State :=
  let part := bs.filter (fun b => !b.2.1)
  let r := readBlocks s (part.map Prod.fst)
  if r.1.bad then r
  else (r.1, clearErr (part.foldl (fun s b => mergeErr s b.1 b.2.2) r.2) ((bs.filter (fun b => b.2.1)).map Prod.fst))

/-- The blocks that slots `a` to `b` of a tile take, each position on its own (R42). -/
def slotRangeBlocks (t : Tile) (a b : Nat) : List (Nat × Bool × BitVec 512) :=
  rangeBlocks t.body ((List.range (b - a)).map (fun i => t.ranges (a + i) (a + i + 1))).flatten

/-- The units of a body's granules, without repeats (R160, R182). -/
def bodyUnits (body : List Gran) : List (Nat × Nat) := dedup (body.map unitOf)

/-- One tile's share of an append: the tail tile it goes on with, its BASE_POS, its scales, its positions, the saturated conversions. -/
structure AppendShare where
  tail : Option (Nat × Tile)
  base : Nat
  scales : ScaleSet
  slots : List Slot
  sat : Nat
  deriving DecidableEq, Repr

/-- What an append did: the tiles as prepared, or the completion that refuses it. -/
inductive Appended where
  | done (xs : List StagedTile)
  | refused (c : Compl)
  deriving DecidableEq, Repr

/-- The shares of an append of whole positions, already rotated: their K and V heads in order. Every tile's scales are given or fresh
(R38). -/
def appendShares (f : AppendFmt) (sets : Option (List ScaleSet)) (tail : Option (Nat × Tile)) (pos : Nat) (ks vs : List (List (List F32))) :
    List AppendShare :=
  let parts := splitAppend tail pos ks.length
  (List.zip (List.range parts.length) parts).map (fun x =>
    let is := x.2.2.2
    let first := is.headD 0
    let sc := match x.2.1, sets with
      | some t, _ => t.2.scales
      | none, some l => l.getD x.1 ⟨[], [], [], []⟩
      | none, none => freshScales f (ks.getD first []) (vs.getD first [])
    let xs := is.map (fun j => makeSlot f sc (ks.getD j []) (vs.getD j []))
    ⟨x.2.1, x.2.2.1, sc, xs.map Prod.fst, sumBy Prod.snd xs⟩)

/-- The shares of an append whose values are still to come. -/
def blankShares (tail : Option (Nat × Tile)) (pos n : Nat) : List AppendShare :=
  (splitAppend tail pos n).map (fun x =>
    ⟨x.1, x.2.1, match x.1 with | some t => t.2.scales | none => ⟨[], [], [], []⟩, x.2.2.map (fun _ => ⟨[], [], [], [], []⟩), 0⟩)

/-- Positions go into an open tile in place: invisible until the commit (R42); the units write their blocks. -/
def fillInPlace (s : State) (oid : Nat) (slots : List Slot) : State :=
  match getTile s oid with
  | some x => putTile s oid { x with slots := slots, written := slots.length }
  | none => s

/-- One tile's share of an append; `now` says that its values are there to be written. A tile opens with new granules and a new
OBJECT_SEQ; NONCE_SPENT stands before POOL_FULL (DESIGN CHOICE, log 62). -/
def appendPart (s : State) (p : Prog) (home st layer : Nat) (f : AppendFmt) (now : Bool) (x : AppendShare) : Appended × State :=
  let slots := x.slots
  match x.tail with
  | none =>
    let n := bodyGranules f.kf f.vf f.zp f.heads (headDim f.dimCode)
    if nonceSpent s p.tenant 1 then (.refused (refusedWith scNonceSpent), s)
    else match allocTenant s p.tenant home n (bodyCharge n) true with
      | (.refused c, s1) => (.refused c, s1)
      | (.took die body hdr, s1) =>
        let o := freshObj s1
        let q := takeSeqs o.2 p.tenant 1
        let t := { newTile p.tenant st layer x.base f x.scales with
                   valid := slots.length, slots := slots, written := slots.length, epoch := q.2.1, counter := q.1, die := die, body := body, hdr := hdr }
        (.done [⟨o.1, true, false, 0, t⟩], q.2.2)
  | some (oid, t) =>
    let old := (getTenant s p.tenant).current.map Key.epoch
    let cur := getTile s oid
    let dirty := match cur with | some x => decide (x.valid < x.written ∧ t.valid < x.written) | none => false
    let mine := (p.tiles.find? (fun x => x.oid == oid))
    let flags := (mine.map (fun x => (x.isNew, x.rewrite))).getD (false, false)
    let own := flags != (false, false)
    let again := (!own && dirty) || decide (old ≠ some t.epoch)
    let slots' := t.slots.take t.valid ++ slots
    let t1 := { t with valid := slots'.length, slots := slots', written := slots'.length }
    if nonceSpent s p.tenant 1 then (.refused (refusedWith scNonceSpent), s)
    else if again then
      -- the positions so far are read, and the tile is written anew under a new OBJECT_SEQ (R212, R405, R412)
      match allocTenant s p.tenant home t.body.length 0 true with
        | (.refused c, s1) => (.refused c, s1)
        | (.took die body hdr, s1) =>
          let e := readBlocksFree s1 (tileFree t) (tileBlocks t)
          let r := if own then (e.1.bad || e.1.authBad, e.2) else readTile s1 oid
          if r.1 then (.refused (stTilePoisoned, 0), r.2)
          else
            let q := takeSeqs r.2 p.tenant 1
            (.done [⟨oid, flags.1, !flags.1, 0, { t1 with epoch := q.2.1, counter := q.1, die := die, body := body, hdr := hdr }⟩], q.2.2)
    else
      -- where the program has the granules to itself, nothing of the committed tile changes
      (.done [⟨oid, flags.1, flags.2, 0, t1⟩], if now ∧ !own then fillInPlace s oid slots' else s)

/-- Puts prepared tiles in place of earlier ones of the same object. -/
def Prog.stageTiles (p : Prog) (xs : List StagedTile) : Prog :=
  { p with tiles := p.tiles.filter (fun t => !xs.any (fun x => x.oid == t.oid)) ++ xs }

/-- An append, share by share. The prepared tiles stand in the program; nothing is done where a share is refused. -/
def appendAll (s : State) (c : Nat) (home st layer : Nat) (f : AppendFmt) (now : Bool) (shares : List AppendShare) : Option Compl × State :=
  let r := shares.foldl (fun (acc : Option Compl × State) x =>
    match acc.1, getCtx acc.2 c with
    | none, some p =>
      match appendPart acc.2 p home st layer f now x with
      | (.refused r, s1) => (some r, s1)
      | (.done ts, s1) => (none, addCtr (updCtx s1 c (fun p => p.stageTiles ts)) .nbSat x.sat)
    | _, _ => acc) ((none, s) : Option Compl × State)
  match r.1 with
  | some x => if x.1 = stTilePoisoned then (some x, r.2) else (some x, s)
  | none => r

/-- Stages an own tail run at a position (R148). -/
def stageTail (s : State) (c k t st half pos : Nat) : State :=
  let d := freshDesc s
  let s1 := putDesc s d { tenant := t, borrowed := false, tail := true, low := pos, high := 16777215, srcStream := 0, offset := 0, tiles := [] }
  noteStage (askStage s1 half ⟨c, k, t, st, pos, 16777215, d⟩) c k

/-- The staging conditions of a new tail run or borrowed run (R26, R147, R150, R151): RUN_HELD before, the others where they stand. -/
def overlapHeld (s : State) (t st c low high : Nat) : Bool :=
  (streamEntries s t st).any (fun e => e.2.heldElse c && decide (e.2.low ≤ high ∧ low ≤ e.2.high))
def tableFull (s : State) (t st : Nat) : Bool := decide ((streamEntries s t st) = [] ∧ 262144 ≤ streamCount s)
def dirQuotaHit (s : State) (t : Nat) : Bool := decide ((getTenant s t).dirQuota ≤ dirUsed s t)

/-! ### TILE.APPEND -/

/-- The operands of TILE.APPEND (R292). -/
structure AppendOps where
  stream : Nat
  layer : Nat
  pos : Nat
  n : Nat
  f : AppendFmt
  rotate : Bool
  deriving DecidableEq, Repr

def appendOps (p : Prog) (w : Nat) : AppendOps :=
  { stream := p.stream (fld w 33 32), layer := fld w 55 48, pos := fld w 79 56, n := fld w 110 99 + 1,
    f := ⟨fld w 83 80, fld w 87 84, fbit w 2, if fbit w 0 || fbit w 1 then 0 else 1, fld w 94 88, fld w 98 96⟩, rotate := fbit w 0 }

/-- Bytes of one scale set in S_BUF (R294). -/
def scaleSetBytes (h : Nat) (zp : Bool) : Nat := (8 * h + (if zp then 2 * h else 0) + 63) / 64 * 64

def scaleSetOf (h : Nat) (zp : Bool) (b : List Byte) : ScaleSet :=
  let f := fun (o : Nat) => (List.range h).map (fun i => BitVec.ofNat 32 (leAt b (o + 4 * i) 4))
  let z := fun (o : Nat) => (List.range h).map (fun i => if zp then signedOf 8 (leAt b (o + i) 1) else 0)
  ⟨f 0, f (4 * h), z (8 * h), z (9 * h)⟩

/-- The supplied scales are valid for new tiles (R68, R294). -/
def scaleSetOk (f : AppendFmt) (x : ScaleSet) : Bool :=
  x.k.all (scaleOk f.kf) && x.v.all (scaleOk f.vf) && x.kz.all (zpOk f.kf) && x.vz.all (zpOk f.vf)

/-- A zero point for a half whose format allows none is 0, in every set (R294). -/
def scaleSetPlain (f : AppendFmt) (x : ScaleSet) : Bool :=
  (zpAllowed f.kf || x.kz.all (fun z => z == 0)) && (zpAllowed f.vf || x.vz.all (fun z => z == 0))

/-- An append of AppendOps in the state as it stands: where R32 puts it, with the shares `mk` gives for its tail tile. -/
def placeAppend (s : State) (c k : Nat) (o : AppendOps) (now : Bool) (mk : Option (Nat × Tile) → List AppendShare) : Option Compl × State :=
  match getCtx s c with
  | none => (none, s)
  | some p =>
    let sp := spotFor s p (views s p.tenant o.stream c) o.layer o.pos
    let home := homeDie s p.tenant o.stream
    let half := (halfFor s p.tenant o.stream).getD home
    let r := appendAll s c home o.stream o.layer o.f now (mk sp.tail)
    match r.1 with
    | some x => (some x, r.2)
    | none =>
      let s1 := if sp.stage then stageTail r.2 c k p.tenant o.stream half o.pos else r.2
      (none, updCtx s1 c (fun p => { p with holds := dedup (p.holds ++ [(o.stream, o.layer)]), newStreams := dedup (p.newStreams ++ [o.stream]) }))

/-- An append proper after its checks: tail run, tiles. `ks` and `vs` are positions, heads, elements. -/
def doAppend (s : State) (c k : Nat) (o : AppendOps) (sets : Option (List ScaleSet)) (ks vs : List (List (List F32))) : Option Compl × State :=
  placeAppend s c k o true (fun tail => appendShares o.f sets tail o.pos ks vs)

/-- The positions of an append of the program in context `c` that was taken at its issue get their values in one tile: a tile that it opened
gets its scales with its first position (R38, R67, R69). -/
def fillTile (s : State) (c : Nat) (o : AppendOps) (ks vs : List (List (List F32))) (x : StagedTile) : State :=
  let t := x.tile
  let a := Nat.max o.pos t.base
  let i := a - o.pos
  let j := a - t.base
  let n := Nat.min (o.pos + o.n) (t.base + t.valid) - a
  let sc := if o.pos ≤ t.base then freshScales o.f (ks.getD i []) (vs.getD i []) else t.scales
  let xs := (List.range n).map (fun m => makeSlot o.f sc (ks.getD (i + m) []) (vs.getD (i + m) []))
  let slots := t.slots.take j ++ xs.map Prod.fst
  let t1 := { t with kScale := sc.k, vScale := sc.v, kZp := sc.kz, vZp := sc.vz, slots := slots ++ t.slots.drop (j + n) }
  let s1 := addCtr (updCtx s c (fun p => p.stageTiles [{ x with tile := t1 }])) .nbSat (sumBy Prod.snd xs)
  if x.isNew ∨ x.rewrite then s1 else fillInPlace s1 x.oid slots

/-- Every tile of an append taken at its issue gets its values. -/
def fillAppend (s : State) (c : Nat) (o : AppendOps) (ks vs : List (List (List F32))) : State :=
  match getCtx s c with
  | none => s
  | some p =>
    let xs := p.tiles.filter (fun x => x.tile.stream == o.stream && x.tile.layer == o.layer &&
      decide (o.pos < x.tile.base + x.tile.valid ∧ x.tile.base < o.pos + o.n))
    xs.foldl (fun s x => fillTile s c o ks vs x) s

/-- What an append will need is taken at its issue, before its values are there: rows, granules, numbers (R148, R151, R168). -/
def reserveAppend (s : State) (c k : Nat) (o : AppendOps) : Option Compl × State :=
  placeAppend s c k o false (fun tail => blankShares tail o.pos o.n)

/-- A condition on an append that allocation decides, each by itself for R7 to choose between: the state is taken as it would be without the
others. -/
def roomChecks (s : State) (c : Nat) (p : Prog) (o : AppendOps) (ok : Bool) : List (Bool × Compl) :=
  let clean : State := { s with mem := { s.mem with err := [], tiles := s.mem.tiles.map (fun x => (x.1, { x.2 with poisoned := false })) } }
  let loose := putTenant clean p.tenant { getTenant clean p.tenant with tierQuota := 2 ^ 64 }
  let room := if ok then (reserveAppend loose c (p.next - 1) o).1 else none
  let n := bodyGranules o.f.kf o.f.vf o.f.zp o.f.heads (headDim o.f.dimCode)
  let sp := spotFor s p (views s p.tenant o.stream c) o.layer o.pos
  let new := ((splitAppend sp.tail o.pos o.n).filter (fun x => x.1.isNone)).length
  let charge := new * bodyCharge n
  [(room.isSome, room.getD (stOk, 0)), (ok && decide (0 < new) && !quotaFits (quotaEvict s p.tenant charge) p.tenant charge, (stQuota, 0))]

/-- A staging of a new tail run meets another run or what another program has staged (R147). -/
def tailOverlap (s : State) (p : Prog) (c st pos : Nat) : Bool :=
  (views s p.tenant st c).any (fun v => decide (pos ≤ v.high)) ||
    (streamEntries s p.tenant st).any (fun e => decide (e.2.state = .staged ∧ e.2.ctx ≠ c ∧ pos ≤ e.2.high))

/-- The conditions on an append: the codes that R293 and R294 give, those of R32 at R293's reference, come before the table of R298 (R492,
log 91). -/
def appendChecks (s : State) (c : Nat) (p : Prog) (w : Nat) (o : AppendOps) : List (Bool × Compl) :=
  let vs := views s p.tenant o.stream c
  let sp := spotFor s p vs o.layer o.pos
  let kb := p.buf (fld w 36 34)
  let vb := p.buf (fld w 39 37)
  let d := headDim o.f.dimCode
  let need := o.n * o.f.heads * d
  let parts := splitAppend sp.tail o.pos o.n
  let sets := parts.length
  let sb := p.bytes (fld w 45 43)
  let sz := scaleSetBytes o.f.heads o.f.zp
  let setAt := fun (i : Nat) => scaleSetOf o.f.heads o.f.zp (slice sb (i * sz) sz)
  let supplied := fbit w 3
  let bad := supplied && ((List.range sets).zip parts).any (fun x => !scaleSetPlain o.f (setAt x.1) || x.2.1.isNone && !scaleSetOk o.f (setAt x.1))
  let differs := supplied && ((List.range sets).zip parts).any (fun x => match x.2.1 with
    | some t => decide (setAt x.1 ≠ t.2.scales)
    | none => false)
  let newRun := sp.refuse.isNone && sp.stage
  let shaped := decide (1 ≤ o.f.heads ∧ o.f.heads ≤ 64 ∧ d ≠ 0)
  [ownerCond s p.tenant o.stream,
   (sp.refuse.isSome, refusedWith (sp.refuse.getD 0)),
   ((match sp.tail with | some t => decide (t.2.fmt ≠ o.f) | none => false) || (o.f.zp && !(zpAllowed o.f.kf || zpAllowed o.f.vf)),
     refusedWith scTileFormat),
   (supplied && decide (sb.length < sets * sz), refusedWith scBufferShort),
   (bad, refusedWith scScaleInvalid),
   (differs, refusedWith scScaleMismatch),
   (tailHeld s p o.stream (some o.layer), refusedWith scTailHeld),
   (newRun && overlapHeld s p.tenant o.stream c o.pos 16777215, refusedWith scRunHeld),
   (decide (16777215 < o.pos + o.n - 1), refusedWith scPositionLimit),
   (o.rotate && p.ropeBad (fld w 42 40) d, refusedWith scParamInvalid),
   (!kb.vectors || !vb.vectors || !kb.holds need || !vb.holds need || decide (kb.fmt ≠ vb.fmt), refusedWith scShapeInvalid),
   (!fmtOk o.f.kf || !fmtOk o.f.vf || !shaped, refusedWith scShapeInvalid),
   (newRun && tailOverlap s p c o.stream o.pos, refusedWith scRangeOverlap),
   (newRun && tableFull s p.tenant o.stream, refusedWith scStreamTableFull),
   (newRun && (halfFor s p.tenant o.stream).isNone, refusedWith scDirFull),
   (newRun && dirQuotaHit s p.tenant, (stQuota, 0)),
   (match sp.tail with | some t => t.2.poisoned | none => false, (stTilePoisoned, 0))] ++
  roomChecks s c p o (sp.refuse.isNone && shaped && fmtOk o.f.kf && fmtOk o.f.vf)

/-- Counts that go with a refusal (R466, R383). -/
def countRefusal (s : State) (half : Nat) (r : Compl) : State :=
  if r = refusedWith scDirFull then bump s (.dirStat half 3)
  else if r = refusedWith scRunHeld then bump s (.dirStat half 4)
  else if r = refusedWith scTailAwaited then bump s (.own 6)
  else s

/-- An earlier projection of the program still has to fill what it appends to the stream and layer of the next instruction's append: two
instructions that write one object take effect in program order (R235; DEDUCED, log 67). -/
def Prog.appendOpen (p : Prog) : Bool :=
  match p.appendAt (p.word p.next) with
  | none => false
  | some a => (List.range p.next).any (fun j => isOp .projKv (p.word j) && !p.isDone j && (match p.appendAt (p.word j) with
    | some b => b.1 == a.1 && b.2.1 == a.2.1
    | none => false))

/-- The tiles of the program that hold a position of an append. -/
def appendedOids (p : Prog) (o : AppendOps) : List Nat :=
  (p.tiles.filter (fun x => x.tile.stream == o.stream && x.tile.layer == o.layer && decide (o.pos < x.tile.base + x.tile.valid))).map StagedTile.oid

/-- The unit whose channel holds the key slot of head `h` at token slot `j` of a tile (R188). -/
def keyUnit (t : Tile) (h j : Nat) : Nat × Nat :=
  unitOf (t.body.getD ((h * 16 + j) * (headDim t.dimCode * fmtBits t.kFmt / 8) / 512) (0, 0))

/-- The sequences that write an append's tiles: one for each unit that holds a granule of them. Where the units rotate, the unit of each key
head's slot turns it (R184, R188). -/
def appendUnits (p : Prog) (o : AppendOps) : List UnitWork :=
  let oids := appendedOids p o
  let ts := (p.tiles.filter (fun x => oids.contains x.oid)).map StagedTile.tile
  let at' := ts.map (fun t => (t, (List.range t.valid).filter (fun j => decide (o.pos ≤ t.base + j))))
  let keys := (at'.map (fun x => x.2.map (fun j => (List.range x.1.heads).map (fun h => keyUnit x.1 h j)))).flatten.flatten
  let bs := (at'.map (fun x => slotRangeBlocks x.1 (x.2.headD x.1.valid) x.1.valid)).flatten
  dealBlocks bs (fun u => if o.rotate then 4 * headDim o.f.dimCode * (keys.filter (· == u)).length else 0)

/-- The sequences of an append (R184, R188). -/
def issueAppend (s : State) (c k : Nat) (p : Prog) (o : AppendOps) : State :=
  issueSeqs s c k (appendUnits p o) [] ((appendedOids p o).map ObjRef.tile) 0

/-- What TILE.APPEND writes: supplied scale sets where FUNC asks for them, the keys by position and head, turned where it asks for it, the values
(R292, R293). -/
def appendData (p : Prog) (w : Nat) (o : AppendOps) : Option (List ScaleSet) × List (List (List F32)) × List (List (List F32)) :=
  let d := headDim o.f.dimCode
  let rope := (p.pblock (fld w 42 40)).rope d
  let n := o.f.heads * d
  let xs := (chunks n (p.vals (fld w 36 34))).map (headsOf o.f.heads d)
  let ks := if o.rotate then List.zipWith (fun i hs => hs.map (rot rope ((o.pos + i : Nat) : Int))) (List.range xs.length) xs else xs
  let vs := (chunks n (p.vals (fld w 39 37))).map (headsOf o.f.heads d)
  let sz := scaleSetBytes o.f.heads o.f.zp
  (if fbit w 3 then some ((chunks sz (p.bytes (fld w 45 43))).map (scaleSetOf o.f.heads o.f.zp)) else none, ks, vs)

def tileAppendEffect (s : State) (c : Nat) : State :=
  let waits := match getCtx s c with
    | some p => pendingStream s p.tenant (appendOps p (p.word p.next)).stream || p.appendOpen
    | none => true
  if waits then s
  else issueStep s c (isOp .tileAppend) (fun s p w k =>
    let o := appendOps p w
    let half := (homeHalf s p.tenant o.stream).getD (homeDie s p.tenant o.stream)
    match firstOf (generalChecks s p w ++ appendChecks s c p w o) with
    | some r => finishStep (countRefusal s half r) c k r
    | none =>
      let a := appendData p w o
      match doAppend s c k o a.1 a.2.1 a.2.2 with
      | (some r, s1) => finishStep s1 c k r
      | (none, s1) =>
        match getCtx s1 c with
        | none => s1
        | some p1 =>
          bankReady (issueAppend s1 c k p1 o) c k false)

/-- TILE_APPEND (R292 to R294). -/
def execTileAppend (c : Nat) (s : State) : Host.Outcome State Fault Refusal := .next (tileAppendEffect s c)

/-! ### TILE.SEAL (R295) -/

/-- The own tiles of a stream with a position in range, committed or appended earlier by the program. -/
def sealTargets (s : State) (p : Prog) (vs : List View) (layer : Option Nat) (low high : Nat) : List (Nat × Tile) :=
  let layers := dedup ((vs.map (fun v => v.desc.tiles.map Prod.fst)).flatten ++ p.tiles.map (fun x => x.tile.layer))
  let ls := match layer with | some l => [l] | none => layers
  (ls.map (fun l => (vs.map (fun v => (viewTiles s p v l).filter (fun t => t.2.meets low high))).flatten)).flatten

/-- The conditions of R298 on a seal. -/
def sealChecks (s : State) (c : Nat) (p : Prog) (st : Nat) (layer : Option Nat) (low high : Nat) : List (Bool × Compl) :=
  let vs := (views s p.tenant st c).filter (fun v => !v.desc.borrowed)
  let ts := if low ≤ high then sealTargets s p vs layer low high else []
  [ownerCond s p.tenant st,
   (tailHeld s p st layer, refusedWith scTailHeld),
   (decide (ts ≠ []) && ts.all (fun t => t.2.isSealed), refusedWith scTileSealed),
   (!vs.any (fun v => decide (v.low ≤ high ∧ low ≤ v.high)) || decide (high < low), (stNoRun, 0)),
   (ts.any (fun t => !t.2.isSealed && t.2.poisoned), (stTilePoisoned, 0))]

def tileSealEffect (s : State) (c : Nat) : State :=
  issueStep s c (isOp .tileSeal) (fun s p w k =>
    let st := p.stream (fld w 33 32)
    let layer := if fbit w 0 then none else some (fld w 47 40)
    let low := fld w 71 48
    let high := fld w 95 72
    match firstOf (generalChecks s p w ++ sealChecks s c p st layer low high) with
    | some r => finishStep (countRefusal s 0 r) c k r
    | none =>
      let vs := (views s p.tenant st c).filter (fun v => !v.desc.borrowed)
      let ts := (sealTargets s p vs layer low high).filter (fun t => !t.2.isSealed)
      -- a seal is not seen before the commit, by this program neither (R243; log 63)
      let f := fun (p : Prog) => { p with changes := p.changes ++ ts.map (fun t => Change.seal t.1), newStreams := dedup (p.newStreams ++ [st]) }
      finishStep (updCtx s c f) c k (stOk, 0))

/-- TILE_SEAL (R295). -/
def execTileSeal (c : Nat) (s : State) : Host.Outcome State Fault Refusal := .next (tileSealEffect s c)

end Sys2Proof.Machine
end

