-- ==== Sys2Proof/Machine/Partial.lean ====
section
/-! DEFINITION. Partial results: the identity, merging, finalizing, the merge tree and its covers, partial records and dQ records
(02 R44 to R54, 04 R93, 05 R113, R116, 11 R261, R268). -/

namespace Sys2Proof.Machine
open Sys2Proof

/-- The triple of one query and head over a set of positions. -/
structure Partial where
  m : F32
  l : F32
  o : List F32
  deriving DecidableEq, Repr

/-- `n` times +0. -/
def zeroVec (n : Nat) : List F32 := List.replicate n f32Zero

/-- The identity partial (R47). -/
def idPartial (d : Nat) : Partial := ⟨f32NegInf, f32Zero, zeroVec d⟩

/-- merge(a, b) of R46. -/
def mergePartial (a b : Partial) : Partial :=
  if a.m = f32NegInf then b
  else if b.m = f32NegInf then a
  else
    let m := if F32.isNan a.m || F32.isNan b.m then f32Nan else fmax a.m b.m
    let ea := fexp (fsub a.m m)
    let eb := fexp (fsub b.m m)
    ⟨m, fadd (fmul a.l ea) (fmul b.l eb), List.zipWith (fun x y => fadd (fmul x ea) (fmul y eb)) a.o b.o⟩

/-- The logsumexp of R48 and R107; each operation rounds. -/
def Partial.lse (p : Partial) : F32 := if p.m = f32NegInf then f32NegInf else fadd p.m (fln p.l)

/-- Finalized (R48, R261): m holds the logsumexp, o the normalized output. -/
def Partial.finalize (p : Partial) : Partial :=
  if p.m = f32NegInf then ⟨f32NegInf, f32Zero, p.o.map (fun _ => f32Zero)⟩ else ⟨p.lse, p.l, p.o.map (fun x => fdiv x p.l)⟩

/-- Element-wise round(a + b). -/
def addVec (a b : List F32) : List F32 := List.zipWith fadd a b

/-- A dQ value whose sibling is absent: +0 is added (R113). -/
def addZero (a : List F32) : List F32 := a.map (fun x => fadd x f32Zero)

/-! ### The tree (R52 to R54) -/

/-- One level up: blocks in ascending index, a pair combined, a single child by `alone`. -/
def levelUp {α : Type} (comb : α → α → α) (alone : α → α) : List (Nat × α) → List (Nat × α)
  | [] => []
  | [(i, a)] => [(i / 2, alone a)]
  | (i, a) :: (j, b) :: r =>
    if i / 2 = j / 2 then (i / 2, comb a b) :: levelUp comb alone r else (i / 2, alone a) :: levelUp comb alone ((j, b) :: r)

/-- The blocks of level `k` from those given at each level up to it. -/
def upTo {α : Type} (comb : α → α → α) (alone : α → α) (given : Nat → List (Nat × α)) : Nat → List (Nat × α)
  | 0 => sortBy (fun a b => decide (a.1 ≤ b.1)) (given 0)
  | k + 1 => sortBy (fun a b => decide (a.1 ≤ b.1)) (given (k + 1) ++ levelUp comb alone (upTo comb alone given k))

/-- value(k, j) of R268. -/
def blockValue {α : Type} (comb : α → α → α) (alone : α → α) (absent : α) (given : Nat → List (Nat × α)) (k j : Nat) : α :=
  (((upTo comb alone given k).find? (fun x => x.1 == j)).map Prod.snd).getD absent

/-- The level of the block that starts at segment `s` (R53). -/
def coverLevel (fuel s sb : Nat) (openEnd : Bool) (k : Nat) : Nat :=
  match fuel with
  | 0 => k
  | n + 1 => if k < 16 ∧ s % 2 ^ (k + 1) = 0 ∧ (openEnd ∨ s + 2 ^ (k + 1) - 1 ≤ sb) then coverLevel n s sb openEnd (k + 1) else k

/-- The cover of segments `s` to `sb` (R53); a cover has at most 33 blocks. -/
def coverFrom (fuel s sb : Nat) (openEnd : Bool) : List (Nat × Nat) :=
  match fuel with
  | 0 => []
  | n + 1 =>
    if sb < s then []
    else let k := coverLevel 16 s sb openEnd 0; (k, s / 2 ^ k) :: coverFrom n (s + 2 ^ k) sb openEnd

def coverOf (sa sb : Nat) (openEnd : Bool) : List (Nat × Nat) := coverFrom 34 sa sb openEnd

/-- The lowest block that contains blocks. -/
def lowestBlock (bs : List (Nat × Nat)) : Nat × Nat :=
  let los := bs.map (fun b => b.2 * 2 ^ b.1)
  let lo := los.foldl Nat.min (los.headD 0)
  let hi := maxBy (fun b => (b.2 + 1) * 2 ^ b.1 - 1) bs
  let k := ((List.range 17).find? (fun k => decide (lo / 2 ^ k = hi / 2 ^ k))).getD 16
  (k, lo / 2 ^ k)

/-! ### Records (R45, R116) -/

/-- The header of a record; `flags` is byte 0x0B. -/
structure RecHead where
  program : Nat
  step : Nat
  level : Nat
  flags : Nat
  index : Nat
  heads : Nat
  tenant : Nat
  layer : Nat
  dim : Nat
  stream : Nat
  qpos : Nat
  deriving DecidableEq, Repr

def RecHead.bytes (h : RecHead) : List Byte :=
  recordBytes [(64, h.program), (16, h.step), (8, h.level), (8, h.flags), (16, h.index), (16, h.heads), (12, h.tenant), (4, 0), (8, h.layer),
    (3, h.dim), (5, 0), (32, h.stream), (24, h.qpos), (8, 0), (32, 0)]

/-- A header from its bytes, and whether its reserved fields are zero, its flags apart. -/
def recHeadOf (b : List Byte) : RecHead × Bool :=
  (⟨leAt b 0 8, leAt b 8 2, leAt b 0x0A 1, leAt b 0x0B 1, leAt b 0x0C 2, leAt b 0x0E 2, leAt b 0x10 2 % 4096, leAt b 0x12 1,
     leAt b 0x13 1 % 8, leAt b 0x14 4, leAt b 0x18 3⟩,
   decide (leAt b 0x10 2 / 4096 = 0 ∧ leAt b 0x13 1 / 8 = 0 ∧ leAt b 0x1B 1 = 0 ∧ leAt b 0x1C 4 = 0))

def partialFlags (bf final : Bool) : Nat := packFields [(1, b2n bf), (1, b2n final), (6, 0)]
def gradFlags (fmt : Nat) : Nat := packFields [(2, 0), (1, 1), (2, fmt), (3, 0)]

/-- A partial record: m and l of each head, then o (R45). -/
def partialRecord (h : RecHead) (bf : Bool) (ps : List Partial) : List Byte :=
  h.bytes ++ (ps.map (fun p => leBytes 4 p.m.toNat ++ leBytes 4 p.l.toNat)).flatten ++ (ps.map (fun p => valBytes (if bf then 1 else 15) p.o)).flatten

/-- A dQ record in DQ_FMT `code`: FP32 and BF16 by heads; FP8 as scales, pips and data with scales fixed at emission (R116). -/
def gradRecord (h : RecHead) (code : Nat) (vs : List (List F32)) : List Byte :=
  let fmt := gradFmt code
  h.bytes ++
    (if code < 2 then (vs.map (valBytes fmt)).flatten
     else
       let qs := vs.map (fun v => (quantFresh false fmt v).1)
       (qs.map (fun q => leBytes 4 q.scale.toNat)).flatten ++ (qs.map (fun q => q.pips.map (BitVec.ofNat 8))).flatten ++
         (qs.map (fun q => packElems fmt q.codes)).flatten)

/-- Saturated conversions of a dQ record (R71). -/
def gradRecordSat (code : Nat) (vs : List (List F32)) : Nat :=
  if code < 2 then 0 else sumBy (fun v => (quantFresh false (gradFmt code) v).2) vs

def partialSize (bf : Bool) (qh d : Nat) : Nat := 32 + 8 * qh + qh * d * (if bf then 2 else 4)
def gradSize (code qh d : Nat) : Nat := 32 + qh * (match code with | 0 => 4 * d | 1 => 2 * d | _ => 4 + d / 16 + d)

/-- Bytes that `n` records of a size take in a SCRATCH buffer (R260). -/
def placedSize (n size : Nat) : Nat := n * ((size + 63) / 64 * 64)

/-! ### ATT.MERGE (R267 to R269) -/

/-- An input record of a merge. -/
structure InRec where
  head : RecHead
  ok : Bool
  grad : Bool
  parts : List Partial
  deriving DecidableEq, Repr

/-- Bytes of the record that a header starts. -/
def recSize (h : RecHead) : Nat :=
  if h.flags.testBit 2 then gradSize (fld h.flags 4 3) h.heads (headDim h.dim) else partialSize (h.flags.testBit 0) h.heads (headDim h.dim)

/-- A record from the bytes of a buffer. A dQ record's vectors stand as the `o` of its parts. A QUERY_HEADS outside 1 to 512, a HEAD_DIM code 5 to
7 and a dQ record in an FP8 format count as conditions of R269 as well (DESIGN CHOICE, log 90). -/
def inRecOf (b : List Byte) : InRec :=
  let hz := recHeadOf b
  let h := hz.1
  let d := headDim h.dim
  let grad := h.flags.testBit 2
  let flagsOk := if grad then decide (fld h.flags 1 0 = 0 ∧ fld h.flags 7 5 = 0 ∧ fld h.flags 4 3 < 2) else decide (h.flags < 4)
  let bf := if grad then decide (fld h.flags 4 3 = 1) else h.flags.testBit 0
  let off := if grad then 32 else 32 + 8 * h.heads
  let w := if bf then 2 else 4
  let o := fun (i : Nat) => bufVals (if bf then 1 else 15) (slice b (off + i * d * w) (d * w))
  let ml := fun (i : Nat) (k : Nat) => if grad then f32Zero else BitVec.ofNat 32 (leAt b (32 + 8 * i + 4 * k) 4)
  { head := h, grad := grad,
    ok := hz.2 && flagsOk && decide (h.level ≤ 16 ∧ h.index < 2 ^ (16 - h.level) ∧ 1 ≤ h.heads ∧ h.heads ≤ 512 ∧ d ≠ 0) && !(!grad && h.flags.testBit 1),
    parts := (List.range h.heads).map (fun i => ⟨ml i 0, ml i 1, o i⟩) }

/-- The records at the start of a buffer, one after another, each padded to 64 bytes; true where they run past its end, the last one with what its
header says. -/
def inRecs (n : Nat) (b : List Byte) : List InRec × Bool :=
  match n with
  | 0 => ([], false)
  | k + 1 =>
    if b.length < 32 then ([], true)
    else
      let r := inRecOf b
      let sz := recSize r.head
      if !r.ok then ([r], decide (b.length < sz))
      else if b.length < sz then ([r], true)
      else let x := inRecs k (b.drop ((sz + 63) / 64 * 64)); (r :: x.1, x.2)

def InRec.group (r : InRec) : Nat × Nat × Nat := (r.head.stream, r.head.layer, r.head.qpos)

/-- Blocks are the same or nested. -/
def nestedBlocks (a b : Nat × Nat) : Bool :=
  if a.1 ≤ b.1 then a.2 / 2 ^ (b.1 - a.1) == b.2 else b.2 / 2 ^ (a.1 - b.1) == a.2

/-- Some pair of a list meets a relation. -/
def anyPair {α : Type} (p : α → α → Bool) : List α → Bool
  | [] => false
  | a :: r => r.any (p a) || anyPair p r

/-- The conditions of R269. -/
def mergeInvalid (tenant count : Nat) (grad : Bool) (rs : List InRec) : Bool :=
  decide (count = 0) || rs.any (fun r => !r.ok || decide (r.head.tenant ≠ tenant) || (r.grad != grad)) ||
    anyPair (fun a b => a.group == b.group && (nestedBlocks (a.head.level, a.head.index) (b.head.level, b.head.index) ||
      decide (a.head.heads ≠ b.head.heads ∨ a.head.dim ≠ b.head.dim))) rs

/-- The records of a group merged (R268): its lowest block, and a value for each head. -/
def mergeGroup (grad : Bool) (rs : List InRec) : (Nat × Nat) × List Partial :=
  let b := lowestBlock (rs.map (fun r => (r.head.level, r.head.index)))
  let n := ((rs.head?.map (fun r => r.head.heads)).getD 0)
  let d := ((rs.head?.map (fun r => headDim r.head.dim)).getD 0)
  (b, (List.range n).map (fun h =>
    let given := fun (k : Nat) => (rs.filter (fun r => r.head.level == k)).map (fun r => (r.head.index, r.parts.getD h (idPartial d)))
    if grad then
      ⟨f32Zero, f32Zero, blockValue addVec addZero (zeroVec d) (fun k => (given k).map (fun x => (x.1, x.2.o))) b.1 b.2⟩
    else blockValue mergePartial id (idPartial d) given b.1 b.2))

/-- The output record of a group. -/
def mergedRecord (p : Prog) (k : Nat) (grad final bf : Bool) (rs : List InRec) : List Byte :=
  let v := mergeGroup grad rs
  match rs with
  | [] => []
  | r :: _ =>
    let h : RecHead := { r.head with program := p.id, step := k, level := v.1.1, index := v.1.2,
                                     flags := if grad then gradFlags (b2n bf) else partialFlags bf final }
    if grad then gradRecord h (b2n bf) (v.2.map Partial.o) else partialRecord h bf (if final then v.2.map Partial.finalize else v.2)

/-- Values of a group's output record that BF16 turns into an infinity (R61, R71). -/
def mergedSat (grad final : Bool) (rs : List InRec) : Nat :=
  let v := (mergeGroup grad rs).2
  sumBy (fun x => plainSat 1 x.o) (if final ∧ !grad then v.map Partial.finalize else v)

/-- The input records of an ATT.MERGE (R267). -/
def mergeIn (p : Prog) (w : Nat) : List InRec × Bool := inRecs (fld w 63 48) (p.bytes (fld w 34 32))

/-- The groups of its records, and the records of one. -/
def mergeGroups (p : Prog) (w : Nat) : List (Nat × Nat × Nat) := dedup ((mergeIn p w).1.map InRec.group)
def mergeOf (p : Prog) (w : Nat) (g : Nat × Nat × Nat) : List InRec := (mergeIn p w).1.filter (fun r => r.group == g)

/-- Bytes that the merged records take in a SCRATCH buffer (R260). -/
def mergeOut (p : Prog) (w : Nat) : Nat :=
  let bf := fbit w 2
  let size := fun (r : InRec) => if fbit w 1 then gradSize (b2n bf) r.head.heads (headDim r.head.dim) else partialSize bf r.head.heads (headDim r.head.dim)
  sumBy (fun g => ((mergeOf p w g).head?.map (fun r => placedSize 1 (size r))).getD 0) (mergeGroups p w)

/-- The conditions of R269. -/
def mergeChecks (p : Prog) (w : Nat) : List (Bool × Compl) :=
  [(mergeInvalid p.tenant (fld w 63 48) (fbit w 1) (mergeIn p w).1, refusedWith scMergeInvalid),
   ((mergeIn p w).2 || outShort p (fld w 37 35) (mergeOut p w), refusedWith scBufferShort)]

def attMergeEffect (s : State) (c : Nat) : State :=
  issueStep s c (isOp .attMerge) (fun s p w k =>
    match firstOf (generalChecks s p w ++ mergeChecks p w) with
    | some r => finishStep s c k r
    | none =>
      let recs := (mergeGroups p w).map (fun g => mergedRecord p k (fbit w 1) (fbit w 0) (fbit w 2) (mergeOf p w g))
      let sat := if fbit w 2 then sumBy (fun g => mergedSat (fbit w 1) (fbit w 0) (mergeOf p w g)) (mergeGroups p w) else 0
      -- the cluster that merges is the node's choice (R20)
      let cl := drawPick s 8
      let s1 := placeRecords (addCtr cl.2 .coreSat sat) c (fld w 37 35) recs (fun s rs => emitPly s c k true cl.1 rs)
      finishStep s1 c k (stOk, 0))

/-- ATT_MERGE (R268). -/
def execAttMerge (c : Nat) (s : State) : Host.Outcome State Fault Refusal := .next (attMergeEffect s c)

end Sys2Proof.Machine
end

