-- ==== Sys2Proof/Machine/Softmax.lean ====
section
/-! DEFINITION. The arithmetic of attention: held positions, query versions, scores, segment partials, the kept logsumexp; the backward
contractions (02 R51, 04 R83, R86 to R93, 05 R107, R112 to R114). -/

namespace Sys2Proof.Machine
open Sys2Proof

/-! ### What is held (R87) -/

/-- Spliced positions `lo` to `hi` that a tile holds for a run: offset, number of the run, object (none for an inline position). -/
structure Span where
  lo : Nat
  hi : Nat
  off : Int
  run : Nat
  oid : Option Nat
  tile : Tile
  deriving DecidableEq, Repr

/-- The number that stands for the run of the inline positions. -/
def inlineRun : Nat := 2 ^ 24

/-- The spans of inline tiles; a tile's slots before its `base` are not among them. -/
def inlineSpans (ts : List Tile) : List Span := ts.map (fun t => ⟨t.base, t.base + t.valid - 1, 0, inlineRun, none, t⟩)

/-- The spans of a ply's resolved runs. -/
def runSpans (tiles : Tab Nat Tile) (rs : List RunSnap) : List Span :=
  ((List.zip (List.range rs.length) rs).map (fun x => x.2.tiles.filterMap (fun o => (Tab.find tiles o).bind (fun t =>
    (spliceSpan t x.2.low x.2.high x.2.offset).map (fun ab => ⟨ab.1, ab.2, x.2.offset, x.1, some o, t⟩))))).flatten

/-- The span and slot that hold a position; an inline position comes first. -/
def heldAt (sps : List Span) (p : Nat) : Option (Span × Nat) :=
  (sps.find? (fun x => decide (x.lo ≤ p ∧ p ≤ x.hi))).map (fun x => (x, (((p : Int) - x.off) - (x.tile.base : Int)).toNat))

/-- The key of head `h` in slot `j` as a stored domain. -/
def Tile.kDom (t : Tile) (j h : Nat) : QDom :=
  let d := headDim t.dimCode
  let x := t.slots.getD j ⟨[], [], [], [], []⟩
  ⟨t.kScale.getD h f32One, if t.zp && zpAllowed t.kFmt then t.kZp.getD h 0 else 0, (x.kPips.drop (h * (d / 16))).take (d / 16), (x.k.drop (h * d)).take d⟩

/-- The value of head `h` in slot `j` as a stored domain. -/
def Tile.vDom (t : Tile) (j h : Nat) : QDom :=
  let d := headDim t.dimCode
  let x := t.slots.getD j ⟨[], [], [], [], []⟩
  ⟨t.vScale.getD h f32One, if t.zp && zpAllowed t.vFmt then t.vZp.getD h 0 else 0, (x.vPips.drop (h * (d / 16))).take (d / 16), (x.v.drop (h * d)).take d⟩

/-! ### Queries (R86, R90) -/

/-- The softmax scale (R86). -/
def softmaxScale (sc : F32) (d : Nat) : F32 :=
  if F32.isZero sc then
    match d with
    | 64 => 0x3E000000 | 96 => 0x3DD105EC | 128 => 0x3DB504F3 | 192 => 0x3D93CD3A | _ => 0x3D800000
  else sc

/-- What the arithmetic needs of an instruction: its parameter block, head dimension, query heads, key/value heads, mask and queries
(query positions, heads, elements). -/
structure AttIn where
  pb : PBlock
  d : Nat
  qh : Nat
  kvh : Nat
  mask : Mask
  qs : List (List (List F32))
  deriving DecidableEq, Repr

def AttIn.group (a : AttIn) : Nat := a.qh / (if a.kvh = 0 then 1 else a.kvh)

/-- q_t: the query of head `h` at index `i` in the frame of the stored keys (R90). -/
def AttIn.query (a : AttIn) (i h : Nat) : List F32 :=
  let q := (a.qs.getD i []).getD h []
  if a.pb.qrot then rot (a.pb.rope a.d) ((a.mask.first + i : Nat) : Int) q else q

/-- The version of a query that scores runs of an offset (R90). -/
def AttIn.version (a : AttIn) (q : List F32) (off : Int) : List F32 := rot (a.pb.rope a.d) (-off) q

/-- The versions in QFMT for the offsets in use, and the saturated conversions. -/
def AttIn.versions (a : AttIn) (i h : Nat) (offs : List Int) : List (Int × QDom × Nat) :=
  let q := a.query i h
  offs.map (fun o => let r := loadOperand a.pb.qfmt a.pb.qzp (a.version q o); (o, r.1, r.2))

def versionAt (vs : List (Int × QDom × Nat)) (o : Int) : QDom := ((vs.find? (fun x => x.1 == o)).map (fun x => x.2.1)).getD QDom.empty

/-- The score of a key (R86). -/
def AttIn.score (a : AttIn) (q : QDom) (k : Span × Nat) (kv : Nat) : F32 :=
  fmul (contract a.pb.qfmt q k.1.tile.kFmt (k.1.tile.kDom k.2 kv)) (softmaxScale a.pb.scale a.d)

/-- The live keys of segment `g` for the query at `t`, by position in the segment (R51, R87). -/
def segKeys (m : Mask) (sps : List Span) (t g : Nat) : List (Option (Span × Nat)) :=
  (List.range 256).map (fun k => let p := 256 * g + k; if m.live t p then heldAt sps p else none)

/-- Probabilities, or dS, converted with one scale for the segment; probabilities in BF16 and FP16 are rounded without scale (R67, R92,
R112); the values and the saturated conversions. -/
def convertSeg (prob : Bool) (fmt : Nat) (xs : List F32) : List F32 × Nat :=
  let q := if prob ∧ (fmt = 1 ∨ fmt = 2) then quantWith prob fmt f32One 0 xs else quantFresh prob fmt xs
  (q.1.values fmt, q.2)

/-- The partial of one segment and head (R47, R51, R92), and saturated conversions. -/
def segPartial (a : AttIn) (vs : List (Int × QDom × Nat)) (keys : List (Option (Span × Nat))) (kv : Nat) : Partial × Nat :=
  let ss := keys.map (Option.map (fun k => a.score (versionAt vs k.1.off) k kv))
  let live := ss.filterMap id
  if live = [] then (idPartial a.d, 0)
  else if live.any (fun x => F32.isNan x || x == f32PosInf) then (⟨f32Nan, f32Nan, List.replicate a.d f32Nan⟩, 0)
  else
    let m := live.foldl fmax f32NegInf
    if m = f32NegInf then (idPartial a.d, 0)
    else
      let ps := ss.map (fun x => match x with | some x => fexp (fsub x m) | none => f32Zero)
      let pc := convertSeg true a.pb.pfmt ps
      let vals := keys.map (Option.map (fun k => (k.1.tile.vDom k.2 kv).values k.1.tile.vFmt))
      let o := (List.range a.d).map (fun i => tree (List.zipWith (fun (p : F32) (v : Option (List F32)) => match v with
        | some v => fmul p (v.getD i f32Zero)
        | none => f32Zero) pc.1 vals))
      (⟨m, tree ps, o⟩, pc.2)

/-- The segments of a range that spans touch. -/
def touchedSegs (m : Mask) (sps : List Span) : List Nat :=
  if m.high < m.low then []
  else ((List.range (m.high / 256 + 1 - m.low / 256)).map (fun i => m.low / 256 + i)).filter (fun g =>
    sps.any (fun x => decide (x.lo ≤ 256 * g + 255 ∧ 256 * g ≤ x.hi)))

/-- The cover of the instruction's range (R53). -/
def Mask.cover (m : Mask) (openEnd : Bool) : List (Nat × Nat) :=
  if m.high < m.low then [(0, m.low / 256)] else coverOf (m.low / 256) (m.high / 256) openEnd

/-- The segment partials of one query and head, and saturated conversions. -/
def headSegs (a : AttIn) (sps : List Span) (i h : Nat) : List (Nat × Partial) × Nat :=
  let vs := a.versions i h (dedup (sps.map Span.off))
  let rs := (touchedSegs a.mask sps).map (fun g => (g, segPartial a vs (segKeys a.mask sps (a.mask.first + i) g) (h / a.group)))
  (rs.map (fun r => (r.1, r.2.1)), sumBy (fun r => r.2.2) rs + sumBy (fun v => v.2.2) vs)

/-- The value of a block from segment partials (R93). -/
def segBlock (d : Nat) (segs : List (Nat × Partial)) (b : Nat × Nat) : Partial :=
  blockValue mergePartial id (idPartial d) (fun k => if k = 0 then segs else []) b.1 b.2

/-- What one query position yields: for each block of its records the partial of every head, the logsumexp of every head (R107), and
saturated conversions. -/
structure QueryOut where
  blocks : List ((Nat × Nat) × List Partial)
  lse : List F32
  sat : Nat
  deriving DecidableEq, Repr

def queryOut (a : AttIn) (openEnd : Bool) (sps : List Span) (i : Nat) : QueryOut :=
  let hs := (List.range a.qh).map (headSegs a sps i)
  let cover := a.mask.cover openEnd
  let low := lowestBlock cover
  let whole := hs.map (fun h => segBlock a.d h.1 low)
  { blocks := if a.pb.final then [(low, whole.map Partial.finalize)] else cover.map (fun b => (b, hs.map (fun h => segBlock a.d h.1 b))),
    lse := whole.map Partial.lse, sat := sumBy Prod.snd hs }

/-! ### Backward (R112 to R114) -/

/-- The further operands of a backward instruction: its fields, dO by positions and heads, D and λ by positions and heads. -/
structure BwdIn where
  b : BwdBlock
  dos : List (List (List F32))
  ds : List (List F32)
  lam : List (List F32)
  deriving DecidableEq, Repr

/-- One query, head and segment: dŜ and P̂ by position of the segment. -/
structure BwdSeg where
  i : Nat
  h : Nat
  g : Nat
  keys : List (Option (Span × Nat))
  ds : List F32
  ps : List F32
  deriving DecidableEq, Repr

/-- A NaN or an infinity among the operands makes the gradients that depend on it NaN (R120). -/
def nanOf (x : F32) : F32 := if F32.isFinite x then x else f32Nan

def bwdSeg (a : AttIn) (x : BwdIn) (vs : List (Int × QDom × Nat)) (dq : QDom) (i h g : Nat) (keys : List (Option (Span × Nat))) : BwdSeg × Nat :=
  let kv := h / a.group
  let lam := nanOf ((x.lam.getD i []).getD h f32Zero)
  let dt := nanOf ((x.ds.getD i []).getD h f32Zero)
  let pd := keys.map (Option.map (fun k =>
    let p := fexp (fsub (nanOf (a.score (versionAt vs k.1.off) k kv)) lam)
    let dp := contract x.b.gfmt dq k.1.tile.vFmt (k.1.tile.vDom k.2 kv)
    (p, fmul p (fsub dp dt))))
  let ps := convertSeg true a.pb.pfmt (pd.map (fun y => (y.map Prod.fst).getD f32Zero))
  let ds := convertSeg false x.b.gfmt (pd.map (fun y => (y.map Prod.snd).getD f32Zero))
  (⟨i, h, g, keys, ds.1, ps.1⟩, ps.2 + ds.2)

/-- dq_g of R113 before it enters the tree: run by run in position order. -/
def dqSeg (a : AttIn) (runs : List (Nat × Int)) (r : BwdSeg) : List F32 :=
  let kv := r.h / a.group
  let ks := r.keys.map (Option.map (fun k => (k.1.run, (k.1.tile.kDom k.2 kv).values k.1.tile.kFmt)))
  if ks.all Option.isNone then zeroVec a.d
  else
    let ar := runs.map (fun ro =>
      let v := (List.range a.d).map (fun e => tree (List.zipWith (fun (s : F32) (k : Option (Nat × List F32)) => match k with
        | some (run, kv) => if run = ro.1 then fmul s (kv.getD e f32Zero) else f32Zero
        | none => f32Zero) r.ds ks))
      rot (a.pb.rope a.d) ro.2 v)
    let sum := match ar with | [] => zeroVec a.d | x :: rest => rest.foldl addVec x
    let sc := sum.map (fun x => fmul x (softmaxScale a.pb.scale a.d))
    if a.pb.qrot then rot (a.pb.rope a.d) (-((a.mask.first + r.i : Nat) : Int)) sc else sc

/-- Every segment of an instruction, with saturated conversions. -/
def bwdSegs (a : AttIn) (x : BwdIn) (sps : List Span) : List BwdSeg × Nat :=
  let offs := dedup (sps.map Span.off)
  let rs := ((List.range a.mask.count).map (fun i => ((List.range a.qh).map (fun h =>
    let vs := a.versions i h offs
    let dq := quantFresh false x.b.gfmt ((x.dos.getD i []).getD h [])
    -- the query operands of `dkv`, one conversion for each offset
    let qq := sumBy (fun off => (quantFresh false x.b.gfmt (a.version (a.query i h) off)).2) offs
    let segs := (touchedSegs a.mask sps).map (fun g => bwdSeg a x vs dq.1 i h g (segKeys a.mask sps (a.mask.first + i) g))
    (segs.map Prod.fst, sumBy Prod.snd segs + sumBy (fun v => v.2.2) vs + dq.2 + qq))))).flatten
  ((rs.map Prod.fst).flatten, sumBy Prod.snd rs)

/-- dQ of one query and head for each block of the cover (R113). -/
def dqBlocks (a : AttIn) (openEnd : Bool) (snaps : List RunSnap) (rs : List BwdSeg) (i h : Nat) : List ((Nat × Nat) × List F32) :=
  let mine := rs.filter (fun r => r.i == i && r.h == h)
  let runs := fun (g : Nat) => ((List.zip (List.range snaps.length) snaps).filter (fun x =>
    decide (x.2.low ≤ 256 * g + 255 ∧ 256 * g ≤ x.2.high))).map (fun x => (x.1, x.2.offset))
  let segs := mine.map (fun r => (r.g, dqSeg a (runs r.g) r))
  (a.mask.cover openEnd).map (fun b => (b, blockValue addVec addZero (zeroVec a.d) (fun k => if k = 0 then segs else []) b.1 b.2))

/-- dK and dV of one key position and key/value head (R114). -/
def dkv (a : AttIn) (x : BwdIn) (rs : List BwdSeg) (p : Nat) (off : Int) (kv : Nat) : List F32 × List F32 :=
  let g := p / 256
  let k := p % 256
  let is := ((List.range a.mask.count).map (fun i => (List.range a.group).map (fun j => (i, kv * a.group + j)))).flatten
  let terms := is.map (fun ih =>
    match rs.find? (fun r => r.i == ih.1 && r.h == ih.2 && r.g == g && ((r.keys.getD k none).isSome)) with
    | none => none
    | some r =>
      let q := ((quantFresh false x.b.gfmt (a.version (a.query ih.1 ih.2) off)).1).values x.b.gfmt
      let o := ((quantFresh false x.b.gfmt ((x.dos.getD ih.1 []).getD ih.2 [])).1).values x.b.gfmt
      some (r.ds.getD k f32Zero, r.ps.getD k f32Zero, q, o))
  let sum := fun (f : F32 × F32 × List F32 × List F32 → F32) => tree (terms.map (fun t => match t with | some t => f t | none => f32Zero))
  ((List.range a.d).map (fun e => fmul (softmaxScale a.pb.scale a.d) (sum (fun t => fmul t.1 (t.2.2.1.getD e f32Zero)))),
   (List.range a.d).map (fun e => sum (fun t => fmul t.2.1 (t.2.2.2.getD e f32Zero))))

/-- The gradients of one source tile: for each slot dK and dV of every key/value head. -/
structure TileGrads where
  oid : Nat
  tile : Tile
  slots : List (Nat × List (List F32) × List (List F32))
  deriving DecidableEq, Repr

/-- The gradients that an instruction has for source tiles. Where two spliced positions share one slot of a source, of which R114 does not say how they
combine, theirs are added in position order (DESIGN CHOICE, log 85). -/
def tileGrads (a : AttIn) (x : BwdIn) (sps : List Span) (rs : List BwdSeg) : List TileGrads :=
  let tiles := dedup (sps.filterMap (fun sp => sp.oid.map (fun o => (o, sp.tile))))
  tiles.filterMap (fun ot =>
    let ps := ((sps.filter (fun sp => sp.oid == some ot.1)).map (fun sp => (List.range (sp.hi + 1 - sp.lo)).map (fun i => (sp.lo + i, sp)))).flatten
    let live := ps.filter (fun q => a.mask.queries.any (fun t => a.mask.live t q.1))
    let one := fun (q : Nat × Span) =>
      let r := (List.range a.kvh).map (dkv a x rs q.1 q.2.off)
      ((((q.1 : Int) - q.2.off) - (q.2.tile.base : Int)).toNat, r.map Prod.fst, r.map Prod.snd)
    let add := fun (acc : List (Nat × List (List F32) × List (List F32))) (q : Nat × List (List F32) × List (List F32)) =>
      match acc.find? (fun y => y.1 == q.1) with
      | some y => acc.map (fun z => if z.1 = q.1 then (z.1, List.zipWith addVec y.2.1 q.2.1, List.zipWith addVec y.2.2 q.2.2) else z)
      | none => acc ++ [q]
    if live = [] then none else some ⟨ot.1, ot.2, (live.map one).foldl add []⟩)

end Sys2Proof.Machine
end

