-- ==== Sys2Proof/Machine/Gradient.lean ====
section
/-! DEFINITION. Gradient sets: holds, gradient tiles as a program sees them, writes (05 R116 to R118, 03 R80). -/

namespace Sys2Proof.Machine
open Sys2Proof

/-- Another program holds the gradient set. -/
def gradBusy (s : State) (tenant set lsn : Nat) : Bool :=
  match Tab.find s.mem.gradHold (tenant, set) with | some l => l != lsn | none => false

def getGrad (s : State) (k : GradKey) : Option GradCell := Tab.find s.mem.grads k

/-- A gradient tile as the program sees it: its own writes at once, another's from their commit (R118). -/
def GradCell.seen (c : GradCell) (mine : Bool) : Option GradTile := if mine then c.pending.or c.committed else c.committed

def seenGrad (s : State) (lsn : Nat) (k : GradKey) : Option GradTile :=
  (getGrad s k).bind (fun c => c.seen (decide (Tab.find s.mem.gradHold (k.1, k.2.1) = some lsn)))

/-- The domain of a head of a half, with the format that it has (R201). -/
def GradTile.dom (g : GradTile) (isK : Bool) (h : Nat) : Nat × QDom :=
  if isK then (Tab.find g.kOld h).getD (g.kFmt, g.k.getD h QDom.empty) else (Tab.find g.vOld h).getD (g.vFmt, g.v.getD h QDom.empty)

/-- Head `h`, slot `j`, of a half: dequantized, or +0 where the tile holds none. -/
def GradTile.vec (g : GradTile) (isK : Bool) (h j : Nat) : List F32 :=
  let d := headDim g.dimCode
  let q := g.dom isK h
  if j * d < q.2.codes.length then (q.2.values q.1).drop (j * d) |>.take d else zeroVec d

/-- The formats that the domains of a half have. -/
def GradTile.fmts (g : GradTile) (isK : Bool) : List Nat := if isK then g.kFmt :: g.kOld.vals.map Prod.fst else g.vFmt :: g.vOld.vals.map Prod.fst

/-- A half gets another format; its domains keep their own until they are written (R201). -/
def GradTile.refmt (g : GradTile) (isK : Bool) (fmt : Nat) : GradTile :=
  let old := fun (f : Nat) (l : List QDom) (t : Tab Nat (Nat × QDom)) =>
    (List.range l.length).foldl (fun t h => if (Tab.find t h).isSome then t else Tab.put t h (f, l.getD h QDom.empty)) t
  if isK then (if g.kFmt = fmt then g else { g with kFmt := fmt, kOld := old g.kFmt g.k g.kOld })
  else (if g.vFmt = fmt then g else { g with vFmt := fmt, vOld := old g.vFmt g.v g.vOld })

/-- A domain of a half is written in its format. -/
def GradTile.setDom (g : GradTile) (isK : Bool) (fmt h : Nat) (q : QDom) : GradTile :=
  let g1 := g.refmt isK fmt
  if isK then { g1 with k := g1.k.set h q, kOld := Tab.del g1.kOld h } else { g1 with v := g1.v.set h q, vOld := Tab.del g1.vOld h }

/-- The blocks of a gradient tile in T1. -/
def gradBlocks (c : GradCell) : List Nat := objBlocks (some c.hdr) c.body

/-- Reads a gradient tile; true where it is poisoned. -/
def readGrad (s : State) (k : GradKey) : Bool × State :=
  match getGrad s k with
  | none => (false, s)
  | some c => if c.poisoned then (true, s) else readSound s (.grad k) (gradBlocks c) (((c.pending.or c.committed).map GradTile.sound).getD true)

/-- A half of a gradient tile from its vectors by head and slot: one domain per head, with a fresh scale (R80, R117). -/
def gradHalf (fmt heads valid : Nat) (vec : Nat → Nat → List F32) : List QDom × Nat :=
  let rs := (List.range heads).map (fun h => quantFresh false fmt ((List.range valid).map (vec h)).flatten)
  (rs.map Prod.fst, sumBy Prod.snd rs)

/-- Granules of a gradient tile. -/
def GradTile.size (g : GradTile) : Nat := gradGranules g.kFmt g.vFmt g.heads (headDim g.dimCode)

/-- A gradient tile of `n` granules takes its place and its number, and the program holds its set (R118, R405). A tile that grows moves to new
granules. `keep` says that what the tile held is still to be read: it stays as it stands, poison included. -/
def storeGrad (s : State) (lsn : Nat) (k : GradKey) (n : Nat) (g : GradTile) (keep : Bool) : Option Compl × State :=
  if gradBusy s k.1 k.2.1 lsn then (some (refusedWith scGradSetBusy), s)
  else if nonceSpent s k.1 1 then (some (refusedWith scNonceSpent), s)
  else
    let hold := fun (s : State) => { s with mem := { s.mem with gradHold := Tab.put s.mem.gradHold (k.1, k.2.1) lsn } }
    let put := fun (s : State) (c : GradCell) =>
      let q := takeSeqs s k.1 1
      let g1 := { g with epoch := q.2.1, counter := q.1 }
      hold { q.2.2 with mem := { q.2.2.mem with grads := Tab.put q.2.2.mem.grads k { c with pending := some g1, poisoned := keep && c.poisoned } } }
    match getGrad s k with
    | some c =>
      if n ≤ c.body.length then (none, put (if keep then s else clearErr s (gradBlocks c)) c)
      else match allocTenant s k.1 (homeDie s k.1 k.2.2.1) n (bodyCharge n - bodyCharge c.body.length) true with
        | (.refused r, s1) => (some r, s1)
        | (.took die body hdr, s1) =>
          let r := if keep then readGrad s1 k else (false, s1)
          (none, put r.2 { c with die := die, body := body, hdr := hdr, poisoned := c.poisoned || r.1 })
    | none =>
      match allocTenant s k.1 (homeDie s k.1 k.2.2.1) n (bodyCharge n) true with
      | (.refused r, s1) => (some r, s1)
      | (.took die body hdr, s1) => (none, put s1 ⟨none, none, die, body, hdr, false⟩)

/-- The gradient tile that a first write makes for a source tile: its header fields are copied then and stay (R117). -/
def GradTile.of (src : Tile) (fmt : Nat) : GradTile :=
  { kFmt := fmt, vFmt := fmt, posEnc := src.posEnc, valid := src.valid, heads := src.heads, dimCode := src.dimCode, writes := 0, epoch := 0,
    counter := ⟨0, 0, 0⟩, k := [], v := [], kOld := [], vOld := [] }

/-- What refuses a write of gradient tiles into a set, each condition by itself (R118, R120, R168, R278, R409). -/
def gradListChecks (s : State) (lsn tenant set : Nat) (gs : List (GradKey × GradTile)) : List (Bool × Compl) :=
  let charge := sumBy (fun x => match getGrad s x.1 with
    | some c => bodyCharge x.2.size - bodyCharge c.body.length
    | none => bodyCharge x.2.size) gs
  let loose := putTenant s tenant { getTenant s tenant with tierQuota := 2 ^ 64 }
  let room := gs.foldl (fun (acc : Option Compl × State) x => match acc.1 with
    | some _ => acc
    | none => storeGrad acc.2 lsn x.1 x.2.size x.2 false) ((none, loose) : Option Compl × State)
  [(decide (gs ≠ []) && gradBusy s tenant set lsn, refusedWith scGradSetBusy),
   (room.1.isSome, room.1.getD (stOk, 0)),
   (decide (0 < charge) && !quotaFits (quotaEvict s tenant charge) tenant charge, (stQuota, 0))]

/-- The same for a write of gradient tiles in a format for source tiles. -/
def gradRoomChecks (s : State) (lsn tenant set fmt : Nat) (ts : List Tile) : List (Bool × Compl) :=
  gradListChecks s lsn tenant set (ts.map (fun t =>
    let key : GradKey := (tenant, set, t.stream, t.layer, t.base)
    (key, { ((seenGrad s lsn key).getD (GradTile.of t fmt)) with kFmt := fmt, vFmt := fmt })))

/-- What a write of some halves of the gradient tile of a source tile in a format begins with: the size of what it makes, what the tile held or
zeros, whether it was there (R117, R118). -/
def gradOpen (old : Option GradTile) (src : Tile) (k v : Bool) (fmt : Nat) : Nat × GradTile × Bool :=
  match old with
  | some g =>
    let g1 := if k then { g with kFmt := fmt } else g
    let g2 := if v then { g1 with vFmt := fmt } else g1
    (g2.size, { g with writes := satAdd 24 g.writes 1 }, true)
  | none =>
    let z := (gradHalf fmt src.heads src.valid (fun _ _ => zeroVec (headDim src.dimCode))).1
    let g := { GradTile.of src fmt with writes := 1, k := z, v := z }
    (g.size, g, false)

/-- The tiles that a step writes are there and held by its program before its sequences start (R118). -/
def openGrads (s : State) (lsn : Nat) (l : List (GradKey × Nat × GradTile × Bool)) : State :=
  l.foldl (fun s x => (storeGrad s lsn x.1 x.2.1 x.2.2.1 x.2.2.2).2) s

/-- What a write of dK and dV makes of one head and slot of a gradient tile: overwritten, or added to what it held (R118). Positions that the
instruction does not reach become +0 with ACCUM = 0 (DESIGN CHOICE, log 65). -/
def writtenVec (g : GradTile) (accum isK : Bool) (slots : List (Nat × List (List F32) × List (List F32))) (h j : Nat) : List F32 :=
  let zero := zeroVec (headDim g.dimCode)
  let new := match slots.find? (fun x => x.1 == j) with | some x => (if isK then x.2.1 else x.2.2).getD h zero | none => zero
  if accum then addVec (g.vec isK h j) new else new

/-- The key of the gradient tile of a source tile. -/
def TileGrads.key (x : TileGrads) (tenant set : Nat) : GradKey := (tenant, set, x.tile.stream, x.tile.layer, x.tile.base)

end Sys2Proof.Machine
end

