-- ==== Sys2Proof/Machine/Attention.lean ====
section
/-! DEFINITION. ATT.DEC, ATT.PRE and ATT.BWD at their issue: shape, parameter block, masks, inline positions, checks, what they keep, the
ply they join (04 R83 to R88, R94, R100, R101, R105, 05 R107, R109 to R111, R120, 11 R262 to R266). -/

namespace Sys2Proof.Machine
open Sys2Proof

/-- The operands of an attention instruction (R262, R265, R266). -/
structure AttOps where
  kind : PlyKind
  n : Nat
  openEnd : Bool
  flr : Nat
  pbBuf : Nat
  qBuf : Nat
  outBuf : Nat
  kvBuf : Nat
  stream : Nat
  layer : Nat
  low : Nat
  high : Nat
  qpos : Nat
  pb : PBlock
  deriving DecidableEq, Repr

def attOps (p : Prog) (w : Nat) : AttOps :=
  let kind := match opOf w with | some .attPre => PlyKind.prefill | some .attBwd => .backward | _ => .decode
  let pb := p.pblock (fld w 38 36)
  { kind := kind, n := if kind = .decode then pb.drafts + 1 else funcOf w % 128 + 1, openEnd := if kind = .decode then fbit w 0 else fbit w 7,
    flr := fld w 35 34, pbBuf := fld w 38 36, qBuf := fld w 41 39, outBuf := if kind = .backward then (bwdOf pb.bwd).dqBuf else fld w 44 42,
    kvBuf := fld w 47 45, stream := p.stream (fld w 33 32), layer := fld w 55 48, low := fld w 79 56, high := fld w 103 80,
    qpos := fld w 127 104, pb := pb }

/-- HEAD_DIM from the length of the query buffer (R263). -/
def AttOps.dim (o : AttOps) (p : Prog) : Option Nat :=
  let q := p.buf o.qBuf
  let unit := o.n * o.pb.qheads * bufElem q.fmt
  if q.vectors ∧ unit ≠ 0 ∧ q.length % unit = 0 ∧ [64, 96, 128, 192, 256].contains (q.length / unit) then some (q.length / unit) else none

/-- The node reads inline positions: not in a backward instruction (R88, R111). -/
def AttOps.inl (o : AttOps) : Bool := o.pb.inlined && o.kind != .backward

/-- KV_HEADS from the length of the key buffer (R263). -/
def AttOps.inlineHeads (o : AttOps) (p : Prog) : Option Nat :=
  match o.dim p with
  | none => none
  | some d =>
    let k := p.buf o.kvBuf
    let unit := o.n * d * bufElem k.fmt
    let h := k.length / unit
    if k.length % unit = 0 ∧ 1 ≤ h ∧ h ≤ 64 ∧ o.pb.qheads % h = 0 then some h else none

def AttOps.mask (o : AttOps) (p : Prog) : Mask :=
  { low := o.low, high := o.high, causal := o.pb.causal, pre := o.pb.pre, window := o.pb.window,
    sects := if o.pb.sectCount = 0 ∨ 64 < o.pb.sectCount then [] else p.sections o.pb, first := o.qpos, count := o.n }

/-- The runs that meet the segments of a range, each with its tiles of a layer that hold a live position. -/
def liveRuns (s : State) (tenant stream layer : Nat) (m : Mask) : List (Row × RunDesc × List Nat) :=
  if m.high < m.low then []
  else (streamRuns s tenant stream (m.low / 256 * 256) (m.high / 256 * 256 + 255)).map (fun r => (r.1, r.2, liveTiles s m r.1.low r.1.high r.2 layer))

/-- The tiles that runs list, as they stand. -/
def tilesOfRuns (s : State) (rs : List (Row × RunDesc × List Nat)) : List Tile :=
  ((rs.map (fun r => r.2.2)).flatten).filterMap (getTile s)

/-- The own tile of a stream in a layer with the greatest BASE_POS (R88). -/
def lastOwnTile (s : State) (p : Prog) (vs : List View) (layer : Nat) : Option Tile :=
  ((vs.map (fun v => (viewTiles s p v layer).map Prod.snd)).flatten).foldl (fun acc t => match acc with
    | none => some t
    | some a => if a.base < t.base then some t else some a) none

/-- No run of the stream intersects the range and no inline position lies in it (R105, R120). -/
def noRun (s : State) (tenant : Nat) (o : AttOps) : Bool :=
  decide (o.low ≤ o.high) && (streamRuns s tenant o.stream o.low o.high).isEmpty &&
    !(o.inl && decide (o.qpos ≤ o.high ∧ o.low < o.qpos + o.n))

/-- The head configuration of R83 over the tiles that would be read. -/
def headMismatch (qh d : Nat) (kvh : Option Nat) (ts : List Tile) : Bool :=
  let hs := kvh.toList ++ ts.map Tile.heads
  let ds := d :: ts.map (fun t => headDim t.dimCode)
  hs.any (fun h => decide (h = 0 ∨ qh % h ≠ 0 ∨ some h ≠ hs.head?)) || ds.any (fun x => decide (x ≠ d))

def zpClash (pb : PBlock) (ts : List Tile) : Bool := ts.any (fun t => !zpPairOk t.kFmt t.zp pb.qfmt pb.qzp)
def tilesBelow (flr : Nat) (ts : List Tile) : Bool := ts.any (fun t => belowFloor flr t.kFmt || belowFloor flr t.vFmt)

/-- Inline positions as tiles, quantized as an append would store them (R88), and the saturated conversions. -/
def inlineTiles (p : Prog) (o : AttOps) (d h : Nat) (src : Tile) (tail : Option (Nat × Tile)) : List Tile × Nat :=
  let rope := o.pb.rope d
  let heads := fun (b : Nat) => (chunks (h * d) (p.vals b)).map (headsOf h d)
  let k0 := heads o.kvBuf
  let ks := if o.pb.qrot then List.zipWith (fun i hs => hs.map (rot rope ((o.qpos + i : Nat) : Int))) (List.range k0.length) k0 else k0
  let vs := heads (o.kvBuf + 1)
  let made := (splitAppend tail o.qpos o.n).filterMap (fun part =>
    let is := part.2.2
    let first := is.headD 0
    let f := match part.1 with | some t => t.2.fmt | none => src.fmt
    let sc : ScaleSet := match part.1 with
      | some t => t.2.scales
      | none => let x := freshScales f (ks.getD first []) (vs.getD first []); if f.zp then { x with kz := src.kZp, vz := src.vZp } else x
    let xs := is.map (fun j => makeSlot f sc (ks.getD j []) (vs.getD j []))
    if is = [] then none
    else some ({ newTile p.tenant o.stream o.layer (o.qpos + first) f sc with
                 valid := is.length, slots := xs.map Prod.fst, written := is.length }, sumBy Prod.snd xs))
  (made.map Prod.fst, sumBy Prod.snd made)

/-- Bytes that the results take in a SCRATCH buffer (R260). -/
def attOut (o : AttOps) (m : Mask) (d : Nat) : Nat :=
  if o.kind = .backward then placedSize (o.n * (m.cover o.openEnd).length) (gradSize (bwdOf o.pb.bwd).dqFmt o.pb.qheads d)
  else placedSize (o.n * (if o.pb.final then 1 else (m.cover o.openEnd).length)) (partialSize o.pb.obf16 o.pb.qheads d)

/-- Granules for the values that KEEP_LSE keeps, by query position, or the completion that refuses them (R107, R264). -/
def keepAlloc (s : State) (tenant home n qpos qh : Nat) : Option Compl × List (Nat × List Gran) × State :=
  (List.range n).foldl (fun (acc : Option Compl × List (Nat × List Gran) × State) i =>
    match acc.1 with
    | some _ => acc
    | none =>
      match allocTenant acc.2.2 tenant home (granulesOf (4 * qh)) (4 * qh * (acc.2.1.length + 1)) false with
      | (.refused c, _) => (some c, acc.2.1, s)
      | (.took _ g _, s1) =>
        -- held by a drain of no ply until the change that keeps the values is prepared
        (none, acc.2.1 ++ [(qpos + i, g)],
          { s1 with mem := { s1.mem with drains := Tab.upd s1.mem.drains ⟨tenant, false, [], none, none, []⟩ 0 (fun d => { d with grans := d.grans ++ g }) } }))
    ((none, [], s) : Option Compl × List (Nat × List Gran) × State)

/-- KEEP_LSE applies: not in a backward instruction (R107, R111). -/
def AttOps.keeps (o : AttOps) : Bool := o.pb.keepLse && o.kind != .backward

/-- The rows of R264, as far as the shape of the instruction goes. -/
def shapeChecks (p : Prog) (o : AttOps) (ts : List Tile) : List (Bool × Compl) :=
  let d := (o.dim p).getD 0
  let k := p.buf o.kvBuf
  let v := p.buf (o.kvBuf + 1)
  [((o.dim p).isNone, refusedWith scParamInvalid),
   (o.kind != .backward && o.pb.final && !o.openEnd, refusedWith scParamInvalid),
   (o.inl && (decide (o.kvBuf = 7) || !k.source || !v.source || !k.vectors || !v.vectors || decide (k.length ≠ v.length ∨ k.fmt ≠ v.fmt)),
     refusedWith scParamInvalid),
   (decide (o.kind = .prefill ∧ o.pb.drafts ≠ 0), refusedWith scParamInvalid),
   (o.inl && (match o.inlineHeads p with | some h => ts.any (fun t => decide (t.heads ≠ h)) | none => true), refusedWith scHeadMismatch),
   (decide (16777215 < o.qpos + o.n - 1), refusedWith scPositionLimit),
   (outShort p o.outBuf (attOut o (o.mask p) d), refusedWith scBufferShort)]

/-- The die that holds most of some tiles in T1, else the home die (R94, R162). -/
def dieOfTiles (ts : List Tile) (home : Nat) : Nat :=
  let on := fun (d : Nat) => (ts.filter (fun t => decide (t.body ≠ [] ∧ t.die = d))).length
  if on 0 = on 1 then home else if on 1 < on 0 then 0 else 1

/-- The further checks of R111 and R266. -/
def bwdBad (p : Prog) (o : AttOps) (d : Nat) : Bool :=
  let b := bwdOf o.pb.bwd
  let all := o.n * o.pb.qheads * d
  let one := o.n * o.pb.qheads
  let dq := p.buf b.dqBuf
  let od := p.buf b.odBuf
  let g := p.buf b.gsetBuf
  let l := p.buf b.lseBuf
  let dO := p.buf b.doBuf
  decide (b.ver ≠ 1) || !gfmtOk b.gfmt || o.pb.obf16 || o.pb.final || o.pb.keepLse || o.pb.inlined || decide (o.pb.drafts ≠ 0) ||
    !(dq.kind == 2 || dq.kind == 3) || decide (g.kind ≠ 4 ∨ 65536 ≤ g.name) || !dO.source || !dO.vectors || !dO.holds all || !od.source ||
    (if b.dSrc then decide (od.fmt ≠ 15) || !od.holds one else !od.vectors || !od.holds all) ||
    (b.lseSrc && (!l.source || decide (l.fmt ≠ 15) || !l.holds one))

/-- The gradient set that an ATT.BWD writes. -/
def AttOps.gset (o : AttOps) (p : Prog) : Nat := p.nameId (bwdOf o.pb.bwd).gsetBuf

/-- A query position has no kept logsumexp for these query heads (R120). -/
def lseMissing (s : State) (tenant : Nat) (o : AttOps) : Bool :=
  (List.range o.n).any (fun i => match Tab.find s.mem.lse (tenant, o.stream, o.layer, o.qpos + i) with
    | some l => decide (l.vals.length ≠ o.pb.qheads)
    | none => true)

/-- The conditions of R105 and R120 that depend on runs and tiles, checked at issue and again when the ply issues (R96); `between` are
those whose rows stand between the head configuration and the pairing of zero points. -/
def runChecks (s : State) (tenant : Nat) (o : AttOps) (d : Nat) (kvh : Option Nat) (ts : List Tile) (inl : List Tile)
    (between : List (Bool × Compl)) : List (Bool × Compl) :=
  [(noRun s tenant o, (stNoRun, 0)),
   (headMismatch o.pb.qheads d kvh ts, refusedWith scHeadMismatch)] ++ between ++
  [(zpClash o.pb (ts ++ inl), refusedWith scZpPair),
   (tilesBelow o.flr ts, (stFloor, 0))]

/-- Every condition on an attention instruction at its issue (R264, R492). -/
def attChecks (s : State) (c : Nat) (p : Prog) (o : AttOps) : List (Bool × Compl) :=
  let m := o.mask p
  let rs := liveRuns s p.tenant o.stream o.layer m
  let ts := tilesOfRuns s rs
  let d := (o.dim p).getD 0
  let rope := o.pb.qrot || rs.any (fun r => decide (r.2.2 ≠ [] ∧ r.2.1.offset ≠ 0))
  let bwd := decide (o.kind = .backward)
  let b := bwdOf o.pb.bwd
  let vs := views s p.tenant o.stream c
  let spot := spotFor s p vs o.layer o.qpos
  let src := lastOwnTile s p vs o.layer
  let kvh := if o.inl then o.inlineHeads p else none
  let keep := if o.keeps ∧ 1 ≤ o.pb.qheads ∧ o.pb.qheads ≤ 512 then (keepAlloc s p.tenant (homeDie s p.tenant o.stream) o.n o.qpos o.pb.qheads).1 else none
  shapeChecks p o ts ++
  [(keep.isSome, keep.getD (stOk, 0)),
   (o.keeps && nonceSpent s p.tenant o.n, refusedWith scNonceSpent),
   (p.pblockBad (p.bytes o.pbBuf) o.pb d rope || (if bwd then !b.reserved else !o.pb.bwd.all (· == 0)), refusedWith scParamInvalid)] ++
  runChecks s p.tenant o d kvh ts (match src with | some t => if o.inl then [t] else [] | none => [])
    [(o.inl && (match src with | some t => decide (headDim t.dimCode ≠ d ∨ some t.heads ≠ kvh) | none => false), refusedWith scHeadMismatch),
     (o.inl && spot.refuse.isSome, refusedWith (spot.refuse.getD 0)),
     (o.inl && src.isNone, refusedWith scInlineNoTile)] ++
  -- the rows of R120 in their order
  [(bwd && !b.lseSrc && lseMissing s p.tenant o, refusedWith scLseMissing),
   (bwd && (p.buf b.gsetBuf).kind == 4 && gradBusy s p.tenant (o.gset p) p.lsn, refusedWith scGradSetBusy),
   (bwd && bwdBad p o d, refusedWith scParamInvalid)] ++
  (if bwd && (p.buf b.gsetBuf).kind == 4 then gradRoomChecks s p.lsn p.tenant (o.gset p) (gradFmt b.dkvFmt) (dedup ts) else [])

/-! ### Joining a ply (R94) -/

/-- Members that a ply holds. -/
def memberCount (p : Ply) : Nat := sumBy Member.count p.members

/-- A new ply of one instruction's members, or the ply being formed that they join. -/
def joinPly (s : State) (key : PlyKey) (die : Nat) (m : Member) (alone : Bool) : State :=
  let fits := fun (x : Ply) => x.issued.isNone && decide (x.key = key ∧ x.die = die ∧ memberCount x + m.count ≤ 4096)
  match if alone then none else s.pg.plies.find? (fun x => fits x.2) with
  | some (i, x) => { s with pg := { s.pg with plies := Tab.put s.pg.plies i { x with members := x.members ++ [m] } } }
  | none =>
    let x : Ply := { key := key, die := die, members := [m], issued := none, held := none, cores := [], runs := [], tiles := [], bad := [], lse := [],
                     weights := none, badMats := [] }
    { s with pg := { s.pg with plies := Tab.put s.pg.plies s.pg.nextPly x, nextPly := s.pg.nextPly + 1 } }

/-- An attention instruction passes its checks and its members join a ply on the die that holds the layer's tiles (R94); what it keeps is
prepared, under the key current now (R305). Members that would read no tile have 0 for KV_HEADS, and so form plies of their own (DESIGN
CHOICE, log 66). -/
def attJoin (s : State) (c : Nat) (p : Prog) (k : Nat) (o : AttOps) : State :=
  let m := o.mask p
  let d := (o.dim p).getD 0
  let ts := tilesOfRuns s (liveRuns s p.tenant o.stream o.layer m)
  let vs := views s p.tenant o.stream c
  let inl := if o.inl then (match lastOwnTile s p vs o.layer with
    | some t => inlineTiles p o d t.heads t (spotFor s p vs o.layer o.qpos).tail
    | none => ([], 0)) else ([], 0)
  let kvh := ((ts ++ inl.1).head?.map Tile.heads).getD 0
  let home := homeDie s p.tenant o.stream
  let a := if o.keeps then keepAlloc s p.tenant home o.n o.qpos o.pb.qheads else (none, [], s)
  let s0 := addCtr a.2.2 .coreSat inl.2
  let q := takeSeqs s0 p.tenant a.2.1.length
  let s1 := if o.keeps then { q.2.2 with mem := { q.2.2.mem with drains := Tab.del q.2.2.mem.drains 0 } } else s0
  -- the values take their place now and their content when the ply completes
  let s2 := updCtx s1 c (fun p => { p with changes := p.changes ++ (List.zip (List.range a.2.1.length) a.2.1).map (fun x =>
    Change.lse k (p.tenant, o.stream, o.layer, x.2.1) (List.replicate o.pb.qheads f32Zero) x.2.2 q.2.1 { q.1 with seq := q.1.seq + x.1 }) })
  joinPly s2 ⟨o.kind, p.tenant, o.layer, o.pb.qheads, kvh, d, 0⟩ (dieOfTiles ts home)
    { lsn := p.lsn, step := k, count := o.n, stream := some o.stream, mask := m, at' := s.time, gather := o.pb.gatherUs * 1000, scratch := p.scratch,
      inl := inl.1, keeps := a.2.1 } false

/-- The lookups of a stream with PENDING rows are repeated until its commit has been applied (R139). -/
def attWaits (s : State) (c : Nat) : Bool :=
  match getCtx s c with
  | some p => pendingStream s p.tenant (attOps p (p.word p.next)).stream
  | none => true

/-- The issue of an attention instruction. -/
def attIssue (s : State) (c : Nat) (op : Op) : State :=
  if attWaits s c then s
  else issueStep s c (isOp op) (fun s p w k =>
    let o := attOps p w
    match firstOf (generalChecks s p w ++ attChecks s c p o) with
    | some r => finishStep s c k r
    | none => attJoin s c p k o)

/-- ATT_DEC (R262 to R264): members of a decode ply. -/
def execAttDec (c : Nat) (s : State) : Host.Outcome State Fault Refusal := .next (attIssue s c .attDec)

/-- ATT_PRE (R265): members of a prefill ply. -/
def execAttPre (c : Nat) (s : State) : Host.Outcome State Fault Refusal := .next (attIssue s c .attPre)

/-- ATT_BWD (R266): members of a backward ply. -/
def execAttBwd (c : Nat) (s : State) : Host.Outcome State Fault Refusal := .next (attIssue s c .attBwd)

end Sys2Proof.Machine
end

