-- ==== Sys2Proof/Machine/Lms.lean ====
section
/-! DEFINITION. HSS signatures of two levels with LMS_SHA256_M32_H10 and LMOTS_SHA256_N32_W8 (RFC 8554, which R394 names and does
not print). PRESUMED (log 10): taken from that document. -/

namespace Sys2Proof.Machine
open Sys2Proof

/-- What one tree is made of: its identifier I and its seed. -/
structure LmsTree where
  id : List Byte
  seed : List Byte
  deriving DecidableEq, Repr

/-- Tree 0 is the upper one, tree n + 1 the lower one under leaf n; how the part derives them from its fused seed is its own (R396). -/
def hssTree (n : Nat) : LmsTree := let b := fitBytes 48 (Config.hssSeed n); ⟨b.take 16, b.drop 16⟩

/-- What every hash of a leaf begins with. -/
def lmsHead (t : LmsTree) (q d : Nat) : List Byte := t.id ++ beBytes 4 q ++ beBytes 2 d

/-- The start of chain `i` of leaf `q` (RFC 8554, Appendix A). -/
def lmsStart (t : LmsTree) (q i : Nat) : List Byte := sha256 (lmsHead t q i ++ [0xFF] ++ t.seed)

/-- `n` steps of a chain from its start. -/
def lmsChain (t : LmsTree) (q i n : Nat) : List Byte :=
  (List.range n).foldl (fun x j => sha256 (lmsHead t q i ++ beBytes 1 j ++ x)) (lmsStart t q i)

/-- The hash of the one-time public key of a leaf: the ends of its 34 chains. -/
def lmotsPub (t : LmsTree) (q : Nat) : List Byte :=
  sha256 (lmsHead t q 0x8080 ++ ((List.range 34).map (fun i => lmsChain t q i 255)).flatten)

/-- Node `r` of a tree whose leaves lie `h` levels below it. -/
def lmsNode (t : LmsTree) : Nat → Nat → List Byte
  | 0, r => sha256 (lmsHead t r 0x8282 ++ lmotsPub t (r - 1024))
  | h + 1, r => sha256 (lmsHead t r 0x8383 ++ lmsNode t h (2 * r) ++ lmsNode t h (2 * r + 1))

/-- The 56-byte public key of a tree. -/
def lmsPub (t : LmsTree) : List Byte := beBytes 4 6 ++ beBytes 4 4 ++ t.id ++ lmsNode t 10 1

/-- A digest and its checksum as 34 digits. -/
def lmotsDigits (q : List Byte) : List Nat :=
  let ds := q.map BitVec.toNat
  ds ++ (beBytes 2 (sumBy (fun d => 255 - d) ds)).map BitVec.toNat

/-- The one-time signature of leaf `q` with its randomizer. -/
def lmotsSign (t : LmsTree) (q : Nat) (c msg : List Byte) : List Byte :=
  let ds := lmotsDigits (sha256 (lmsHead t q 0x8181 ++ c ++ msg))
  beBytes 4 4 ++ c ++ ((List.range 34).map (fun i => lmsChain t q i (ds.getD i 0))).flatten

/-- The signature of a tree with leaf `q`: the one-time signature and the sister of each node on the way up. -/
def lmsSign (t : LmsTree) (q : Nat) (c msg : List Byte) : List Byte :=
  beBytes 4 q ++ lmotsSign t q c msg ++ beBytes 4 6 ++
    ((List.range 10).map (fun h => lmsNode t h (((1024 + q) / 2 ^ h) ^^^ 1))).flatten

/-- The device public key, 60 bytes (R394, R396). -/
def devicePub : List Byte := beBytes 4 2 ++ lmsPub (hssTree 0)

/-- The device-key signature with leaf index `i` over a message, 2,964 bytes; its randomizers are free (R394, R397). -/
def deviceSign (i : Nat) (msg : List Byte) : List Byte :=
  let lower := hssTree (i / 1024 + 1)
  let c := fun (k : Nat) => fitBytes 32 (Config.hssRandom (2 * i + k))
  let pub := lmsPub lower
  beBytes 4 1 ++ lmsSign (hssTree 0) (i / 1024) (c 0) pub ++ pub ++ lmsSign lower (i % 1024) (c 1) msg

end Sys2Proof.Machine
end

