-- ==== Sys2Proof/Machine/Runs.lean ====
section
/-! DEFINITION. RUN.SPLICE and RUN.DROP (02 R28 to R30, 06 R147 to R149, 12 R296 to R298). -/

namespace Sys2Proof.Machine
open Sys2Proof

/-- The operands of RUN.SPLICE (R296). -/
structure SpliceOps where
  dst : Nat
  src : Nat
  low : Nat
  high : Nat
  offset : Int
  deriving DecidableEq, Repr

def spliceOps (p : Prog) (w : Nat) : SpliceOps :=
  { dst := p.stream (fld w 33 32), src := p.stream (fld w 35 34), low := fld w 59 36, high := fld w 83 60,
    offset := signedOf 32 (fld w 115 84) }

/-- The spliced range (R28). -/
def SpliceOps.lo (o : SpliceOps) : Int := (o.low : Int) + o.offset
def SpliceOps.hi (o : SpliceOps) : Int := (o.high : Int) + o.offset

/-- The position after the last one that runs cover without a gap from `cur` on; the runs stand in order. -/
def coverTo (vs : List View) (cur : Nat) : Nat := vs.foldl (fun c v => if v.low ≤ c then Nat.max c (v.high + 1) else c) cur

/-- The source tiles of a splice that hold a position of its range: the committed ones of own runs, layer and object each. -/
def sourceTiles (s : State) (vs : List View) (low high : Nat) : List (Nat × Nat × Tile) :=
  ((vs.filter (fun v => !v.desc.borrowed)).map (fun v =>
    v.desc.tiles.filterMap (fun x => (getTile s x.2).bind (fun t =>
      if t.meets (Nat.max low v.low) (Nat.min high v.high) then some (x.1, x.2, t) else none)))).flatten

/-- A position of the range lies in an open tile or in none (R29 SOURCE_OPEN); the program's own earlier appends are open (R243,
R244). -/
def sourceOpen (s : State) (p : Prog) (vs : List View) (low high : Nat) : Bool :=
  let ts := sourceTiles s vs low high
  let mine := p.tiles.filter (fun x => vs.any (fun v => !v.desc.borrowed && v.row.stream == x.tile.stream &&
    x.tile.meets (Nat.max low v.low) (Nat.min high v.high)))
  let spans := sortBy (fun a b => decide (a.1 ≤ b.1)) (ts.map (fun t => (t.2.2.base, t.2.2.last)))
  let held := fun (a b : Nat) => decide (b < spans.foldl (fun c x => if x.1 ≤ c then Nat.max c (x.2 + 1) else c) a)
  ts.any (fun t => !t.2.2.isSealed) || mine.any (fun x => decide ((getTile s x.oid).map Tile.isSealed ≠ some true)) ||
    vs.any (fun v => !v.desc.borrowed && !held (Nat.max low v.low) (Nat.min high v.high))

/-- The highest position that a run holds in any layer, the program's own appends counted; none where it holds none. -/
def runTop (s : State) (p : Prog) (v : View) : Option Nat :=
  let layers := dedup (v.desc.tiles.map Prod.fst ++ p.tiles.map (fun x => x.tile.layer))
  match (layers.map (fun l => (viewTiles s p v l).map (fun t => t.2.last))).flatten with
  | [] => none
  | l => some (maxBy id l)

/-- The tail entry that a splice from `lo` on cuts short (R149). -/
def cutTail (s : State) (p : Prog) (vs : List View) (lo : Int) : Option View :=
  (tailView vs).filter (fun v => decide ((v.low : Int) < lo) && (match runTop s p v with | some t => decide ((t : Int) < lo) | none => true))

/-- The conditions of R298 and R29 on a splice, R29's in its order; RUN_HELD stands before RANGE_OVERLAP (R147; DEDUCED, log 64), and a
splice below the tail's LOW is refused where the ranges meet (R149; DEDUCED, log 78). -/
def spliceChecks (s : State) (c : Nat) (p : Prog) (o : SpliceOps) : List (Bool × Compl) :=
  let t := p.tenant
  let src := (views s t o.src c).filter (fun v => decide (o.low ≤ o.high ∧ v.low ≤ o.high ∧ o.low ≤ v.high))
  let cut := cutTail s p (views s t o.dst c) o.lo
  let lo := o.lo.toNat
  let hi := o.hi.toNat
  let inRange := decide (0 ≤ o.lo ∧ o.hi ≤ 16777215 ∧ o.low ≤ o.high)
  let ovr := (streamEntries s t o.dst).any (fun e => e.2.cuts c lo hi && !(match cut with | some v => v.row == e.2 | none => false))
  let ts := sourceTiles s src o.low o.high
  [ownerCond s t o.dst,
   (decide (o.low ≤ o.high) && sourceOpen s p src o.low o.high, refusedWith scSourceOpen),
   (src.any (fun v => v.desc.borrowed), refusedWith scSourceBorrowed),
   (decide (o.lo < 0 ∨ 16777215 < o.hi), refusedWith scPositionLimit),
   (decide (o.offset ≠ 0) && ts.any (fun x => decide (x.2.2.posEnc ≠ 0)), refusedWith scOffsetEncoding),
   ((inRange && overlapHeld s t o.dst c lo hi) || (match cut with | some v => v.row.heldElse c | none => false), refusedWith scRunHeld),
   (inRange && ovr, refusedWith scRangeOverlap),
   (ts.any (fun x => decide (16777215 ≤ x.2.2.share)), refusedWith scShareFull),
   (tableFull s t o.dst, refusedWith scStreamTableFull),
   ((halfFor s t o.dst).isNone, refusedWith scDirFull),
   (dirQuotaHit s t, (stQuota, 0)),
   (decide (o.high < o.low) || decide (coverTo src o.low ≤ o.high), (stNoRun, 0))]

/-- SHADOW on the tail entry that the splice cuts; on one the program has staged it acts at once (R147, R149). -/
def shadowTail (s : State) (c : Nat) (v : View) (lo : Nat) : State :=
  let d := freshDesc s
  let nd := { v.desc with tail := false, high := lo - 1 }
  let here := fun (r : Row) => r.of v.row.tenant v.row.stream && r.low == v.row.low && r.result == v.row.result
  if v.row.state = .staged then
    delDesc (mapRows (putDesc s d nd) v.half here (fun r => { r with high := lo - 1, result := d })) v.row.result
  else
    mapRows (putDesc s d { nd with tiles := [] }) v.half here (fun r => { r with shadow := true, ctx := c, shadowHigh := lo - 1, shadowResult := d })

def runSpliceEffect (s : State) (c : Nat) : State :=
  let waits := match getCtx s c with | some p => pendingStream s p.tenant (spliceOps p (p.word p.next)).dst | none => true
  if waits then s
  else issueStep s c (isOp .runSplice) (fun s p w k =>
    let o := spliceOps p w
    let half := (halfFor s p.tenant o.dst).getD 0
    match firstOf (generalChecks s p w ++ spliceChecks s c p o) with
    | some r => finishStep (countRefusal s ((homeHalf s p.tenant o.dst).getD (homeDie s p.tenant o.dst)) r) c k r
    | none =>
      let src := (views s p.tenant o.src c).filter (fun v => decide (v.low ≤ o.high ∧ o.low ≤ v.high))
      let lo := o.lo.toNat
      let hi := o.hi.toNat
      let s1 := match cutTail s p (views s p.tenant o.dst c) o.lo with | some v => shadowTail s c v lo | none => s
      let d := freshDesc s1
      let s2 := putDesc s1 d { tenant := p.tenant, borrowed := true, tail := false, low := lo, high := hi, srcStream := o.src, offset := o.offset,
                               tiles := (sourceTiles s src o.low o.high).map (fun x => (x.1, x.2.1)) }
      let s3 := updCtx s2 c (fun p => { p with changes := p.changes ++ [.splice d], newStreams := dedup (p.newStreams ++ [o.dst]) })
      noteStage (askStage s3 half ⟨c, k, p.tenant, o.dst, lo, hi, d⟩) c k)

/-- RUN_SPLICE (R296). -/
def execRunSplice (c : Nat) (s : State) : Host.Outcome State Fault Refusal := .next (runSpliceEffect s c)

/-! ### RUN.DROP -/

/-- The runs that a range meets, and those of them wholly inside it (R297). -/
def dropMeets (s : State) (t st c low high : Nat) : List View :=
  (views s t st c).filter (fun v => decide (low ≤ high ∧ v.low ≤ high ∧ low ≤ v.high))

/-- The range holds the tail run that another program has staged. -/
def tailElse (s : State) (t st c low high : Nat) : Bool :=
  (streamEntries s t st).any (fun e => decide (e.2.state = .staged ∧ e.2.ctx ≠ c ∧ low ≤ e.2.low ∧ e.2.high ≤ high) &&
    ((getDesc s e.2.result).map (fun d => d.tail)).getD false)

/-- The conditions of R297 and R298 on a drop: the code that R297 gives itself comes before those of the table (R492, log 91). -/
def dropChecks (s : State) (c : Nat) (p : Prog) (st low high : Nat) : List (Bool × Compl) :=
  let vs := dropMeets s p.tenant st c low high
  let inside := vs.filter (fun v => decide (low ≤ v.low ∧ v.high ≤ high))
  [(decide (inside.length < vs.length), refusedWith scRunPartial),
   ((inside.any (fun v => v.desc.tail) || tailElse s p.tenant st c low high) && tailHeld s p st none, refusedWith scTailHeld),
   (inside.any (fun v => v.row.heldElse c), refusedWith scRunHeld),
   (decide (vs = []), (stNoRun, 0))]

/-- A row or request that the program has itself staged is FREE again at once (R147). -/
def unstage (s : State) (v : View) (c : Nat) : State :=
  let x := getHalf s v.half
  let reqs := (x.queue ++ x.waiting).filter (fun q => q.ctx == c && q.result == v.row.result)
  reqs.foldl (fun s q => stageServed s q.ctx q.step) (unstageRow s v.half c v.row.result)

/-- One run is dropped: its entry marked or freed, what the program prepared in it given up (R147, R297). -/
def dropRun (s : State) (c st : Nat) (v : View) : State :=
  let inRun := fun (x : StagedTile) => x.tile.stream == st && decide (v.low ≤ x.tile.base ∧ x.tile.base ≤ v.high) && !v.desc.borrowed
  let f := fun (p : Prog) =>
    { p with tiles := p.tiles.filter (fun x => !inRun x),
             changes := p.changes.filter (fun ch => match ch with
               | .lse _ k _ _ _ _ => !(k.2.1 == st && decide (v.low ≤ k.2.2.2 ∧ k.2.2.2 ≤ v.high))
               | .splice d => !(v.row.state == .staged && d == v.row.result)
               | .seal o => !((p.tiles.any (fun x => x.oid == o && x.isNew && inRun x)))
               | _ => true) }
  let s1 := updCtx s c f
  if v.row.state = .staged then unstage s1 v c
  else
    -- a replacement that the program has prepared for the row is given up with it
    let s2 := if v.row.shadow ∧ v.row.ctx = c then delDesc s1 v.row.shadowResult else s1
    mapRows s2 v.half (fun r => r.of v.row.tenant st && r.low == v.row.low && r.state == .valid)
      (fun r => { r with remove := true, shadow := false, ctx := c })

def runDropEffect (s : State) (c : Nat) : State :=
  let waits := match getCtx s c with | some p => pendingStream s p.tenant (p.stream (fld (p.word p.next) 33 32)) | none => true
  if waits then s
  else issueStep s c (isOp .runDrop) (fun s p w k =>
    let st := p.stream (fld w 33 32)
    let low := fld w 71 48
    let high := fld w 95 72
    match firstOf (generalChecks s p w ++ dropChecks s c p st low high) with
    | some r => finishStep (countRefusal s ((homeHalf s p.tenant st).getD 0) r) c k r
    | none =>
      let s1 := (dropMeets s p.tenant st c low high).foldl (fun s v => dropRun s c st v) s
      finishStep (updCtx s1 c (fun p => { p with newStreams := dedup (p.newStreams ++ [st]) })) c k (stOk, 0))

/-- RUN_DROP (R297). -/
def execRunDrop (c : Nat) (s : State) : Host.Outcome State Fault Refusal := .next (runDropEffect s c)

end Sys2Proof.Machine
end

