-- ==== Sys2Proof/Machine/Move.lean ====
section
/-! DEFINITION. MOVE and PREFETCH (12 R299 to R303, 07 R171, R172). -/

namespace Sys2Proof.Machine
open Sys2Proof

/-- The load descriptor (R299). -/
structure LoadDesc where
  ver : Nat
  fmt : Nat
  bias : Bool
  train : Bool
  moments : Bool
  matrix : Nat
  setId : Nat
  layer : Nat
  rows : Nat
  dModel : Nat
  wBuf : Nat
  bBuf : Nat
  mBuf : Nat
  vBuf : Nat
  row0 : Nat
  nrows : Nat
  object : Nat
  repl : List Nat
  reserved : Bool
  deriving DecidableEq, Repr

def loadDescOf (b : List Byte) : LoadDesc :=
  let w := leAt b 0 4
  let u := leAt b 0x10 4
  { ver := fld w 3 0, fmt := fld w 7 4, bias := bitN w 8, train := bitN w 9, moments := bitN w 10, matrix := fld w 12 11, setId := leAt b 4 2,
    layer := leAt b 6 1, rows := leAt b 8 4, dModel := leAt b 0x0C 2, wBuf := fld u 2 0, bBuf := fld u 6 4, mBuf := fld u 10 8, vBuf := fld u 14 12,
    row0 := leAt b 0x14 4, nrows := leAt b 0x18 4, object := leAt b 0x1C 8, repl := (List.range 4).map (fun i => leAt b (0x24 + 2 * i) 2),
    reserved := decide (fld w 31 13 = 0 ∧ leAt b 7 1 = 0 ∧ leAt b 0x0E 2 = 0 ∧ bitN u 3 = false ∧ bitN u 7 = false ∧ bitN u 11 = false ∧
      fld u 31 15 = 0 ∧ leAt b 0x2C 20 = 0) }

/-- The replicas of a WFETCH in trial order (R299). -/
def LoadDesc.nodes (d : LoadDesc) : List Nat := dedup (d.repl.filter (· != 0))

def LoadDesc.key (p : Prog) (d : LoadDesc) : SetKey := (p.tenant, d.setId, d.layer)

/-- A supply buffer of KIND DATA or SCRATCH with exactly `n` elements in one of the formats given (R285, R302). -/
def supplies (p : Prog) (b n : Nat) (fmts : List Nat) : Bool :=
  let d := p.buf b
  d.source && fmts.contains d.fmt && d.holds n

/-- The descriptor of a WLOAD obeys R299 and its buffers hold the piece (R302). -/
def wloadShape (p : Prog) (bs : List Byte) (d : LoadDesc) : Bool :=
  decide (64 ≤ bs.length ∧ d.ver = 1 ∧ d.matrix ≤ 2 ∧ d.dModel % 16 = 0 ∧ 16 ≤ d.dModel ∧ d.dModel ≤ 32768 ∧ 1 ≤ d.nrows ∧
    d.row0 + d.nrows ≤ d.rows) && d.reserved && fmtOk d.fmt && (d.train || !d.moments) && supplies p d.wBuf (d.nrows * d.dModel) [15, 1] &&
    (!d.bias || supplies p d.bBuf d.nrows [15]) &&
    (!d.moments || (supplies p d.mBuf (d.nrows * d.dModel) [15] && supplies p d.vBuf (d.nrows * d.dModel) [15]))

/-- A matrix of a set has something the instruction's version must agree with: TRAIN and D_MODEL (R300; the code is a DESIGN CHOICE, log
31). -/
def setDiffers (w : WeightSet) (mat : Nat) (train : Bool) (dModel : Nat) : Bool :=
  w.mats.any (fun m => m.1 != mat && (m.2.cur.isSome || m.2.backing.isSome || m.2.load.isSome)) && (w.train != train || w.dModel != dModel)

/-- A later piece follows the committed rows and is like the piece that started the version (R300). -/
def pieceFits (s : State) (k : SetKey) (d : LoadDesc) : Bool :=
  if d.row0 = 0 then true
  else match loadOf s k d.matrix with
    | none => false
    | some l => decide (l.body.rows.length = d.row0 ∧ l.fmt = d.fmt ∧ l.bias = d.bias ∧ l.train = d.train ∧ l.rows = d.rows ∧ l.dModel = d.dModel)

/-- The set's state as the conditions of MOVE see it. -/
def setIs (s : State) (k : SetKey) (st : SetState) : Bool := match getSet s k with | some w => decide (w.state = st) | none => false

/-- Granules of a matrix with its training parts. -/
def loadGranules (d : LoadDesc) : Nat := matGranules d.fmt d.rows d.dModel d.bias + (if d.train then auxGranules d.rows d.dModel else 0)

/-- The weight sets that an instruction names. -/
def Prog.wordSets (p : Prog) (w : Nat) (k : SetKey) : Bool :=
  let is := fun (id layer : Nat) => k.2.1 == id && k.2.2 == layer
  match opOf w with
  | some .projKv | some .mm => is (p.nameId (fld w 37 35)) (fld w 55 48)
  | some .nbAdam => if bitN w 48 then k.2.1 == p.nameId (fld w 34 32) else is (p.nameId (fld w 34 32)) (fld w 47 40)
  | some .nbEw | some .nbRope | some .nbQuant =>
    let t := p.trefs (fld w 34 32)
    [t.1, t.2.1, t.2.2].any (fun r => r.kind == 3 && is r.id r.layer)
  | some .move => if funcOf w = 2 then is (fld w 63 48) (fld w 47 40) else let d := loadDescOf (p.bytes (fld w 34 32)); is d.setId d.layer
  | some .prefetch => fbit w 0 && is (fld w 63 48) (fld w 47 40)
  | some .scrub => let d := scrubDescOf (p.bytes (fld w 34 32)); d.scope == 3 && k.2.1 == d.setId && (d.allLayers || k.2.2 == d.layer)
  | _ => false

/-- An admitted program names a set (R171). -/
def namedSet (s : State) (k : SetKey) : Bool := (allProgs s).any (fun p => p.tenant == k.1 && p.words.any (fun w => p.wordSets w k))

/-- The die of a new weight set: the roomier weight reserve (DESIGN CHOICE, log 8). -/
def setDie (s : State) (k : SetKey) : Nat :=
  match getSet s k with
  | some w => w.die
  | none => if freeReserve s 0 < freeReserve s 1 then 1 else 0

/-- The state in which backed sets have given way to a set that wants `n` granules (R171). -/
def reserveFor (s : State) (k : SetKey) (n : Nat) : State := makeReserve s k.1 (setDie s k) n (namedSet s)

/-- What keeps a set from `n` granules: its die's reserve, and its tenant's quota, for which no tile gives way (R169, R171, R302). -/
def setRoomChecks (s : State) (k : SetKey) (n : Nat) : List (Bool × Compl) :=
  let s1 := reserveFor s k n
  [(decide (freeReserve s1 (setDie s k) < n), refusedWith scReserveFull), (!quotaFits s1 k.1 (512 * n), (stQuota, 0))]

/-- Room for `n` granules of a set; the state as it was where it is refused. -/
def roomForSet (s : State) (k : SetKey) (n : Nat) : Option Compl × State :=
  match firstOf (setRoomChecks s k n) with
  | some c => (some c, s)
  | none => (none, reserveFor s k n)

/-- A row quantized by row groups with fresh scales (R65 to R67), and its saturated conversions. -/
def quantRow (fmt : Nat) (row : List F32) : List QDom × Nat :=
  let r := (rowGroups row.length).foldl (fun (acc : List QDom × Nat × List F32) n =>
    let q := quantFresh false fmt (acc.2.2.take n)
    (acc.1 ++ [q.1], acc.2.1 + q.2, acc.2.2.drop n)) ([], 0, row)
  (r.1, r.2.1)

/-- The second moment's sign bit is always 0 (R80). -/
def unsigned5 (q : QDom) : QDom := { q with codes := q.codes.map (· % 128) }

/-- The parts that a piece writes: the working copy, with TRAIN master copy, moments and gradient area too (R300). -/
def LoadDesc.parts (d : LoadDesc) : Nat := if d.train then 5 else 1

/-- Row groups of a piece in each part. -/
def LoadDesc.groups (d : LoadDesc) : Nat := d.nrows * (rowGroups d.dModel).length

/-- The incomplete version that a piece makes; its row groups stand under the epoch current at its issue (R405, R410). -/
def growLoad (p : Prog) (d : LoadDesc) (l : Load) (first : CRec) : Load × Nat :=
  let xs := chunks d.dModel (p.vals d.wBuf)
  let qs := xs.map (quantRow d.fmt)
  let rows := qs.map Prod.fst
  let zero := fun (fmt : Nat) => xs.map (fun _ => zeroRow fmt d.dModel)
  let mq := if d.moments then (chunks d.dModel (p.vals d.mBuf)).map (quantRow 4) else []
  let vq := if d.moments then (chunks d.dModel (p.vals d.vBuf)).map (quantRow 3) else []
  let ms := if d.moments then mq.map Prod.fst else zero 4
  let vs := if d.moments then vq.map (fun r => r.1.map unsigned5) else zero 3
  ({ l with body := ⟨d.fmt, l.body.rows ++ rows, l.body.sums ++ rows.map (spanSums d.fmt), []⟩,
            biasRows := if d.bias then l.biasRows ++ p.vals d.bBuf else [], master := if d.train then l.master ++ xs else [],
            m := if d.train then l.m ++ ms else [], v := if d.train then l.v ++ vs else [],
            committed := l.committed + d.nrows,
            recs := (List.range d.parts).foldl (fun t q => Tab.upd t [] q (fun x => x ++ (first.plus (q * d.groups)).run d.groups)) l.recs },
   sumBy Prod.snd qs + (if d.train then sumBy Prod.snd mq + sumBy Prod.snd vq else 0))

/-- Numbers that a piece takes: one for each row group and each part that it writes (R405). -/
def pieceSeqs (d : LoadDesc) : Nat := d.groups * d.parts

/-- The conditions of R300 and R302 on a WLOAD that need no allocation; the code that R300 gives itself comes first (R492). -/
def wloadChecks (s : State) (p : Prog) (d : LoadDesc) (bs : List Byte) : List (Bool × Compl) :=
  let k := d.key p
  let differs := match getSet s k with | some w => setDiffers w d.matrix d.train d.dModel | none => false
  [(decide (64 ≤ bs.length) && !pieceFits s k d, refusedWith scLoadOrder),
   (!wloadShape p bs d || differs, refusedWith scShapeInvalid),
   (setIs s k .stepping, refusedWith scWeightSetBusy),
   (nonceSpent s p.tenant (pieceSeqs d), refusedWith scNonceSpent),
   (setIs s k .unavailable, (stWeightsPoisoned, 0))]

/-- The units that write a piece, with the blocks that each of them writes (R182, R195, R300). -/
def loadWork (d : LoadDesc) (l : Load) : List UnitWork :=
  let n := matGranules d.fmt d.rows d.dModel d.bias
  let bias := if d.bias then [(d.rows * rowBytes d.fmt d.dModel + 4 * d.row0, 4 * d.nrows)] else []
  let rows := fun (first fmt : Nat) (more : List (Nat × Nat)) =>
    rangeBlocks (l.place.drop first) ((d.row0 * rowBytes fmt d.dModel, d.nrows * rowBytes fmt d.dModel) :: more)
  let aux := fun (part fmt : Nat) => if d.train then rows (n + auxFirst d.rows d.dModel part) fmt [] else []
  dealBlocks (rows 0 d.fmt bias ++ aux 1 15 ++ aux 2 4 ++ aux 3 3 ++ aux 4 15) (fun _ => 0)

def moveWloadEffect (s : State) (c : Nat) : State :=
  issueStep s c (fun w => isOp .move w && decide (funcOf w = 0)) (fun s p w k =>
    let bs := p.bytes (fld w 34 32)
    let d := loadDescOf bs
    let key := d.key p
    let fresh := decide (d.row0 = 0)
    match firstOf (generalChecks s p w ++ wloadChecks s p d bs ++ (if fresh then setRoomChecks s key (loadGranules d) else [])) with
    | some r => finishStep s c k r
    | none =>
      let q := takeRecs s p.tenant (pieceSeqs d)
      let room := reserveFor q.2 key (loadGranules d)
      let g := if fresh then takeGrans room (setDie room key) (loadGranules d) else ([], q.2)
      let l0 : Load := { fmt := d.fmt, bias := d.bias, train := d.train, rows := d.rows, dModel := d.dModel, body := ⟨d.fmt, [], [], []⟩, biasRows := [],
                         master := [], m := [], v := [], committed := 0, recs := [], place := g.1, poisoned := false }
      let l := growLoad p d (if fresh then l0 else (loadOf s key d.matrix).getD l0) q.1
      let s1 := updCtx (addCtr g.2 .nbSat l.2) c (fun p => { p with changes := p.changes ++ [.load key d.matrix l.1] })
      bankReady (issueSeqs s1 c k (loadWork d l.1) [] [] 0) c k false)

/-- MOVE_WLOAD (R299, R300). -/
def execMoveWload (c : Nat) (s : State) : Host.Outcome State Fault Refusal := .next (moveWloadEffect s c)

/-- The descriptor of a WFETCH obeys R299. -/
def wfetchShape (bs : List Byte) (d : LoadDesc) : Bool :=
  decide (64 ≤ bs.length ∧ d.ver = 1 ∧ d.fmt = 0 ∧ d.matrix ≤ 2 ∧ d.rows = 0 ∧ d.dModel = 0 ∧ 2 ≤ d.nodes.length) && d.reserved && !d.train

def wfetchChecks (s : State) (p : Prog) (d : LoadDesc) (bs : List Byte) : List (Bool × Compl) :=
  let k := d.key p
  let differs := match getSet s k with
    | some w => w.train && w.mats.any (fun m => m.1 != d.matrix)
    | none => false
  [(!wfetchShape bs d || differs, refusedWith scShapeInvalid),
   (setIs s k .stepping, refusedWith scWeightSetBusy),
   (setIs s k .unavailable, (stWeightsPoisoned, 0))]

/-- An object that another fetch is bringing is asked for again once that fetch has ended (DESIGN CHOICE, log 28). -/
def moveWfetchEffect (s : State) (c : Nat) : State :=
  let waits := match getCtx s c with
    | some p => let d := loadDescOf (p.bytes (fld (p.word p.next) 34 32)); (Tab.find s.mem.fetches d.object).isSome
    | none => true
  if waits then s
  else issueStep s c (fun w => isOp .move w && decide (funcOf w = 1)) (fun s p w k =>
    let bs := p.bytes (fld w 34 32)
    let d := loadDescOf bs
    match firstOf (generalChecks s p w ++ wfetchChecks s p d bs) with
    | some r => finishStep s c k r
    | none =>
      -- the matrix takes its place among the program's changes now, empty until it has come (R235)
      let s1 := updCtx s c (fun p => { p with changes := p.changes ++ [.fetch (d.key p) d.matrix 0 { Matrix.empty with backing := some (d.object, d.nodes) }] })
      startFetch s1 .demand (.weight (d.key p) d.matrix 0) d.object 1 d.nodes (some (p.lsn, k)))

/-- MOVE_WFETCH (R301). -/
def execMoveWfetch (c : Nat) (s : State) : Host.Outcome State Fault Refusal := .next (moveWfetchEffect s c)

/-- The node holds a matrix: a current version, or one backed in T2. -/
def holdsMatrix (s : State) (k : SetKey) (mat : Nat) : Bool :=
  match (getSet s k).bind (fun w => Tab.find w.mats mat) with
  | some m => m.cur.isSome || m.backing.isSome
  | none => false

def wdropChecks (s : State) (k : SetKey) (mats : Nat) : List (Bool × Compl) :=
  [(decide (mats = 0), refusedWith scShapeInvalid),
   (setIs s k .stepping, refusedWith scWeightSetBusy),
   ((List.range 3).any (fun m => mats.testBit m && !holdsMatrix s k m), refusedWith scWeightSetAbsent)]

def moveWdropEffect (s : State) (c : Nat) : State :=
  issueStep s c (fun w => isOp .move w && decide (funcOf w = 2)) (fun s p w k =>
    let key : SetKey := (p.tenant, fld w 63 48, fld w 47 40)
    let mats := fld w 66 64
    match firstOf (generalChecks s p w ++ wdropChecks s key mats) with
    | some r => finishStep s c k r
    | none => finishStep (updCtx s c (fun p => { p with changes := p.changes ++ [.wdrop key mats] })) c k (stOk, 0))

/-- MOVE_WDROP (R301). -/
def execMoveWdrop (c : Nat) (s : State) : Host.Outcome State Fault Refusal := .next (moveWdropEffect s c)

/-! ### PREFETCH -/

/-- The REMOTE tiles that a range of a stream reads in a layer. -/
def remoteIn (s : State) (t st layer low high : Nat) : List Nat :=
  if high < low then []
  else (dedup (tilesInRange s t st layer low high)).filter (fun o => match getTile s o with | some x => decide (x.tier = .remote) | none => false)

/-- The backed matrices of a set that are not in T1. -/
def absentMats (s : State) (k : SetKey) : List Nat :=
  match getSet s k with
  | none => []
  | some w => (w.mats.filter (fun m => m.2.backing.isSome && !m.2.present)).map Prod.fst

/-- Fetches of several objects at a priority (R172, R303). -/
def fetchTiles (s : State) (prio : Prio) (l : List Nat) : State := l.foldl (fun s o => fetchTile s prio o) s
def fetchMats (s : State) (prio : Prio) (k : SetKey) (l : List Nat) : State := l.foldl (fun s m => fetchWeights s prio k m) s

def prefetchEffect (s : State) (c : Nat) : State :=
  issueStep s c (isOp .prefetch) (fun s p w k =>
    match firstOf (generalChecks s p w) with
    | some r => finishStep s c k r
    | none =>
      let layer := fld w 47 40
      let key : SetKey := (p.tenant, fld w 63 48, layer)
      let s1 := if fbit w 0 then fetchMats s .prefetch key ((absentMats s key).filter (fun m => (fld w 66 64).testBit m))
        else fetchTiles s .prefetch (remoteIn s p.tenant (p.stream (fld w 33 32)) layer (fld w 71 48) (fld w 95 72))
      finishStep s1 c k (stOk, Nat.min 65535 (s1.mem.fetches.length - s.mem.fetches.length)))

/-- PREFETCH (R303). -/
def execPrefetch (c : Nat) (s : State) : Host.Outcome State Fault Refusal := .next (prefetchEffect s c)

end Sys2Proof.Machine
end

