-- ==== Sys2Proof/Machine/Reset.lean ====
section
/-! DEFINITION. Evidence, node reset and the end of a control reset as operations (16 R395 to R398, 17 R431 to R434). -/

namespace Sys2Proof.Machine
open Sys2Proof

/-! ### Evidence (R396 to R398) -/

/-- Word 0x000 of the evidence record. -/
def evidenceWord (s : State) : List Byte :=
  recordBytes [(8, 1), (4, 1), (6, s.boot.svn), (1, b2n s.boot.slot), (1, b2n s.boot.cfgDefault), (1, b2n s.boot.sigValid), (11, 0)]

/-- Bytes 0x000 to 0x129F (R398). -/
def evidenceBody (s : State) : List Byte :=
  evidenceWord s ++ recordBytes [(32, s.boot.bootIndex), (64, Config.unitId.toNat)] ++ zeros 48 ++ fitBytes 32 s.boot.fwDigest ++
    fitBytes 32 s.boot.cfgDigest ++ beBytes 32 Config.ownerKeyHash.toNat ++ fitBytes 64 devicePub ++
    fitBytes 2976 (fitBytes 2964 Config.deviceCert) ++ kemPub s.boot.kemSeed

/-- The evidence record (R398). -/
def evidenceRecord (s : State) : List Byte := evidenceBody s ++ fitBytes 2976 s.boot.signature

/-- A fresh boot KEM key from the primary's generator, the next leaf index, and a signature where the counter could be written and is not exhausted (R396, R397); whether
the flash write succeeds is a free value (log 6). -/
def newEvidence (s : State) : State :=
  let k := drbgRequest s 0 64
  let d := draw k.2
  let i := s.boot.flashEvidence
  let ok := d.1.toNat.testBit 0 && decide (i < 2 ^ 20)
  let b := { d.2.boot with kemGen := s.boot.kemGen + 1, kemSeed := k.1, bootIndex := i, sigValid := ok, flashEvidence := if ok then i + 1 else i, signature := [] }
  let s1 := { d.2 with boot := b }
  if ok then { s1 with boot := { b with signature := deviceSign i (evidenceBody s1) } } else s1

/-- LEDGER_GEN as a register. -/
def ledgerGenWord (s : State) : Nat := s.boot.ledgerGen % 2 ^ 63 + b2n s.boot.genUnsure * 2 ^ 63

/-- RESET_DONE (R442). -/
def resetDone (s : State) (cause kind : Nat) : State :=
  raiseEvent s evResetDone (recordBytes [(8, cause), (1, kind), (23, 0), (32, boardVer s), (64, ledgerGenWord s)])

/-- ACTIVE takes SEAT, or seat 0 where SEAT's MODE is 0 (R322). -/
def copyHostSeat (s : State) : State :=
  let bad := decide ((getSeat s s.net.hostSeat).mode = 0)
  let s1 := { s with net := { s.net with hostActive := if bad then 0 else s.net.hostSeat, fallback := bad } }
  if bad ∧ (getSeat s1 0).mode = 0 then updSeat s1 0 (fun x => { x with mode := 1 }) else s1

/-! ### Node reset (R431, R434) -/

/-- What R431 clears is cleared; the fuses, the boot flash, the references, the management ports and what has left the node stay. A RETIRE list
emptied by CLEAR_LIST is empty from now on (R440). -/
def nodeCleared (s : State) (cause : Nat) (hold : Hold) : State :=
  let b := s.boot
  let retired := if b.clearList then (List.range 8).map (fun _ => (0 : BitVec 9)) else b.flashRetired
  let boot : Boot := { Boot.reset with powered := true, resetLow := b.resetLow, hold := hold, kemGen := b.kemGen, unlocked := decide (cause = 9),
                                       ledgerGen := b.ledgerGen, genUnsure := b.genUnsure, flashEvidence := b.flashEvidence,
                                       flashRetired := retired, thermometer := b.thermometer }
  { State.reset with
    boot := boot, rst := Rst.reset cause,
    mon := { Monitors.reset with sysLost := s.mon.sysLost, seatLost := s.mon.seatLost, vals := if hold.heat then s.mon.vals.filter (fun v => v.1.1 == 0 || v.1.1 == 3) else [] },
    net := { Transport.reset with wire := s.net.wire },
    mem := { Memory.reset with nextObj := s.mem.nextObj },
    acc := { Access.reset with smbOut := s.acc.smbOut, straps := s.acc.straps, i3c := s.acc.i3c, jtagIr := s.acc.jtagIr, jtagDr := s.acc.jtagDr,
                               boundary := s.acc.boundary, tdo := s.acc.tdo },
    freeIdx := s.freeIdx, pending := s.pending }

/-- A node reset: the node is cleared, and LEDGER_GEN advances (R254, R431). -/
def nodeReset (s : State) (cause : Nat) (hold : Hold) : State := advanceLedgerGen (nodeCleared s cause hold)

/-! ### The end of a control reset -/

/-- The end of a control reset (R433): transport cleared, new evidence, the firmware runs again, RESET_DONE. -/
def controlResetEnd (s : State) : State :=
  if !s.rst.ctlRunning ∨ !running s then s
  else
    -- the host seat may be another now: an owning host on it takes the events that waited (R366)
    let s1 := flushEvents (newEvidence (copyHostSeat (clearPeers (dropOriginated s))))
    let s2 := setAlert { s1 with rst := { s1.rst with ctlRunning := false } } alReset
    resetDone s2 s2.rst.lastCtl 0

end Sys2Proof.Machine
end

