-- ==== Sys2Proof/Machine/Attest.lean ====
section
/-! DEFINITION. SPDM on the host seat (16 R399). The layouts of SPDM 1.2 are taken from that standard (PRESUMED, log 21). -/

namespace Sys2Proof.Machine
open Sys2Proof

/-- The request code of an SPDM message. -/
def spdmCode (b : List Byte) : Nat := leAt b 1 1

/-- Requests are heard from the owning host, from boot on, and not during a control reset (R366, R368, R399). -/
def spdmHeard (s : State) : Bool := running s && !s.rst.ctlRunning && decide (1 ≤ s.boot.stage) && (owningHost s).isSome

/-- An answer to the owning host (R348, R399). -/
def spdmAnswer (s : State) (b : List Byte) : State :=
  match owningHost s with
  | some (node, _) => sendTo s (peerKey node s.net.hostActive) 8 0 7 b
  | none => s

/-- ERROR with a code and its data. -/
def spdmError (s : State) (code data : Nat) : State := spdmAnswer s (recordBytes [(8, 0x12), (8, 0x7F), (8, code), (8, data)])

/-- UnexpectedRequest, of a request out of order. -/
def spdmUnexpected (s : State) : State := spdmError s 0x04 0

/-- UnsupportedRequest of a request code. -/
def spdmUnsupportedError (s : State) (b : List Byte) : State := spdmError s 0x07 (spdmCode b)

/-- How far the negotiation has come: 1 version, 2 capabilities, 3 algorithms. -/
def spdmTo (s : State) (n : Nat) : State := { s with trust := { s.trust with spdm := n } }

/-- SPDM messages without an owning host are dropped and counted (R366). -/
def spdmDrop (s : State) : State := bump s (.seatStat s.net.hostActive 12)

/-- Handles a request of a code where it is heard. -/
def spdmRequest (s : State) (b : List Byte) (mine : Nat → Bool) (f : State → State) : State :=
  if !mine (spdmCode b) then s else if spdmHeard s then f s else spdmDrop s

/-- VERSION, listing 1.2 only. -/
def spdmVersionBytes : List Byte := recordBytes [(8, 0x10), (8, 0x04), (16, 0), (8, 0), (8, 1), (16, 0x1200)]

def spdmVersionEffect (s : State) (b : List Byte) : State :=
  spdmRequest s b (fun c => c == 0x84) (fun s => spdmAnswer (spdmTo s 1) spdmVersionBytes)

/-- SPDM_GET_VERSION (R399). -/
def execSpdmGetVersion (bytes : List Byte) (s : State) : Host.Outcome State Fault Refusal := .next (spdmVersionEffect s bytes)

/-- CAPABILITIES: MEAS_CAP = 01b, sizes 65,536. -/
def spdmCapsBytes : List Byte :=
  recordBytes [(8, 0x12), (8, 0x61), (16, 0), (8, 0), (8, 0), (16, 0), (3, 0), (2, 1), (27, 0), (32, 65536), (32, 65536)]

def spdmCapsEffect (s : State) (b : List Byte) : State :=
  spdmRequest s b (fun c => c == 0xE1) (fun s => if s.trust.spdm = 1 then spdmAnswer (spdmTo s 2) spdmCapsBytes else spdmUnexpected s)

/-- SPDM_GET_CAPABILITIES (R399). -/
def execSpdmGetCapabilities (bytes : List Byte) (s : State) : Host.Outcome State Fault Refusal := .next (spdmCapsEffect s bytes)

/-- ALGORITHMS: the DMTF measurement specification, SHA-256 for measurements and as base hash, no asymmetric algorithm. -/
def spdmAlgsBytes : List Byte :=
  recordBytes [(8, 0x12), (8, 0x63), (16, 0), (16, 36), (8, 1), (8, 0), (32, 2), (32, 0), (32, 1), (96, 0), (8, 0), (8, 0), (16, 0)]

def spdmAlgsEffect (s : State) (b : List Byte) : State :=
  spdmRequest s b (fun c => c == 0xE3) (fun s => if s.trust.spdm = 2 then spdmAnswer (spdmTo s 3) spdmAlgsBytes else spdmUnexpected s)

/-- SPDM_NEGOTIATE_ALGORITHMS (R399). -/
def execSpdmNegotiateAlgorithms (bytes : List Byte) (s : State) : Host.Outcome State Fault Refusal := .next (spdmAlgsEffect s bytes)

/-- The content of a measurement and its DMTF type (R399). -/
def measurement (s : State) (i : Nat) : Nat × List Byte :=
  match i with
  | 1 => (0x01, fitBytes 32 s.boot.fwDigest)
  | 2 => (0x03, fitBytes 32 s.boot.cfgDigest)
  | 3 => (0x81, evidenceWord s)
  | 4 => (0x85, leBytes 8 s.boot.debugTally ++ leBytes 8 (getCtr s .sealReads))
  | _ => (0x84, evidenceRecord s)

/-- A measurement block. -/
def measBlock (s : State) (i : Nat) : List Byte :=
  let m := measurement s i
  recordBytes [(8, i), (8, 1), (16, m.2.length + 3), (8, m.1), (16, m.2.length)] ++ m.2

/-- MEASUREMENTS; the nonce is a free value. -/
def measAnswer (s : State) (b : List Byte) : State :=
  let op := leAt b 3 1
  let ids := if op = 0 then [] else if op = 0xFF then [1, 2, 3, 4, 5] else [op]
  let rec' := (ids.map (measBlock s)).flatten
  let n := drawBytes s 32
  spdmAnswer n.2 (recordBytes [(8, 0x12), (8, 0x60), (8, if op = 0 then 5 else 0), (8, 0), (8, ids.length), (24, rec'.length)] ++ rec' ++ n.1 ++ zeros 2)

def spdmMeasEffect (s : State) (b : List Byte) : State :=
  spdmRequest s b (fun c => c == 0xE0) (fun s =>
    if bitN (leAt b 2 1) 0 then spdmUnsupportedError s b
    else if s.trust.spdm ≠ 3 then spdmUnexpected s
    else if 5 < leAt b 3 1 ∧ leAt b 3 1 ≠ 0xFF then spdmError s 0x01 0
    else measAnswer s b)

/-- SPDM_GET_MEASUREMENTS (R399). -/
def execSpdmGetMeasurements (bytes : List Byte) (s : State) : Host.Outcome State Fault Refusal := .next (spdmMeasEffect s bytes)

/-- Codes that another command handles. -/
def spdmKnown (c : Nat) : Bool := c == 0x84 || c == 0xE1 || c == 0xE3

def spdmOtherEffect (s : State) (b : List Byte) : State :=
  spdmRequest s b (fun c => !spdmKnown c && (c != 0xE0 || bitN (leAt b 2 1) 0)) (fun s => spdmUnsupportedError s b)

/-- SPDM_UNSUPPORTED (R399). -/
def execSpdmUnsupported (bytes : List Byte) (s : State) : Host.Outcome State Fault Refusal := .next (spdmOtherEffect s bytes)

/-- A message of MSG_TYPE 8 is the request that its code names. -/
def spdmMessage (s : State) (b : List Byte) : State :=
  let c := spdmCode b
  if c = 0x84 then spdmVersionEffect s b
  else if c = 0xE1 then spdmCapsEffect s b
  else if c = 0xE3 then spdmAlgsEffect s b
  else if c = 0xE0 ∧ !bitN (leAt b 2 1) 0 then spdmMeasEffect s b
  else spdmOtherEffect s b

end Sys2Proof.Machine
end

