-- ==== Sys2Proof/Machine/Scrub.lean ====
section
/-! DEFINITION. SCRUB and the scrub passes (09 R218 to R222, 12 R313). -/

namespace Sys2Proof.Machine
open Sys2Proof

/-- The tiles of a RANGE or TENANT scope. -/
def scrubTiles (s : State) (x : Scrub) : List (Nat × Tile) :=
  let layer := fun (l : Nat) => x.layer == none || x.layer == some l
  if x.scope = 1 then
    let oids := (((streamRuns s x.tenant x.stream x.low x.high).filter (fun r => !r.2.borrowed)).map (fun r => r.2.tiles.map Prod.snd)).flatten
    (s.mem.tiles.filter (fun t => oids.contains t.1 && layer t.2.layer && t.2.meets x.low x.high))
  else if x.scope = 2 then s.mem.tiles.filter (fun t => t.2.tenant == x.tenant)
  else []

/-- The weight sets of a WEIGHTS or TENANT scope. -/
def scrubSets (s : State) (x : Scrub) : List (SetKey × WeightSet) :=
  if x.scope = 3 then
    s.mem.weights.filter (fun w => w.1.1 == x.tenant && w.1.2.1 == x.setId && (x.layer == none || x.layer == some w.1.2.2))
  else if x.scope = 2 then s.mem.weights.filter (fun w => w.1.1 == x.tenant) else []

/-- The kept logsumexp values of a RANGE or TENANT scope. -/
def scrubLse (s : State) (x : Scrub) : List (LseKey × Lse) :=
  if x.scope = 1 then
    s.mem.lse.filter (fun l => l.1.1 == x.tenant && l.1.2.1 == x.stream && (x.layer == none || x.layer == some l.1.2.2.1) &&
      decide (x.low ≤ l.1.2.2.2 ∧ l.1.2.2.2 ≤ x.high))
  else if x.scope = 2 then s.mem.lse.filter (fun l => l.1.1 == x.tenant) else []

/-- The gradient tiles of a TENANT scope. -/
def scrubGrads (s : State) (x : Scrub) : List (GradKey × GradCell) :=
  if x.scope = 2 then s.mem.grads.filter (fun g => g.1.1 == x.tenant) else []

/-- The blocks of what a tenant's programs have prepared: it is charged to the tenant already (R167). -/
def preparedBlocks (s : State) (t : Nat) : List Nat :=
  (((allProgs s).filter (fun p => p.tenant == t)).map (fun p =>
    ((p.tiles.filter (fun x => x.isNew || x.rewrite)).map (fun x => objBlocks (some x.tile.hdr) x.tile.body)).flatten ++
      (p.changes.map (fun c => (((changeGrans c).1 ++ (changeGrans c).2).map granBlocks).flatten)).flatten)).flatten

/-- The blocks of the objects of a scope other than RAW, each once. -/
def scrubBlocks (s : State) (x : Scrub) : List Nat :=
  dedup (((scrubTiles s x).map (fun t => tileBlocks t.2)).flatten ++ ((scrubGrads s x).map (fun g => objBlocks (some g.2.hdr) g.2.body)).flatten ++
    ((scrubLse s x).map (fun l => (l.2.place.map granBlocks).flatten)).flatten ++
    (if x.scope = 2 then preparedBlocks s x.tenant else []) ++
    ((scrubSets s x).map (fun w => (w.2.mats.vals.map (fun m => (m.place.map granBlocks ++ m.auxPlace.map granBlocks ++
      ((m.load.map Load.place).getD []).map granBlocks).flatten)).flatten)).flatten)

/-- The dies on which the objects of a pass lie. -/
def scrubDies (s : State) (x : Scrub) : List Nat :=
  if x.scope = 0 then [x.stack / 6]
  else
    let ds := dedup ((scrubBlocks s x).map (fun b => blockStack b / 6))
    if ds.contains x.die then ds else x.die :: ds

/-- A die's scrub slot is taken, or a queued pass waits for it. -/
def scrubSlotBusy (s : State) (d : Nat) : Bool := (s.mem.scrubRun ++ s.mem.scrubQueue).any (fun y => y.dies.contains d)

/-- The conditions of R220, R222, R285, R313 and R491. -/
def scrubChecks (s : State) (p : Prog) (d : ScrubDesc) (n : Nat) (out : Nat) : List (Bool × Compl) :=
  let runs := streamRuns s d.tenant d.stream d.low d.high
  let held := s.mem.weights.any (fun w => w.1.1 == d.tenant && w.1.2.1 == d.setId && (d.allLayers || w.1.2.2 == d.layer))
  [(!p.owner && (d.scope == 0 || d.tenant != p.tenant), refusedWith scNotPrivileged),
   (d.scope != 0 && p.owner && !admitted s d.tenant, refusedWith scTenantAbsent),
   (decide (n < 32) || outShort p out 64, refusedWith scBufferShort),
   -- R220 is read where R313 refers to it (R492)
   (decide (4 ≤ s.mem.scrubQueue.length), refusedWith scScrubBusy),
   (!d.reserved, refusedWith scShapeInvalid),
   (d.scope == 0 && decide (11 < d.stack ∨ d.count = 0 ∨ 2 ^ 27 < d.first + d.count), refusedWith scScrubRange),
   (d.scope == 3 && !held, refusedWith scWeightSetAbsent),
   (d.scope == 1 && (decide (runs = []) || decide (d.high < d.low)), (stNoRun, 0))]

/-- The home die of what a pass names (R313). -/
def scrubHome (s : State) (d : ScrubDesc) : Nat :=
  if d.scope = 0 then d.stack / 6
  else if d.scope = 1 then homeDie s d.tenant d.stream
  else if d.scope = 3 then ((s.mem.weights.find? (fun w => w.1.1 == d.tenant && w.1.2.1 == d.setId && (d.allLayers || w.1.2.2 == d.layer))).map
    (fun w => w.2.die)).getD 0
  else 0

def scrubEffect (s : State) (c : Nat) : State :=
  issueStep s c (isOp .scrub) (fun s p w k =>
    let bs := p.bytes (fld w 34 32)
    let d := scrubDescOf bs
    let out := fld w 37 35
    let early := firstOf (generalChecks s p w ++ scrubChecks s p d bs.length out)
    let x0 : Scrub := { lsn := p.lsn, step := k, program := p.id, scope := d.scope, asker := p.tenant, tenant := d.tenant,
                        layer := if d.allLayers then none else some d.layer, stack := d.stack, first := d.first, count := d.count,
                        stream := d.stream, low := d.low, high := d.high, setId := d.setId, dies := [], die := scrubHome s d, started := none,
                        read := 0, corrected := 0, uncorr := 0, poisoned := 0, skipped := 0, objects := 0, firstBad := none, out := out,
                        ret := if (p.buf out).kind = 3 ∧ !(p.step k).shadow then some p.returnKey else none, tclass := p.tclass, stopped := none }
    let x := { x0 with dies := scrubDies s x0 }
    match early with
    | some r => finishStep s c k r
    | none =>
      if x.dies.all (fun d => !scrubSlotBusy s d) then { s with mem := { s.mem with scrubRun := s.mem.scrubRun ++ [x] } }
      else { s with mem := { s.mem with scrubQueue := s.mem.scrubQueue ++ [x] } })

/-- SCRUB (R218, R220, R313). -/
def execScrub (c : Nat) (s : State) : Host.Outcome State Fault Refusal := .next (scrubEffect s c)

/-- Reads the blocks of a pass that the table of differences lists, in ascending order (R219). -/
def readWhere (s : State) (p : Nat → Bool) : EccRes × State :=
  ((s.mem.err.map Prod.fst).filter p).foldl (readBlock (fun _ => 0)) (EccRes.zero, s)

/-- A block belongs to the scope of a pass. -/
def inScope (x : Scrub) (blocks : List Nat) (b : Nat) : Bool :=
  if x.scope = 0 then decide (blockStack b = x.stack ∧ x.first ≤ blockGranule b ∧ blockGranule b < x.first + x.count) else blocks.contains b

/-- The reads of a pass in one unit's channel, and what the pass counts of them (R184, R219). -/
def passRead (s : State) (lsn step : Nat) (u : Nat × Nat) : EccRes × State :=
  match s.mem.scrubRun.find? (fun x => decide (x.lsn = lsn ∧ x.step = step)) with
  | none => (EccRes.zero, s)
  | some x =>
    let blocks := if x.scope = 0 then [] else scrubBlocks s x
    let r := readWhere s (fun b => blockUnit b == u && inScope x blocks b)
    let y := { x with corrected := x.corrected + r.1.corrected, uncorr := x.uncorr + r.1.uncorr, poisoned := x.poisoned + r.1.poisoned,
                      objects := x.objects + r.1.newObjs, firstBad := x.firstBad.or r.1.first }
    (r.1, { r.2 with mem := { r.2.mem with scrubRun := r.2.mem.scrubRun.map (fun z => if z.lsn = lsn ∧ z.step = step then y else z) } })

/-- The units that carry out a pass: those whose channels hold blocks of its scope (R182, R184). -/
def passUnits (x : Scrub) (blocks : List Nat) : List (Nat × Nat) :=
  if x.scope = 0 then (List.range 32).map (fun i => (x.stack, i)) else dedup (blocks.map blockUnit)

/-- The pass that occupies a die's slot. -/
def passOn (s : State) (die : Nat) : Option Scrub := s.mem.scrubRun.find? (fun x => x.dies.contains die)

def scrubPassStartEffect (s : State) (die : Nat) (fs : List Flip) : State :=
  match passOn s die with
  | none => s
  | some x =>
    if x.started.isSome ∨ x.stopped.isSome ∨ !running s then s
    else
      let s := applyFlips s fs
      let blocks := if x.scope = 0 then [] else scrubBlocks s x
      let y := { x with started := some s.time, read := if x.scope = 0 then 8 * x.count else blocks.length,
                        skipped := ((scrubTiles s x).filter (fun t => decide (t.2.tier = .remote))).length }
      let s1 := { s with mem := { s.mem with scrubRun := s.mem.scrubRun.map (fun z => if z = x then y else z) } }
      -- the sequences of a pass of raw blocks belong to no tenant
      let f : SeqFor := ⟨x.lsn, x.step, if x.scope = 0 then 4096 else x.tenant, true⟩
      requeueSeqs ((passUnits x blocks).foldl (fun s u => issueSeq s f ⟨u, [0], [], 0⟩ [] [] 0) s1)

/-- SCRUB_PASS_START (R219): the units begin to read the blocks of the scope. -/
def execScrubPassStart (die : Nat) (flips : List Flip) (s : State) : Host.Outcome State Fault Refusal := .next (scrubPassStartEffect s die flips)

/-- The summary (R221). -/
def scrubSummary (x : Scrub) (now : Time) : List Byte :=
  let st := x.started.getD now
  let b := x.firstBad.getD 0
  recordBytes [(64, x.program), (16, x.stopped.getD stOk), (2, x.scope), (6, 0), (1, x.die), (7, 0), (12, if x.scope = 0 then 0 else x.tenant), (20, 0),
    (64, x.read), (32, x.corrected), (32, x.uncorr), (32, x.poisoned), (32, x.skipped), (32, x.objects), (4, blockStack b),
    (27, blockGranule b), (1, b2n x.firstBad.isSome), (64, st), (64, now - st)]

/-- A pass that has its dies to itself moves from the queue into their slots. -/
def promoteScrubs (s : State) : State :=
  s.mem.scrubQueue.foldl (fun s x =>
    let ahead := s.mem.scrubRun ++ s.mem.scrubQueue.takeWhile (· != x)
    if x.dies.all (fun d => !ahead.any (fun y => y.dies.contains d)) then
      { s with mem := { s.mem with scrubRun := s.mem.scrubRun ++ [x], scrubQueue := s.mem.scrubQueue.filter (· != x) } }
    else s) s

/-- A pass ends: its summary goes to its buffer and to SCRUB_LAST, and its instruction completes (R220, R221). -/
def endPass (s : State) (x : Scrub) : State :=
  let b := scrubSummary x s.time
  let s1 := { s with mem := { s.mem with scrubRun := s.mem.scrubRun.filter (· != x), scrubQueue := s.mem.scrubQueue.filter (· != x),
                                         scrubLast := Tab.put s.mem.scrubLast x.die b } }
  let s2 := match ctxOf s1 x.lsn with
    | some c => finishStep (placeRecords s1 c x.out [b] (fun s rs => emitRecords s c x.step true rs)) c x.step (x.stopped.getD stOk, 0)
    | none => match x.ret with
      | some k => sendTo s1 k 3 x.asker x.tclass b
      | none => s1
  promoteScrubs s2

/-- A unit still works on a pass. -/
def passOpen (s : State) (x : Scrub) : Bool := s.nb.units.vals.any (fun y => y.seqs.any (fun q => q.pass && decide (q.lsn = x.lsn ∧ q.step = x.step)))

def scrubPassEndEffect (s : State) (die : Nat) : State :=
  match passOn s die with
  | none => s
  | some x => if (x.started.isSome ∨ x.stopped.isSome) ∧ running s ∧ !passOpen s x then endPass s x else s

/-- SCRUB_PASS_END (R220, R221). -/
def execScrubPassEnd (die : Nat) (s : State) : Host.Outcome State Fault Refusal := .next (scrubPassEndEffect s die)

/-- The passes of a removed tenant stop; those that wait end at once (R220, R415). -/
def stopScrubs (s : State) (t : Nat) : State :=
  let mine := fun (x : Scrub) => x.scope != 0 && x.tenant == t
  let stop := fun (x : Scrub) => if mine x then { x with stopped := some stTenantGone } else x
  { s with mem := { s.mem with scrubRun := s.mem.scrubRun.map stop, scrubQueue := s.mem.scrubQueue.map stop } }

end Sys2Proof.Machine
end

