-- ==== Sys2Proof/Machine/Power.lean ====
section
/-! DEFINITION. Power, boot, resets, supply, monitors, watchdogs, references, the health score (01 R19, 15 R370, R389, 16 R395, 17, 19 R478,
R482). -/

namespace Sys2Proof.Machine
open Sys2Proof

/-! ### Power and resets -/

/-- What holds the node after a node reset of a cause (R423, R428, R482): what held it before goes on to, unless power has been away. -/
def holdFor (s : State) (cause : Nat) : Hold :=
  let h := s.boot.hold
  if cause = 1 then .free
  else ⟨h.supply || decide (cause = 4 ∨ cause = 5), h.reference || (decide (cause = 8) && s.mon.sysLost.isSome), h.heat || decide (cause = 6)⟩

/-- A node reset of a cause of R432 with the hold that belongs to it. -/
def resetFor (s : State) (cause : Nat) : State := nodeReset s cause (holdFor s cause)

/-- A node reset without power before it: the count of its objects has gone too (R19), the straps are sampled and the test port is reset (R478,
R483). -/
def coldStart (s : State) (resetNLow : Bool) : State :=
  let s1 := { s with boot := { s.boot with resetLow := resetNLow }, mon := Monitors.reset, mem := { s.mem with nextObj := Memory.reset.nextObj } }
  { (resetFor s1 1) with acc := Access.reset }

def powerGoodEffect (s : State) (resetNLow : Bool) : State := if s.boot.powered then s else coldStart s resetNLow

/-- POWER_GOOD (R478, R370). -/
def execPowerGood (resetNLow : Bool) (s : State) : Host.Outcome State Fault Refusal := .next (powerGoodEffect s resetNLow)

def pwrgdLowEffect (s : State) : State :=
  let s1 := { s with mon := Monitors.reset, mem := { s.mem with nextObj := Memory.reset.nextObj } }
  let s2 := nodeCleared s1 1 (holdFor s1 1)
  { s2 with boot := { s2.boot with powered := false }, acc := Access.reset }

/-- PWRGD_LOW (R478). -/
def execPwrgdLow (s : State) : Host.Outcome State Fault Refusal := .next (pwrgdLowEffect s)

def resetNAssertEffect (s : State) : State :=
  let s1 := { s with boot := { s.boot with resetLow := true } }
  if s.boot.powered then resetFor s1 2 else s1

/-- RESET_N_ASSERT (R478). -/
def execResetNAssert (s : State) : Host.Outcome State Fault Refusal := .next (resetNAssertEffect s)

def resetNDeassertEffect (s : State) : State := { s with boot := { s.boot with resetLow := false } }

/-- RESET_N_DEASSERT (R478): the node starts at t0 of R370, unless something else holds it. -/
def execResetNDeassert (s : State) : Host.Outcome State Fault Refusal := .next (resetNDeassertEffect s)

/-- Every monitor of a kind has been sampled, and its latest sample meets a condition. -/
def allSampled (s : State) (kind n : Nat) (ok : BitVec 16 → Bool) : Bool :=
  (List.range n).all (fun i => match Tab.find s.mon.vals (kind, i) with | some v => ok v | none => false)

/-- No temperature monitor of the dies and stacks that has been sampled reads at or above a value in 1/16 °C. -/
def allBelow (s : State) (limit : Int) : Bool := s.mon.vals.all (fun v => !(v.1.1 == 0 || v.1.1 == 3) || decide (v.2.toInt < limit))

/-- Every voltage monitor has read at or above 705 mV since the reset (R423). -/
def voltageBack (s : State) : Bool := allSampled s 1 48 (fun v => decide (705 ≤ v.toNat))

/-- 1 s has passed, and every temperature sensor of the dies and stacks reads below 85 °C (R428). -/
def cooledDown (s : State) : Bool :=
  decide (1000000000 ≤ s.time) && allSampled s 0 96 (fun v => decide (v.toInt < 1360)) && allSampled s 3 12 (fun v => decide (v.toInt < 1360))

/-- What still holds the node (R423, R428, R482). -/
def holdLeft (s : State) : Hold :=
  let h := s.boot.hold
  ⟨h.supply && !voltageBack s, h.reference && s.mon.sysLost.isSome, h.heat && !cooledDown s⟩

def nodeResetReleaseEffect (s : State) : State := { s with boot := { s.boot with hold := holdLeft s } }

/-- NODE_RESET_RELEASE (R423, R428, R434, R482): the reasons whose condition is met no longer hold the node. -/
def execNodeResetRelease (s : State) : Host.Outcome State Fault Refusal := .next (nodeResetReleaseEffect s)

def nodeResetEffect (s : State) (cause : Nat) : State :=
  if s.boot.powered ∧ 2 ≤ cause ∧ cause ≤ 9 then resetFor s cause else s

/-- NODE_RESET (R431, R432). -/
def execNodeReset (cause : Nat) (s : State) : Host.Outcome State Fault Refusal := .next (nodeResetEffect s cause)

def controlResetEffect (s : State) (cause : Nat) : State :=
  if started s ∧ 0x21 ≤ cause ∧ cause ≤ 0x25 then controlReset s cause else s

/-- CONTROL_RESET (R431 to R434). -/
def execControlReset (cause : Nat) (s : State) : Host.Outcome State Fault Refusal := .next (controlResetEffect s cause)

/-- CONTROL_RESET_DONE (R433). -/
def execControlResetDone (s : State) : Host.Outcome State Fault Refusal := .next (controlResetEnd s)

def trustEpochDisagreeEffect (s : State) : State := if started s then resetFor s 7 else s

/-- TRUST_EPOCH_DISAGREE (R16, R432). -/
def execTrustEpochDisagree (s : State) : Host.Outcome State Fault Refusal := .next (trustEpochDisagreeEffect s)

def dieLinkLostEffect (s : State) : State := if running s then resetFor s 8 else s

/-- DIE_LINK_LOST (R432). -/
def execDieLinkLost (s : State) : Host.Outcome State Fault Refusal := .next (dieLinkLostEffect s)

def refclkSysLostEffect (s : State) : State :=
  if s.boot.powered ∧ s.mon.sysLost.isNone then { s with mon := { s.mon with sysLost := some s.time } } else s

/-- REFCLK_SYS_LOST (R482). -/
def execRefclkSysLost (s : State) : Host.Outcome State Fault Refusal := .next (refclkSysLostEffect s)

def refclkHoldExpiryEffect (s : State) : State :=
  match s.mon.sysLost with
  | some t => if s.boot.powered ∧ !s.boot.hold.reference then resetFor (reach s (t + 1000000)) 8 else s
  | none => s

/-- REFCLK_HOLD_EXPIRY (R482). -/
def execRefclkHoldExpiry (s : State) : Host.Outcome State Fault Refusal := .next (refclkHoldExpiryEffect s)

/-- REFCLK_SYS_RETURN (R482). -/
def execRefclkSysReturn (s : State) : Host.Outcome State Fault Refusal := .next { s with mon := { s.mon with sysLost := none } }

/-! ### Boot (R370, R395) -/

/-- The target the comparators use: while it changes, the lower of the old and the new one (R422). -/
def Supply.compared (u : Supply) : Nat := if u.settling then Nat.min u.prevTarget u.target else u.target

/-- The node moves the core-rail target to the fused value plus OFFSET, within 600 to 850 mV; never during a sag warning (R419). -/
def avsTarget (s : State) : Nat := (max 600 (min 850 ((Config.avsFused : Int) + 5 * s.supply.offset.toInt))).toNat

def avsChangeEffect (s : State) : State :=
  let t := avsTarget s
  if !started s ∨ s.supply.sagActive ∨ t = s.supply.target then s
  else { s with supply := { s.supply with prevTarget := s.supply.compared, target := t, changing := true, settling := true } }

/-- AVS_TARGET_CHANGE (R419). -/
def execAvsTargetChange (s : State) : Host.Outcome State Fault Refusal := .next (avsChangeEffect s)

def avsSettledEffect (s : State) : State :=
  { s with supply := { s.supply with prevTarget := s.supply.target, changing := false, settling := false } }

/-- AVS_TARGET_SETTLED (R422). -/
def execAvsTargetSettled (s : State) : Host.Outcome State Fault Refusal := .next (avsSettledEffect s)

/-- The cause with which a slot fails, 0 if it verifies (R395, R459). -/
def slotCause (s : State) (selfTest : Nat) (c : SlotCheck) : Nat :=
  if selfTest % 16 ≠ 15 then 3 else if c.cause ≠ 0 then c.cause % 16 else if c.svn % 64 < s.boot.thermometer then 2 else 0

/-- The default configuration runs: OWNER_KEY_HASH is blank, or the configuration failed (R395). -/
def defaultConfig (c : BootCheck) : Bool := c.cfg.isNone || decide (Config.ownerKeyHash = 0)

/-- The seats take MODE, ENABLE and PARTNER_KIND; training of every enabled seat whose reference is present begins (R317, R370, R482). -/
def seatBoot (cfg : List (Option SeatCfg)) (s : State) (i : Nat) : State :=
  let d := Seat.reset ((cfg[i]?).join)
  updSeat s i (fun x => { x with mode := d.mode, enable := d.enable, partnerKind := d.partnerKind,
                                 state := if d.enable && !s.mon.seatLost.contains (i / 3) then seatTraining else seatDown })

/-- The image of a slot runs: the thermometer, the configuration, evidence, the seats, the core rail (R370, R395 to R397, R419). -/
def bootImage (s : State) (c : BootCheck) (img : SlotCheck) (slotB : Bool) (aCause : Nat) : State :=
  let dflt := defaultConfig c
  let cfg : CfgImage := if dflt then ⟨[], none, (drawBytes s 32).1⟩ else c.cfg.getD ⟨[], none, []⟩
  let s0 := if dflt then (drawBytes s 32).2 else s
  let cause : Nat := if dflt && decide (Config.ownerKeyHash ≠ 0) then 5 else aCause
  let b := { s0.boot with stage := 1, slot := slotB, aFail := slotB, cfgDefault := dflt, cause := cause, svn := img.svn % 64,
                          selfTest := c.selfTest % 16, fwDigest := img.digest, cfgDigest := cfg.digest,
                          thermometer := Nat.max s0.boot.thermometer (img.svn % 64), cfgSeats := cfg.seats }
  let s1 := { s0 with boot := b, net := { s0.net with hostSeat := cfg.hostSeat.getD 0 } }
  let s2 := newEvidence (startTrust (if dflt then setAlert s1 alBoot else s1))
  avsChangeEffect (copyHostSeat ((List.range 6).foldl (seatBoot cfg.seats) s2))

def firmwareVerifiedEffect (s : State) (c : BootCheck) : State :=
  if !running s ∨ s.boot.stage ≠ 0 ∨ s.boot.failed then s
  else
    let a := slotCause s c.selfTest c.slotA
    let b := slotCause s c.selfTest c.slotB
    if a = 0 then bootImage s c c.slotA false 0
    else if b = 0 then bootImage s c c.slotB true a
    else
      let s1 := { s with boot := { s.boot with failed := true, aFail := true, bFail := true, cause := b, selfTest := c.selfTest % 16 } }
      setAlert s1 alBoot

/-- FIRMWARE_VERIFIED (R395). -/
def execFirmwareVerified (c : BootCheck) (s : State) : Host.Outcome State Fault Refusal := .next (firmwareVerifiedEffect s c)

def memoryTrainingDoneEffect (s : State) : State :=
  if started s then { s with boot := { s.boot with memTrained := true } } else s

/-- MEMORY_TRAINING_DONE (R370). -/
def execMemoryTrainingDone (s : State) : Host.Outcome State Fault Refusal := .next (memoryTrainingDoneEffect s)

/-- The retirement list is applied by R438 and R439, without any copy (R440). -/
def applyRetired (s : State) : State :=
  let all := ((List.range 8).map (fun c => ((List.range 9).filter (fun p => (s.boot.flashRetired.getD c 0).toNat.testBit p)).map (fun p => (c, p)))).flatten
  all.foldl (fun s x => drainDegradeEffect (substituteEffect (retireCore s x.1 x.2 4) x.1 x.2 0) x.1 x.2) s

def nodePlaceableEffect (s : State) (runs : List CanaryRun) : State :=
  if !running s ∨ s.boot.stage ≠ 1 ∨ !s.boot.memTrained then s
  else
    let s1 := applyRetired s
    let s2 := (runs.filter (fun r => !isRetired s1 r.cluster r.pcore)).foldl (fun s r => (canaryRun s r 0).2) s1
    resetDone { s2 with boot := { s2.boot with stage := 2 } } s2.rst.lastNode 1

/-- NODE_PLACEABLE (R370, R440). -/
def execNodePlaceable (runs : List CanaryRun) (s : State) : Host.Outcome State Fault Refusal := .next (nodePlaceableEffect s runs)

/-! ### Throttles (R421, R422, R427) -/

/-- A throttling monitor covers a cluster: its own, or all four of its die (R427). -/
def covers (m : MonId) (c : Nat) : Bool :=
  let die := m.2 / 48
  let j := m.2 % 48
  m.1 == 0 && (if j < 36 then die * 4 + j / 9 == c else c / 4 == die)

/-- A thermal throttle applies to a cluster. -/
def thermalThrottle (s : State) (c : Nat) : Bool := s.mon.throttling.any (fun m => covers m c)

/-- A cluster runs at half rate: two throttles never compound (R422). -/
def halfRate (s : State) (c : Nat) : Bool := s.supply.sagActive || thermalThrottle s c

/-- Counts the half-rate time of a cluster up to now and notes whether it goes on. -/
def refreshHalfOf (s : State) (c : Nat) : State :=
  let ns := match Tab.find s.mon.halfSince c with | some t => s.time - t | none => 0
  let since := if halfRate s c then Tab.put s.mon.halfSince c s.time else Tab.del s.mon.halfSince c
  { s with mon := { s.mon with halfNs := if ns = 0 then s.mon.halfNs else Tab.upd s.mon.halfNs 0 c (· + ns), halfSince := since } }

/-- The same for all clusters. -/
def refreshHalf (s : State) : State := (List.range 8).foldl refreshHalfOf s

/-! ### Supply (R420 to R424) -/

/-- A value in mV lies below a percentage of the target that the comparators use, at the comparator of a monitor (R420, R422). -/
def belowThreshold (u : Supply) (kind pct index value : Nat) : Bool :=
  decide (100 * value + 500 < pct * u.compared + 100 * (Config.sagTrim kind index).val)

/-- A value in mV lies below the absolute floor of a monitor (R420). -/
def underFloor (index value : Nat) : Bool := decide (value < 545 + (Config.sagTrim 2 index).val)

def sagWarningEffect (s : State) (index value duration : Nat) : State :=
  let u := s.supply
  if !running s ∨ 48 ≤ index ∨ !belowThreshold u 0 94 index value then s
  else
    let due := match u.sagLastEvt with | some t => decide (t + 10000000 ≤ s.time) | none => true
    let u1 := { u with sagActive := true, sagSince := if u.sagActive then u.sagSince else s.time, warnings := satAdd 24 u.warnings 1,
                       sagCount := if due then 0 else u.sagCount + 1, sagLastEvt := if due then some s.time else u.sagLastEvt }
    let s1 := refreshHalf (addHealth (setAlert { s with supply := u1 } alSag) false 1024)
    if due then raiseEvent s1 evSagWarning (monitorPayload 1 index value (u.sagCount + 1) duration) else s1

/-- SAG_WARNING (R421). -/
def execSagWarning (index value durationNs : Nat) (s : State) : Host.Outcome State Fault Refusal :=
  .next (sagWarningEffect s index value durationNs)

/-- Every voltage monitor reads at or above 0.96 × the target (R420). -/
def sagOver (s : State) : Bool := allSampled s 1 48 (fun v => decide (96 * s.supply.compared ≤ 100 * v.toNat))

def sagReleaseEffect (s : State) : State :=
  let u := s.supply
  if u.sagActive && sagOver s then
    refreshHalf { s with supply := { u with sagActive := false, throttleNs := u.throttleNs + (s.time - u.sagSince) } }
  else s

/-- SAG_RELEASE (R420). -/
def execSagRelease (s : State) : Host.Outcome State Fault Refusal := .next (sagReleaseEffect s)

/-- The cause of a node reset that a supply of `value` mV at a monitor is, or 0: below the absolute floor, else below the reset threshold; at a
target of 625 mV or less the floor governs (R420, R432). -/
def sagCause (u : Supply) (index value : Nat) : Nat :=
  if underFloor index value then 5 else if decide (625 < u.compared) && belowThreshold u 1 88 index value then 4 else 0

def sagResetEffect (s : State) (r : Reading) : State :=
  let c := sagCause s.supply r.index r.mv
  if !s.boot.powered ∨ 48 ≤ r.index ∨ c = 0 then s else resetFor s c

/-- SAG_RESET (R420, R423). -/
def execSagReset (r : Reading) (s : State) : Host.Outcome State Fault Refusal := .next (sagResetEffect s r)

def avsFaultEffect (s : State) (status : Nat) : State :=
  if started s then
    let s1 := setAlert { s with supply := { s.supply with avsStatus := status % 65536 } } alAvs
    raiseEvent s1 evAvsFault (monitorPayload 0 0 (status % 65536) 1 0)
  else s

/-- AVS_FAULT (R424). -/
def execAvsFault (status : Nat) (s : State) : Host.Outcome State Fault Refusal := .next (avsFaultEffect s status)

/-! ### Monitors (R425 to R429) -/

/-- How many monitors there are of each kind (R425). -/
def monCount (kind : Nat) : Nat := match kind with | 0 => 96 | 1 => 48 | 2 => 64 | 3 => 12 | _ => 0

/-- An event of a monitor, at most one in a second for each monitor. -/
def oncePerSecond (last : Tab MonId Time) (m : MonId) (now : Time) : Bool :=
  match Tab.find last m with | some t => decide (t + 1000000000 ≤ now) | none => true

/-- A sample at or above 95 °C, or below (R427). -/
def thermalWarning (s : State) (m : MonId) (v : BitVec 16) : State :=
  if v.toInt < 1520 then { s with mon := { s.mon with above := Tab.del s.mon.above m } }
  else
    let since := Tab.get s.mon.above s.time m
    let due := oncePerSecond s.mon.lastWarn m s.time
    let thr := if m.1 = 0 then dedup (m :: s.mon.throttling) else s.mon.throttling
    let s1 := { s with mon := { s.mon with above := Tab.put s.mon.above m since, throttling := thr,
                                           lastWarn := if due then Tab.put s.mon.lastWarn m s.time else s.mon.lastWarn } }
    let s2 := refreshHalf (setAlert s1 alThermal)
    if due then raiseEvent s2 evThermalWarning (monitorPayload m.1 m.2 v.toNat 1 (s.time - since)) else s2

/-- A sample outside an enabled limit; a temperature is compared as a signed value (R429, R472). -/
def outsideLimit (l : MonLimit) (kind : Nat) (v : BitVec 16) : Bool :=
  let lt := fun (a b : BitVec 16) => if kind = 0 ∨ kind = 3 then decide (a.toInt < b.toInt) else decide (a.toNat < b.toNat)
  (l.lowEn && lt v l.low) || (l.highEn && lt l.high v)

def limitOf (s : State) (m : MonId) : MonLimit := Tab.get s.mon.limits ⟨0, 0, false, false⟩ m

/-- MONITOR_THRESHOLD (R429). -/
def limitWarning (s : State) (m : MonId) (v : BitVec 16) : State :=
  if !outsideLimit (limitOf s m) m.1 v then { s with mon := { s.mon with outside := Tab.del s.mon.outside m } }
  else
    let since := Tab.get s.mon.outside s.time m
    let due := oncePerSecond s.mon.lastEvt m s.time
    let s1 := { s with mon := { s.mon with outside := Tab.put s.mon.outside m since,
                                           lastEvt := if due then Tab.put s.mon.lastEvt m s.time else s.mon.lastEvt } }
    let s2 := setAlert s1 alMonitor
    if due then raiseEvent s2 evMonitor (monitorPayload m.1 m.2 v.toNat 1 (s.time - since)) else s2

/-- The lowest voltage of a die (SAG_STAT). -/
def noteVoltage (s : State) (index v : Nat) : State :=
  let u := s.supply
  if index < 24 then { s with supply := { u with min0 := Nat.min u.min0 v } } else { s with supply := { u with min1 := Nat.min u.min1 v } }

def monitorSampleEffect (s : State) (kind index value : Nat) : State :=
  if !s.boot.powered ∨ monCount kind ≤ index then s
  else
    let m : MonId := (kind, index)
    let v := BitVec.ofNat 16 value
    let s1 := { s with mon := { s.mon with vals := Tab.put s.mon.vals m v } }
    if !running s then s1
    else
      let s2 := if kind = 1 then noteVoltage s1 index v.toNat else s1
      if kind = 0 ∨ kind = 3 then
        let s3 := limitWarning (thermalWarning s2 m v) m v
        if v.toInt < 1680 then { s3 with mon := { s3.mon with hot := s3.mon.hot.filter (· != m) } }
        else if s.mon.hot.contains m then resetFor s3 6
        else { s3 with mon := { s3.mon with hot := m :: s3.mon.hot } }
      else limitWarning s2 m v

/-- MONITOR_SAMPLE (R426 to R429). -/
def execMonitorSample (kind index value : Nat) (s : State) : Host.Outcome State Fault Refusal := .next (monitorSampleEffect s kind index value)

def thermalThrottleEndEffect (s : State) (kind index : Nat) : State :=
  let m : MonId := (kind, index)
  if s.mon.throttling.contains m ∧ (Tab.get s.mon.vals 0 m).toInt < 1440 then
    refreshHalf { s with mon := { s.mon with throttling := s.mon.throttling.filter (· != m) } }
  else s

/-- THERMAL_THROTTLE_END (R427). -/
def execThermalThrottleEnd (kind index : Nat) (s : State) : Host.Outcome State Fault Refusal := .next (thermalThrottleEndEffect s kind index)

/-! ### Watchdogs (R430) -/

def watchdogTripEffect (s : State) (die core : Nat) : State :=
  if !started s ∨ s.rst.ctlRunning ∨ s.rst.wdog.isSome ∨ 2 ≤ die ∨ 8 ≤ core ∨ s.boot.halted.contains (8 * die + core) then s
  else
    let s1 := setAlert { s with rst := { s.rst with wdog := some ⟨die, core, s.time⟩ } } alWatchdog
    raiseEvent s1 evWatchdog (recordBytes [(1, die), (3, core), (28, 0), (32, s.rst.wdogHold), (64, 0)])

/-- WATCHDOG_TRIP (R430). -/
def execWatchdogTrip (die core : Nat) (s : State) : Host.Outcome State Fault Refusal := .next (watchdogTripEffect s die core)

def wdogHoldExpiryEffect (s : State) : State :=
  match s.rst.wdog with
  | none => s
  | some w => controlReset (reach s (w.at' + s.rst.wdogHold * 1000000)) 0x22

/-- WDOG_HOLD_EXPIRY (R430). -/
def execWdogHoldExpiry (s : State) : Host.Outcome State Fault Refusal := .next (wdogHoldExpiryEffect s)

/-! ### Health (R389) -/

/-- One second older; nothing is kept of a deficit of zero. -/
def ageDeficit (d : List Nat) : List Nat := if d.all (· == 0) then [] else 0 :: d

def healthDecayEffect (s : State) : State :=
  if !running s then s
  else
    let s1 := if allBelow s 1520 then s else addHealth s false 512
    healthReport { s1 with health := { s1.health with d := ageDeficit s1.health.d, dh := ageDeficit s1.health.dh } }

/-- HEALTH_DECAY (R389). -/
def execHealthDecay (s : State) : Host.Outcome State Fault Refusal := .next (healthDecayEffect s)

end Sys2Proof.Machine
end

