-- ==== Sys2Proof/Machine/Keys.lean ====
section
/-! DEFINITION. The KEY instructions, rotation, removal and reclaim of tenants (12 R304 to R308, 16 R400 to R415). -/

namespace Sys2Proof.Machine
open Sys2Proof

/-! ### Key packages (R400, R401) -/

/-- The 12 ASCII bytes of R400. -/
def keyLabel : List Byte := [0x43, 0x4C, 0x48, 0x2D, 0x41, 0x37, 0x31, 0x36, 0x20, 0x4B, 0x45, 0x59]

/-- The plain fields of a package agree with the instruction and the node (R401). -/
def packageFields (s : State) (slot kind epoch : Nat) (b : List Byte) : Bool :=
  let w := leAt b 0 4
  decide (fld w 3 0 = 1 ∧ fld w 7 4 = kind ∧ fld w 19 8 = slot ∧ fld w 31 20 = 0 ∧ leAt b 4 2 = epoch ∧ leAt b 6 2 ≠ 0xFFFF ∧
    leAt b 8 4 = s.boot.bootIndex % 2 ^ 32 ∧ leAt b 0x0C 4 = 0 ∧ leAt b 0x10 8 = Config.unitId.toNat ∧ leAt b 0x18 8 = 0 ∧ leAt b 0x670 16 = 0)

/-- K_wrap of a package (R400). -/
def wrapKey (s : State) (b : List Byte) : List Byte :=
  sha256 (keyLabel ++ kemDecaps s.boot.kemSeed (slice b 0x20 1568) ++ b.take 0x20)

/-- The key of a package, none where a check of R401 fails. -/
def packageKey (s : State) (slot kind epoch : Nat) (b : List Byte) : Option Key :=
  if packageFields s slot kind epoch b then
    (gcmOpen (wrapKey s b) (zeros 12) (b.take 0x640) (slice b 0x640 32) (slice b 0x660 16)).map (fun k => ⟨epoch, leAt b 6 2, k, 0⟩)
  else none

def keySlot (w : Nat) : Nat := fld w 43 32
def keyBuf (w : Nat) : Nat := fld w 46 44

/-- The epoch after one (R305). -/
def nextEpoch (e : Nat) : Nat := if e = 65535 then 1 else e + 1

/-- A slot in each of the states of R413. -/
def slotIs (s : State) (t : Nat) (st : SlotState) : Bool := decide ((getTenant s t).state = st)

def pkgShort (p : Prog) (w : Nat) : Bool := decide ((p.buf (keyBuf w)).length ≠ 1664)

/-- Stages an epoch for a slot on behalf of a step (R305). -/
def stageKey (s : State) (t lsn k : Nat) (admission : Bool) (epoch : Nat) : State :=
  putTenant s t { getTenant s t with staging := some ⟨lsn, k, admission, epoch, none⟩ }

def keyAdmitEffect (s : State) (c : Nat) : State :=
  issueStep s c (isOp .keyAdmit) (fun s p w k =>
    let t := keySlot w
    let own := [(!slotIs s t .empty || (getTenant s t).staging.isSome, refusedWith scSlotBusy), (pkgShort p w, refusedWith scShapeInvalid)]
    match firstOf (generalChecks s p w ++ own) with
    | some r => finishStep s c k r
    | none => stageKey s t p.lsn k true 1)

/-- KEY_ADMIT (R304, R305, R308). -/
def execKeyAdmit (c : Nat) (s : State) : Host.Outcome State Fault Refusal := .next (keyAdmitEffect s c)

def keyRotateEffect (s : State) (c : Nat) : State :=
  issueStep s c (isOp .keyRotate) (fun s p w k =>
    let t := keySlot w
    let x := getTenant s t
    let next := nextEpoch ((x.current.map Key.epoch).getD 0)
    let busy := x.old.isSome || x.staging.isSome
    -- with two epochs live the trust block still checks the package: KEY_INVALID comes before ROTATION_BUSY (R7)
    let bad := busy && slotIs s t .admitted && !pkgShort p w && (packageKey s t 2 next (p.bytes (keyBuf w))).isNone
    let own := [(slotIs s t .tombstone, (stTenantGone, 0)), (slotIs s t .empty, refusedWith scTenantAbsent), (pkgShort p w, refusedWith scShapeInvalid),
                (bad, refusedWith scKeyInvalid), (busy, (stRotationBusy, 0))]
    match firstOf (generalChecks s p w ++ own) with
    | some r => finishStep (if r = refusedWith scKeyInvalid then bump s (.keyStat 1) else s) c k r
    | none => stageKey s t p.lsn k false next)

/-- KEY_ROTATE (R304, R305, R308, R411). -/
def execKeyRotate (c : Nat) (s : State) : Host.Outcome State Fault Refusal := .next (keyRotateEffect s c)

/-- The trust block has looked at the package: the key is staged, or the staging ends with KEY_INVALID (R304, R305, R401). -/
def keyStageAckEffect (s : State) (c k : Nat) : State :=
  match getCtx s c with
  | none => s
  | some p =>
    let w := p.word k
    let t := keySlot w
    let x := getTenant s t
    match x.staging with
    | none => s
    | some g =>
      if g.lsn ≠ p.lsn ∨ g.step ≠ k ∨ g.key.isSome ∨ (p.step k).phase ≠ .running then s
      else
        match packageKey s t (if g.admission then 1 else 2) g.epoch (p.bytes (keyBuf w)) with
        | some key =>
          -- the mirror has the key over the private channel (R16, R393)
          let s1 := channelSend (putTenant s t { x with staging := some { g with key := some key } }) (keyTransfer 0 t key)
          finishStep (bump s1 (.keyStat 0)) c k (stOk, 0)
        | none => finishStep (bump (putTenant s t { x with staging := none }) (.keyStat 1)) c k (refusedWith scKeyInvalid)

/-- KEY_STAGE_ACK (R304, R401). -/
def execKeyStageAck (c step : Nat) (s : State) : Host.Outcome State Fault Refusal := .next (keyStageAckEffect s c step)

/-! ### What uses a tenant's keys (R410, R414) -/

/-- The epoch under which an object stands; of a matrix, its object in T2. -/
def refEpoch (s : State) (o : ObjRef) : Nat :=
  match o with
  | .tile i => ((getTile s i).map Tile.epoch).getD 0
  | .grad k => ((Tab.find s.mem.grads k).bind (fun g => g.committed.map GradTile.epoch)).getD 0
  | .weight k m _ => (((Tab.find s.mem.weights k).bind (fun w => Tab.find w.mats m)).map Matrix.backEpoch).getD 0
  | .lse k => ((Tab.find s.mem.lse k).map Lse.epoch).getD 0
  | .none => 0

/-- The epoch of the object that a fetch brings: from the header where that has come (R33, R408, R410). -/
def fetchEpoch (s : State) (f : Fetch) : Nat :=
  match Tab.find f.got 0, f.obj with
  | some h, .weight _ _ _ => leAt h 4 2
  | some h, _ => leAt h 6 2
  | none, o => refEpoch s o

/-- Sequences that a unit works on. -/
def activeSeqs (s : State) : List Seq := (s.nb.units.vals.map Unit'.seqs).flatten.filter Seq.active

/-- The sequences whose unit's key slots hold a tenant's epoch (R189). -/
def keyedSeqs (s : State) (t e : Nat) : Nat :=
  sumBy (fun u => if u.keys.any (fun k => k.tenant == t && k.epoch == e) then (u.seqs.filter Seq.active).length else 0) s.nb.units.vals

/-- PUTs of a tenant's tiles under some epochs that their targets have not acknowledged (R164). -/
def putsOf (s : State) (t : Nat) (q : Nat → Bool) : Nat :=
  sumBy (fun x => if x.tenant = t ∧ q x.epoch ∧ (x.tier = .copying ∨ x.tier = .backed ∨ x.tier = .remote) then
    (x.replicas.filter (fun r => !r.acked)).length else 0) s.mem.tiles.vals

/-- Objects under some epochs that hand-overs and copies of a tenant send (R380, R381, R388). -/
def servedOf (s : State) (t : Nat) (q : Nat → Bool) : Nat :=
  sumBy (fun x => if x.2.1 = t ∧ x.2.2.length % 576 = 0 then
    ((manEntries (servedBytes s x.1)).filter (fun y => decide (y.obj ≠ 0) && q (headEpoch y.kind (servedBytes s y.obj)))).length else 0) s.fab.served

/-- Objects under some epochs that hand-overs and copies of a tenant receive; an epoch is known with the header block, 0 before (R380, R388). -/
def comingOf (s : State) (t : Nat) (q : Nat → Bool) : Nat :=
  sumBy (fun x => if x.1.1 = t then ((handEntries x.2).filter (fun y => decide (y.kind ≠ 3) &&
    q (headEpoch y.kind (Tab.get x.2.got [] (y.obj, 0))))).length else 0) s.fab.handovers

/-- Transfers of a tenant's objects under some epochs: of T2 and of hand-overs (R307, R410). -/
def transfersOf (s : State) (t : Nat) (q : Nat → Bool) : Nat :=
  (s.mem.fetches.vals.filter (fun f => refTenant s f.obj == t && q (fetchEpoch s f))).length + putsOf s t q + servedOf s t q + comingOf s t q

/-- INFLIGHT (R307): plies, sequences, transfers and contexts of the tenant. -/
def inflightOf (s : State) (t : Nat) : Nat :=
  ((issuedPlies s).filter (fun p => p.2.key.tenant == t)).length + ((activeSeqs s).filter (fun q => q.tenant == t)).length +
    transfersOf s t (fun _ => true) + (s.pg.ctxs.vals.filter (fun p => p.tenant == t)).length

/-- A prepared change holds an object under an epoch. -/
def Change.under (c : Change) (e : Nat) : Bool :=
  match c with
  | .lse _ _ _ _ f _ => f == e
  | .load _ _ l => recsUnder l.recs e
  | .fetch _ _ _ m => m.under e
  | .adam _ _ _ _ r | .copyOf _ _ _ _ r | .area _ _ r => r.epoch == e
  | _ => false

/-- OLD_TILES: the objects under an epoch, in T1 or only in T2, prepared ones among them (R410). -/
def oldTiles (s : State) (t e : Nat) : Nat :=
  (s.mem.tiles.vals.filter (fun x => x.tenant == t && x.epoch == e)).length +
    sumBy (fun p => if p.tenant = t then (p.tiles.filter (fun x => (x.isNew || x.rewrite) && x.tile.epoch == e)).length else 0) s.pg.ctxs.vals +
    (s.mem.grads.filter (fun g => g.1.1 == t && ((g.2.committed.map GradTile.epoch) == some e || (g.2.pending.map GradTile.epoch) == some e))).length +
    sumBy (fun w => if w.1.1 = t then (w.2.mats.vals.filter (fun m => m.under e)).length else 0) s.mem.weights +
    (s.mem.lse.filter (fun l => l.1.1 == t && l.2.epoch == e)).length +
    sumBy (fun p => if p.tenant = t then (p.changes.filter (fun c => c.under e)).length else 0) s.pg.ctxs.vals

/-- A ply reads something under an epoch (R96, R410). -/
def Ply.readsUnder (x : Ply) (t e : Nat) : Bool :=
  x.key.tenant == t && (x.tiles.vals.any (fun y => y.epoch == e) || x.lse.vals.any (fun l => l.epoch == e) ||
    (x.weights.map (fun w => w.mats.vals.any (fun m => m.under e))).getD false)

/-- OLD_INFLIGHT: what can still use an epoch's key: plies, sequences, T2 and hand-over transfers, programs (R410). -/
def oldInflight (s : State) (t e : Nat) : Nat :=
  ((issuedPlies s).filter (fun p => p.2.readsUnder t e)).length + keyedSeqs s t e + transfersOf s t (fun x => x == e) +
  (s.pg.ctxs.vals.filter (fun p => p.tenant == t && p.epoch == e && p.place != [])).length

/-- The epoch of a key, 0 if none. -/
def epochOf (k : Option Key) : Nat := (k.map Key.epoch).getD 0

/-- The record of a slot (R307). -/
def slotRecord (s : State) (t : Nat) : List Byte :=
  let x := getTenant s t
  let st := match x.state with | .empty => 0 | .admitted => 1 | .tombstone => 2
  let old := fun (f : Nat → Nat) => match x.old with | some k => f k.epoch | none => 0
  recordBytes [(12, t), (2, st), (1, b2n x.staging.isSome), (17, 0), (16, epochOf x.current), (16, epochOf x.old), (32, old (oldTiles s t)),
    (32, old (oldInflight s t)), (32, inflightOf s t), (32, x.dropped), (64, s.time)]

def keyStatusEffect (s : State) (c : Nat) : State :=
  issueStep s c (isOp .keyStatus) (fun s p w k =>
    let t := keySlot w
    let b := keyBuf w
    match firstOf [(!p.owner && t != p.tenant, refusedWith scNotPrivileged), (outShort p b 32, refusedWith scBufferShort)] with
    | some r => finishStep s c k r
    | none =>
      let r := slotRecord s t
      finishStep (if (p.buf b).kind = 3 then emitRecords s c k false [r] else updCtx s c (fun p => p.writeBuf b r)) c k (stOk, 0))

/-- KEY_STATUS (R304, R307). -/
def execKeyStatus (c : Nat) (s : State) : Host.Outcome State Fault Refusal := .next (keyStatusEffect s c)

/-! ### KEY.REMOVE (R306, R414) -/

/-- The keys a slot holds. -/
def heldKeys (x : Tenant) : List Key := x.current.toList ++ x.old.toList ++ (x.staging.bind Staging.key).toList

/-- Messages of a peer are abandoned: those of which nothing is out go, the others send nothing more (R414; DESIGN CHOICE, log 96). -/
def abandonMsgs (p : Peer) (q : OutMsg → Bool) : Peer :=
  { p with out := (p.out.filter (fun m => !(q m && !p.inflight.any (fun f => f.msg == m.id)))).map (fun m =>
      if q m then { m with abandoned := true } else m) }

/-- The slot's queued frames of the node's own are discarded and counted in DROPPED, its tier messages abandoned (R364, R414). -/
def dropSlotFrames (s : State) (t : Nat) : State :=
  let mine := fun (q : QId) => q.2.2 == t
  let own := fun (q : EQueue) => (q.frames.filter (fun f => !f.forwarded)).length
  let n := sumBy (fun q => if mine q.1 then own q.2 else 0) s.tr.queues + (s.net.backlog.filter (fun b => mine b.1)).length
  let x := getTenant s t
  let s0 := discardFrames s mine
  let s1 := { s0 with net := { s.net with backlog := s.net.backlog.filter (fun b => !mine b.1),
                                          peers := s.net.peers.mapVals (fun _ p => abandonMsgs p (fun m => m.type == 6 && m.tenant == t)) } }
  putTenant s1 t { x with dropped := satAdd 32 x.dropped n }

/-- Ends programs that are not past their commit point. -/
def endWhere (s : State) (p : Prog → Bool) (e : Ending) : State :=
  let s1 := (s.pg.queue.filter p).foldl (fun s q => endQueued s q e) s
  (s1.pg.ctxs.filter (fun x => p x.2 && decide (x.2.state ≠ .committing))).foldl (fun s x => endProg s x.1 e) s1

/-- A tile without the replicas that have not acknowledged; one that was being copied is RESIDENT (R165, R414). -/
def Tile.abandonPuts (t : Tile) : Tile :=
  { t with replicas := if t.tier = .copying then [] else t.replicas.filter Replica.acked, tier := if t.tier = .copying then .resident else t.tier }

/-- Transfers and hand-overs of a tenant are abandoned; a PUT that was under way may still be written (R166, R414, R415). -/
def dropTransfers (s : State) (t : Nat) : State :=
  let late := ((s.mem.tiles.vals.filter (fun x => x.tenant == t)).map (fun x =>
    (x.replicas.filter (fun r => !r.acked || x.tier == .copying)).map (fun r => (t, x.objKey, r.node)))).flatten
  { s with mem := { s.mem with fetches := s.mem.fetches.filter (fun f => refTenant s f.2.obj != t), cancelled := s.mem.cancelled ++ late,
                               tiles := s.mem.tiles.map (fun x => if x.2.tenant = t then (x.1, x.2.abandonPuts) else x) },
           fab := { s.fab with handovers := s.fab.handovers.filter (fun h => h.1.1 != t), offers := s.fab.offers.filter (fun o => o.1.1 != t),
                               copyAsks := s.fab.copyAsks.filter (fun o => o.1.1 != t), served := s.fab.served.filter (fun o => o.2.1 != t) } }

/-- The key slots of every unit lose a tenant's keys (R189, R414). -/
def clearUnitKeys (s : State) (t : Nat) : State :=
  { s with nb := { s.nb with units := s.nb.units.mapVals (fun _ u => { u with keys := u.keys.filter (fun k => k.tenant != t) }) } }

/-- Steps 1 to 3 of R414. -/
def removeTenant (s : State) (t : Nat) : State :=
  let x := getTenant s t
  let s1 := putTenant (destroyKeys s t (heldKeys x)) t { x with state := .tombstone, current := none, old := none, staging := none }
  let s2 := addCtr (bump s1 (.keyStat 3)) (.keyStat 2) (heldKeys x).length
  let s3 := dropSlotFrames (dirPurge s2 t) t
  let s4 := endWhere s3 (fun p => p.tenant == t && !p.owner) ⟨stTenantGone, 0, 0xFFFF⟩
  stopScrubs (clearUnitKeys (dropTransfers (cancelSeqs s4 (fun q => q.tenant == t) stTenantGone) t) t) t

def keyRemoveEffect (s : State) (c : Nat) : State :=
  issueStep s c (isOp .keyRemove) (fun s p w k =>
    let t := keySlot w
    match firstOf (generalChecks s p w ++ [(slotIs s t .tombstone, (stTenantGone, 0)), (slotIs s t .empty, refusedWith scTenantAbsent)]) with
    | some r => finishStep s c k r
    | none =>
      let stager := (getTenant s t).staging.map Staging.lsn
      let s1 := finishStep (removeTenant s t) c k (stOk, 0)
      endWhere s1 (fun p => p.owner && (p.tenant == t || stager == some p.lsn)) ⟨stTenantGone, 0, 0xFFFF⟩)

/-- KEY_REMOVE (R306, R413, R414). -/
def execKeyRemove (c : Nat) (s : State) : Host.Outcome State Fault Refusal := .next (keyRemoveEffect s c)

/-! ### Reclaim (R414 steps 6 and 7, R166, R364) -/

/-- Nothing of the tenant is charged any longer; replicas that abandoned PUTs may have written are released with the others (R166, R414). -/
def freeTenant (s : State) (t : Nat) : State :=
  let s0 := (s.mem.cancelled.filter (fun x => x.1 == t)).foldl (fun s x => releaseReplicas s t x.2.1 [x.2.2])
    { s with mem := { s.mem with cancelled := s.mem.cancelled.filter (fun x => x.1 != t) } }
  let s1 := (s0.mem.tiles.vals.filter (fun x => x.tenant == t)).foldl dropCopies s0
  { s1 with mem := { s1.mem with tiles := s1.mem.tiles.filter (fun x => x.2.tenant != t), descs := s1.mem.descs.filter (fun d => d.2.tenant != t),
                                 grads := s1.mem.grads.filter (fun g => g.1.1 != t), gradHold := s1.mem.gradHold.filter (fun g => g.1.1 != t),
                                 lse := s1.mem.lse.filter (fun l => l.1.1 != t), weights := s1.mem.weights.filter (fun w => w.1.1 != t),
                                 drains := s1.mem.drains.filter (fun d => d.2.tenant != t) } }

/-- The settings of a slot are as after reset (R364, R414). -/
def resetSlot (s : State) (t : Nat) : State :=
  { s with trust := { s.trust with tenants := Tab.put s.trust.tenants t { Tenant.reset with dropped := (getTenant s t).dropped } },
           tr := { s.tr with shapers := s.tr.shapers.filter (fun x => x.1.2 != t), weights := s.tr.weights.filter (fun x => x.1 != t),
                             policers := s.tr.policers.filter (fun x => x.1.2 != t) },
           fab := { s.fab with proposals := s.fab.proposals.filter (fun o => o.1.1 != t),
                               withdrawn := s.fab.withdrawn.filter (fun o => o.1.1 != t) } }

def tenantReclaimEffect (s : State) (t : Nat) : State :=
  if slotIs s t .tombstone ∧ inflightOf s t = 0 ∧ serving s then
    raiseEvent (resetSlot (freeTenant s t) t) evTenantRemoved (commonPayload { tenant := t })
  else s

/-- TENANT_RECLAIM (R414). -/
def execTenantReclaim (slot : Nat) (s : State) : Host.Outcome State Fault Refusal := .next (tenantReclaimEffect s slot)

/-! ### The re-encryption pass (R411, R412) -/

/-- The next object of the pass of a die, in the order of R411. -/
inductive Reenc where
  | tile (oid : Nat)
  | grad (k : GradKey)
  | weight (k : SetKey) (mat : Nat)
  | lse (k : LseKey)
  | remote (oid : Nat)
  deriving DecidableEq, Repr

/-- An uncommitted append holds the tile (R244). -/
def appendHolds (s : State) (oid : Nat) : Bool := s.pg.ctxs.vals.any (fun p => p.tiles.any (fun x => x.oid == oid))

/-- An object is being fetched again, so the pass comes to it later (R178, R412). -/
def refetching (s : State) (o : ObjRef) : Bool := s.mem.fetches.vals.any (fun f => f.obj == o)

/-- The objects of a tenant under epoch `e` on a die, in the order of R411, less those that the pass has passed over. -/
def reencList (s : State) (t e die : Nat) : List Reenc :=
  let open' := fun (o : ObjRef) => !(getTenant s t).skipped.contains o && !refetching s o
  let here := s.mem.tiles.filter (fun x => x.2.tenant == t && x.2.epoch == e && x.2.die == die && open' (.tile x.1))
  let inT1 := here.filter (fun x => decide (x.2.body ≠ [] ∧ x.2.tier ≠ .fetching))
  (inT1.filter (fun x => x.2.isSealed)).map (fun x => .tile x.1) ++
    (inT1.filter (fun x => !x.2.isSealed && !appendHolds s x.1)).map (fun x => .tile x.1) ++
    (s.mem.grads.filter (fun g => g.1.1 == t && g.2.die == die && open' (.grad g.1) && g.2.pending.isNone &&
      (g.2.committed.map GradTile.epoch) == some e)).map (fun g => .grad g.1) ++
    ((s.mem.weights.filter (fun w => w.1.1 == t && w.2.die == die && decide (w.2.steppers = []) && w.2.gradHolder.isNone)).map (fun w =>
      (w.2.mats.filter (fun m => m.2.under e && open' (.weight w.1 m.1 0))).map (fun m =>
        Reenc.weight w.1 m.1))).flatten ++
    (s.mem.lse.filter (fun l => l.1.1 == t && l.2.epoch == e && open' (.lse l.1) && ((l.2.place.head?.map granDie).getD 0) == die)).map (fun l =>
      .lse l.1) ++
    (here.filter (fun x => decide (x.2.tier = .remote))).map (fun x => .remote x.1)

/-- The pass passes over a poisoned object, which keeps the old key alive (R412). -/
def skipObject (s : State) (t : Nat) (o : ObjRef) : State :=
  bump (putTenant s t { getTenant s t with skipped := o :: (getTenant s t).skipped }) (.reenc 2)

/-- An object has been moved: the counts of REENC_STAT. -/
def reencDone (s : State) (bytes : Nat) : State := addCtr (bump s (.reenc 0)) (.reenc 1) bytes

/-- A tile is written under the current epoch, by copy and switch (R161, R411). -/
def reencTile (s : State) (oid : Nat) : State :=
  let r := readTile s oid
  match getTile r.2 oid with
  | none => r.2
  | some t =>
    let n := t.body.length
    if r.1 then
      (match t.tier with
        | .backed => fetchTile r.2 .demand oid
        | .fetching => r.2
        | _ => skipObject r.2 t.tenant (.tile oid))
    else if !poolFits r.2 t.die n true then r.2
    else
      let c := takeSeqs (dropCopies r.2 t) t.tenant 1
      let b := takeBody c.2.2 t.die t.tenant n
      let s2 := putTile b.2.2 oid { t with epoch := c.2.1, counter := c.1, body := b.1, hdr := b.2.1, tier := .resident, replicas := [], unread := [] }
      reencDone (drainTile s2 oid t) (512 * n + 64)

def reencGrad (s : State) (k : GradKey) : State :=
  match Tab.find s.mem.grads k with
  | none => s
  | some x =>
    let r := readObject s (.grad k) (objBlocks (some x.hdr) x.body)
    let n := x.body.length
    if r.1 ∨ x.poisoned then skipObject r.2 k.1 (.grad k)
    else if !poolFits r.2 x.die n true then r.2
    else
      let c := takeSeqs r.2 k.1 1
      let b := takeBody c.2.2 x.die k.1 n
      let y := { x with committed := x.committed.map (fun y => { y with epoch := c.2.1, counter := c.1 }), body := b.1, hdr := b.2.1 }
      let s1 := { b.2.2 with mem := { b.2.2.mem with grads := Tab.put b.2.2.mem.grads k y } }
      reencDone (drainAfter s1 ⟨k.1, false, x.body, some x.hdr, none, []⟩) (512 * n + 64)

def reencWeight (s : State) (k : SetKey) (mat : Nat) : State :=
  match (Tab.find s.mem.weights k).bind (fun w => (Tab.find w.mats mat).map (fun m => (w, m))) with
  | none => s
  | some (w, m) =>
    let r := readObject s (.weight k mat false) ((m.place.map granBlocks).flatten)
    let x := readObject r.2 (.weight k mat true) ((m.auxPlace.map granBlocks).flatten)
    let a := readObject x.2 (.loading k mat) ((((m.load.map Load.place).getD []).map granBlocks).flatten)
    let n := (matrixGrans m).length
    let numbers := recCount m.recs + ((m.load.map (fun l => recCount l.recs)).getD 0)
    -- a set that only tier 2 holds is fetched first
    if !m.present then fetchWeights s .copy k mat
    else if a.1 ∨ (m.load.map Load.poisoned).getD false ∨ x.1 ∨ m.auxPoisoned ∨ (r.1 ∨ m.poisoned) ∧ (m.backing.isNone ∨ w.state = .unavailable) then skipObject a.2 k.1 (.weight k mat 0)
    else if r.1 ∨ m.poisoned then (if refetching a.2 (.weight k mat 0) then a.2 else fetchWeights a.2 .demand k mat)
    else if freeReserve a.2 w.die < n ∨ nonceSpent a.2 k.1 numbers then a.2
    else
      let c := takeRecs a.2 k.1 numbers
      let g := takeGrans c.2 w.die n
      let a := m.place.length
      let b := a + m.auxPlace.length
      let s1 := updMatrix g.2 k mat (fun m => { m with
        recs := renumber m.recs c.1, place := g.1.take a, auxPlace := (g.1.drop a).take (b - a), backing := none,
        load := m.load.map (fun l => { l with recs := renumber l.recs (c.1.plus (recCount m.recs)), place := g.1.drop b }) })
      reencDone (drainWeights s1 k (matrixGrans m)) (512 * n)

def reencLse (s : State) (k : LseKey) : State :=
  match Tab.find s.mem.lse k with
  | none => s
  | some x =>
    let r := readObject s (.lse k) ((x.place.map granBlocks).flatten)
    let die := (x.place.head?.map granDie).getD 0
    if r.1 ∨ x.poisoned then skipObject r.2 k.1 (.lse k)
    else if !poolFits r.2 die x.place.length false then r.2
    else
      let c := takeSeqs r.2 k.1 1
      let g := takeGrans c.2.2 die x.place.length
      let s1 := { g.2 with mem := { g.2.mem with lse := Tab.put g.2.mem.lse k { x with epoch := c.2.1, counter := c.1, place := g.1 } } }
      reencDone (drainReads s1 (fun p => (Tab.find p.lse k).isSome) ⟨k.1, false, x.place, none, none, []⟩) (4 * x.vals.length)

/-- A tile that only tier 2 holds is fetched first, at copy priority; a lost one is poisoned (R377, R411). -/
def reencRemote (s : State) (oid : Nat) : State :=
  match getTile s oid with
  | none => s
  | some t => if t.poisoned ∨ t.lost then skipObject s t.tenant (.tile oid) else fetchTile s .copy oid

def reencObjectEffect (s : State) (t die : Nat) (fs : List Flip) : State :=
  match (getTenant s t).old with
  | none => s
  | some k =>
    if !serving s ∨ nonceSpent s t 1 then s
    else
      match reencList s t k.epoch die with
      | [] => s
      | .tile o :: _ => reencTile (applyFlips s fs) o
      | .grad g :: _ => reencGrad (applyFlips s fs) g
      | .weight w m :: _ => reencWeight (applyFlips s fs) w m
      | .lse l :: _ => reencLse (applyFlips s fs) l
      | .remote o :: _ => reencRemote s o

/-- REENC_OBJECT (R411, R412). -/
def execReencObject (slot die : Nat) (flips : List Flip) (s : State) : Host.Outcome State Fault Refusal :=
  .next (reencObjectEffect s slot die flips)

/-- T2 objects under a retired epoch back no matrix that stands in T1 any longer (R408, R411). -/
def unback (s : State) (t e : Nat) : State :=
  { s with mem := { s.mem with weights := s.mem.weights.map (fun w => if w.1.1 ≠ t then w else
      (w.1, { w.2 with mats := w.2.mats.mapVals (fun _ m => if m.present ∧ m.backEpoch = e then { m with backing := none } else m) })) } }

def keyRetireEffect (s : State) (t : Nat) : State :=
  let x := getTenant s t
  match x.old with
  | none => s
  | some k =>
    if oldTiles s t k.epoch = 0 ∧ oldInflight s t k.epoch = 0 ∧ serving s then
      let s1 := bump (bump (putTenant (destroyKeys (unback s t k.epoch) t [k]) t { x with old := none }) (.keyStat 4)) (.keyStat 2)
      raiseEvent s1 evKeyRetired (commonPayload { tenant := t, epoch := k.epoch })
    else s

/-- KEY_RETIRE (R411). -/
def execKeyRetire (slot : Nat) (s : State) : Host.Outcome State Fault Refusal := .next (keyRetireEffect s slot)

end Sys2Proof.Machine
end

