-- ==== Sys2Proof/Machine/Proj.lean ====
section
/-! DEFINITION. PROJ.KV in both modes and MM: checks, the plies they join, their arithmetic (05 R121 to R125, 11 R270 to R274). -/

namespace Sys2Proof.Machine
open Sys2Proof

/-- The operands of PROJ.KV (R258, R270). -/
structure ProjOps where
  grad : Bool
  append : Bool
  rotate : Bool
  selK : Bool
  selV : Bool
  selQ : Bool
  accum : Bool
  xBuf : Nat
  set : Nat
  yBuf : Nat
  stream : Nat
  flr : Nat
  pbBuf : Nat
  layer : Nat
  afmt : Nat
  gfmt : Nat
  m : Nat
  t0 : Nat
  gset : Nat
  dqBuf : Nat
  deriving DecidableEq, Repr

def projOps (p : Prog) (w : Nat) : ProjOps :=
  { grad := fbit w 0, append := fbit w 1, rotate := fbit w 2, selK := fbit w 3, selV := fbit w 4, selQ := fbit w 5, accum := fbit w 6,
    xBuf := fld w 34 32, set := p.nameId (fld w 37 35), yBuf := fld w 40 38, stream := p.stream (fld w 42 41), flr := fld w 44 43,
    pbBuf := fld w 47 45, layer := fld w 55 48, afmt := if fld w 59 56 = 0 then 4 else fld w 59 56, gfmt := if fld w 63 60 = 0 then 1 else fld w 63 60,
    m := fld w 75 64 + 1, t0 := fld w 103 80, gset := p.nameId (fld w 106 104), dqBuf := fld w 109 107 }

def ProjOps.key (p : Prog) (o : ProjOps) : SetKey := (p.tenant, o.set, o.layer)

/-- The matrices an instruction selects, in the order K, V, Q. -/
def ProjOps.sel (o : ProjOps) : List Nat := (if o.selK then [0] else []) ++ (if o.selV then [1] else []) ++ (if o.selQ then [2] else [])

/-- The set holds a current matrix, in T1 or in T2. -/
def curMat (s : State) (k : SetKey) (mat : Nat) : Option Matrix :=
  ((getSet s k).bind (fun w => Tab.find w.mats mat)).bind (fun m => if m.cur.isSome then some m else none)

/-- The stored format of a matrix. -/
def Matrix.fmt (m : Matrix) : Nat := (m.cur.map MatBody.fmt).getD 0

/-- A matrix carries zero points, which a symmetric loaded operand of a format must suit (R75). -/
def weightZpClash (afmt : Nat) (m : Matrix) : Bool :=
  match m.cur with
  | some b => !zpPairOk b.fmt (b.rows.any (fun r => r.any (fun q => q.zp != 0))) afmt false
  | none => false

/-- The node holds no such weight set (R271). -/
def setAbsent (s : State) (k : SetKey) : Bool :=
  match getSet s k with
  | some w => !w.mats.any (fun m => m.2.cur.isSome)
  | none => true

/-! ### Head configuration and formats of an append (R88 by analogy, R122, R123) -/

/-- The format of what a projection appends: that of the stream's own tile in the layer with the greatest BASE_POS (DEDUCED), POS_ENC
by ROTATE; where there is none, what no rule gives is free (log 29). -/
def projFmt (s : State) (p : Prog) (vs : List View) (o : ProjOps) (rows : Nat) : AppendFmt :=
  let pe := if o.rotate then 0 else 1
  match lastOwnTile s p vs o.layer with
  | some t => { t.fmt with posEnc := pe }
  | none =>
    let dc := Config.projDimCode rows % 5
    ⟨Config.projKFmt % 9 + 1, Config.projVFmt % 9 + 1, false, pe, rows / headDim dc, dc⟩

/-- The append that a projection makes. -/
def projAppend (s : State) (p : Prog) (c : Nat) (o : ProjOps) (rows : Nat) : AppendOps :=
  { stream := o.stream, layer := o.layer, pos := o.t0, n := o.m, f := projFmt s p (views s p.tenant o.stream c) o rows, rotate := o.rotate }

/-- HEAD_DIM of the queries of a projection. -/
def projDim (s : State) (p : Prog) (c : Nat) (o : ProjOps) (rows : Nat) : Nat :=
  if o.append then headDim (projAppend s p c o rows).f.dimCode else headDim (Config.projDimCode rows % 5)

/-- Matrix shapes disagree with the instruction (R122, R274). -/
def weightShape (s : State) (p : Prog) (c : Nat) (o : ProjOps) : Bool :=
  let ms := o.sel.map (curMat s (o.key p))
  let rows := fun (i : Nat) => ((curMat s (o.key p) i).map Matrix.rows).getD 0
  let f := (projAppend s p c o (rows 0)).f
  let kv := f.heads * headDim f.dimCode
  let d := projDim s p c o (rows 2)
  ms.any Option.isNone || (o.selK && o.selV && decide (rows 0 ≠ rows 1)) ||
    (o.append && decide (rows 0 ≠ kv ∨ f.heads = 0 ∨ 64 < f.heads)) || (o.rotate && o.selQ && decide (rows 2 % d ≠ 0 ∨ rows 2 = 0))

/-- The columns of the set. -/
def setCols (s : State) (k : SetKey) : Nat := ((getSet s k).map WeightSet.dModel).getD 0

/-- The buffer takes `n` results in its format: FP32, BF16 or FP16. -/
def resultFmt (d : BufDesc) : Bool := d.fmt == 15 || d.fmt == 1 || d.fmt == 2
def resultShort (d : BufDesc) (n : Nat) : Bool := decide (d.length < n * bufElem d.fmt)

/-- The conditions that R271 names on an append that a projection makes: R27, R32, R244, in that order. -/
def projSpotChecks (s : State) (c : Nat) (p : Prog) (a : AppendOps) : List (Bool × Compl) :=
  let sp := spotFor s p (views s p.tenant a.stream c) a.layer a.pos
  [(decide (16777215 < a.pos + a.n - 1), refusedWith scPositionLimit),
   (sp.refuse.isSome, refusedWith (sp.refuse.getD 0)),
   (tailHeld s p a.stream (some a.layer), refusedWith scTailHeld)]

/-- Its further conditions, those of a TILE.APPEND (R123, R147, R148, R293), and the room that it needs (R274). -/
def projAppendChecks (s : State) (c : Nat) (p : Prog) (a : AppendOps) : List (Bool × Compl) :=
  let sp := spotFor s p (views s p.tenant a.stream c) a.layer a.pos
  let newRun := sp.refuse.isNone && sp.stage
  [ownerCond s p.tenant a.stream,
   (newRun && overlapHeld s p.tenant a.stream c a.pos 16777215, refusedWith scRunHeld),
   ((match sp.tail with | some t => decide (t.2.fmt ≠ a.f) | none => false), refusedWith scTileFormat),
   (newRun && tailOverlap s p c a.stream a.pos, refusedWith scRangeOverlap),
   (newRun && tableFull s p.tenant a.stream, refusedWith scStreamTableFull),
   (newRun && (halfFor s p.tenant a.stream).isNone, refusedWith scDirFull),
   (newRun && dirQuotaHit s p.tenant, (stQuota, 0)),
   ((match sp.tail with | some t => t.2.poisoned | none => false), (stTilePoisoned, 0))] ++ roomChecks s c p a sp.refuse.isNone

/-- The source rows of dY (R125): gradient tiles of the stream's positions as the program sees them, and dQ records. -/
structure DySrc where
  k : List (Option (List F32))
  v : List (Option (List F32))
  q : List (Option (List F32))
  tiles : List GradKey
  deriving DecidableEq, Repr

/-- The gradient tile of a set that holds a position of a stream, as the program sees it. -/
def gradAt (s : State) (p : Prog) (set stream layer pos : Nat) : Option (GradKey × GradTile) :=
  (s.mem.grads.filter (fun g => g.1.1 == p.tenant && g.1.2.1 == set && g.1.2.2.1 == stream && g.1.2.2.2.1 == layer)).findSome? (fun g =>
    (seenGrad s p.lsn g.1).bind (fun t => if g.1.2.2.2.2 ≤ pos ∧ pos < g.1.2.2.2.2 + t.valid then some (g.1, t) else none))

/-- The vectors of one dQ record, with its header; none where it is no dQ record. -/
def dqVectors (b : List Byte) : Option (RecHead × List (List F32)) :=
  let hz := recHeadOf b
  let h := hz.1
  let d := headDim h.dim
  let code := fld h.flags 4 3
  if !hz.2 ∨ !h.flags.testBit 2 ∨ fld h.flags 1 0 ≠ 0 ∨ fld h.flags 7 5 ≠ 0 ∨ d = 0 ∨ b.length < gradSize code h.heads d then none
  else
    let vec := fun (i : Nat) =>
      if code < 2 then let w := if code = 0 then 4 else 2; bufVals (if code = 0 then 15 else 1) (slice b (32 + i * d * w) (d * w))
      else
        let pips := 32 + 4 * h.heads
        let data := pips + h.heads * (d / 16)
        (⟨BitVec.ofNat 32 (leAt b (32 + 4 * i) 4), 0, (slice b (pips + i * (d / 16)) (d / 16)).map BitVec.toNat,
          unpackElems (gradFmt code) d (slice b (data + i * d) d)⟩ : QDom).values (gradFmt code)
    some (h, (List.range h.heads).map vec)

/-- The dQ records of a buffer, one for each row. -/
def dqRows (fuel : Nat) (b : List Byte) : List (Option (RecHead × List (List F32))) :=
  match fuel with
  | 0 => []
  | n + 1 =>
    let r := dqVectors b
    let h := (recHeadOf b).1
    let sz := gradSize (fld h.flags 4 3) h.heads (headDim h.dim)
    r :: (if r.isNone then List.replicate n none else dqRows n (b.drop ((sz + 63) / 64 * 64)))

/-- The rotation by which gradient mode turns dK back; its fields are free (log 29). -/
def gradRope (d : Nat) : Rope := ⟨Config.gradRopeBase, Config.gradRopeDims d, Config.gradRopeSplit⟩

/-- The gradients dY by matrix and row (R125). A dQ record counts as that of a row by its tenant, layer and QUERY_POS alone (DESIGN CHOICE, log
86). -/
def dySource (s : State) (p : Prog) (o : ProjOps) : DySrc :=
  let at' := fun (m : Nat) => gradAt s p o.gset o.stream o.layer (o.t0 + m)
  let half := fun (m : Nat) (isK : Bool) => (at' m).map (fun kg =>
    let j := o.t0 + m - kg.1.2.2.2.2
    ((List.range kg.2.heads).map (fun h =>
      if isK then
        let v := kg.2.vec true h j
        if kg.2.posEnc = 0 then rot (gradRope (headDim kg.2.dimCode)) (-((o.t0 + m : Nat) : Int)) v else v
      else kg.2.vec false h j)).flatten)
  let rows := List.range o.m
  { k := if o.selK then rows.map (fun m => half m true) else [], v := if o.selV then rows.map (fun m => half m false) else [],
    q := if o.selQ then ((List.zip rows (dqRows o.m (p.bytes o.dqBuf))).map (fun x => x.2.bind (fun hv =>
      if hv.1.tenant = p.tenant ∧ hv.1.layer = o.layer ∧ hv.1.qpos = o.t0 + x.1 then some hv.2.flatten else none))) else [],
    tiles := if o.selK ∨ o.selV then dedup (rows.filterMap (fun m => (at' m).map Prod.fst)) else [] }

/-- dY of matrix `i`. -/
def DySrc.of (x : DySrc) (i : Nat) : List (Option (List F32)) := match i with | 0 => x.k | 1 => x.v | _ => x.q

/-- dY sources do not cover every row (R271). -/
def dyShort (x : DySrc) : Bool := (x.k ++ x.v ++ x.q).any Option.isNone
/-- dY rows and matrix rows differ in length (R274). -/
def dyShape (s : State) (k : SetKey) (o : ProjOps) (x : DySrc) : Bool :=
  o.sel.any (fun i => (x.of i).any (fun r => match r with
    | some v => decide (v.length ≠ ((curMat s k i).map Matrix.rows).getD 0)
    | none => false))

/-- The conditions on PROJ.KV at its issue (R274). -/
def projChecks (s : State) (c : Nat) (p : Prog) (w : Nat) (o : ProjOps) : List (Bool × Compl) :=
  let k := o.key p
  let cols := setCols s k
  let x := p.buf o.xBuf
  let y := p.buf o.yBuf
  let rowsOf := fun (i : Nat) => ((curMat s k i).map Matrix.rows).getD 0
  let yn := if o.append then rowsOf 2 else sumBy rowsOf o.sel
  let useY := !o.grad && (!o.append || o.selQ)
  let set := getSet s k
  let absent := setAbsent s k
  let shape := !absent && (weightShape s p c o)
  let src := if o.grad then dySource s p o else ⟨[], [], [], []⟩
  let app := projAppend s p c o (rowsOf 0)
  let mats := o.sel.filterMap (curMat s k)
  let appends := o.append && !absent
  [(!x.vectors, refusedWith scShapeInvalid),
   (absent, refusedWith scWeightSetAbsent),
   (!absent && (!x.holds (o.m * cols) || (o.grad && dyShort src)), refusedWith scShapeInvalid)] ++
  (if appends then projSpotChecks s c p app else []) ++
  [(shape || (!absent && o.grad && dyShape s k o src), refusedWith scWeightShape),
   ((!o.grad && !fmtOk o.afmt) || (o.grad && (!gfmtOk o.gfmt || dyShort src)) || !x.holds (o.m * cols) || (useY && !resultFmt y) ||
      decide (65536 ≤ (p.buf (fld w 37 35)).name) || (o.grad && (o.selK || o.selV) && decide (65536 ≤ (p.buf (fld w 106 104)).name)),
     refusedWith scShapeInvalid),
   (o.rotate && p.ropeBad o.pbBuf (if o.append then headDim app.f.dimCode else projDim s p c o (rowsOf 2)), refusedWith scParamInvalid),
   (useY && resultShort y (o.m * yn), refusedWith scBufferShort),
   (o.grad && (match set with | some q => !q.train | none => false), refusedWith scNoMaster),
   (o.grad && setIs s k .stepping, refusedWith scWeightSetBusy),
   (o.grad && setIs s k .torn, refusedWith scWeightsTorn),
   (o.grad && (match set with | some q => q.gradHolder.any (fun l => l != p.lsn) | none => false), refusedWith scGradSetBusy)] ++
  (if appends && !shape then projAppendChecks s c p app else []) ++
  [(!o.grad && mats.any (weightZpClash o.afmt), refusedWith scZpPair),
   (!o.grad && mats.any (fun m => belowFloor o.flr m.fmt), (stFloor, 0)),
   (setIs s k .unavailable, (stWeightsPoisoned, 0))]

/-- The members of a projection: one for each row. -/
def projMember (s : State) (p : Prog) (k : Nat) (stream : Option Nat) (n : Nat) : Member :=
  { lsn := p.lsn, step := k, count := n, stream := stream, mask := ⟨0, 0, false, 0, 0, [], 0, 0⟩, at' := s.time, gather := 0, scratch := p.scratch,
    inl := [], keeps := [] }

/-- A projection joins its ply. Its append takes rows, granules and numbers now; a count of one sequence stands for the values that are still to
come (R147, R148, R151, R168; DEDUCED, log 67). -/
def projJoin (s : State) (c : Nat) (p : Prog) (k : Nat) (o : ProjOps) : State :=
  let die := ((getSet s (o.key p)).map WeightSet.die).getD 0
  let app := projAppend s p c o (((curMat s (o.key p) 0).map Matrix.rows).getD 0)
  let s1 := if o.append then
      updCtx (reserveAppend s c k app).2 c (fun p => { p with steps := p.steps.set k { p.step k with seqs := 1 } })
    else s
  joinPly s1 ⟨.projection, p.tenant, o.layer, 0, 0, 0, o.set⟩ die (projMember s p k (if o.append then some o.stream else none) o.m) false

/-- The issue of PROJ.KV in one of its modes. -/
def projIssue (s : State) (c : Nat) (grad : Bool) : State :=
  let waits := match getCtx s c with
    | some p => let o := projOps p (p.word p.next); o.append && (pendingStream s p.tenant o.stream || p.appendOpen)
    | none => true
  if waits then s
  else issueStep s c (fun w => isOp .projKv w && (fbit w 0 == grad)) (fun s p w k =>
    let o := projOps p w
    match firstOf (generalChecks s p w ++ projChecks s c p w o) with
    | some r => finishStep (countRefusal s ((homeHalf s p.tenant o.stream).getD 0) r) c k r
    | none => projJoin s c p k o)

/-- PROJ_KV (R270, R271): a member of a projection ply. -/
def execProjKv (c : Nat) (s : State) : Host.Outcome State Fault Refusal := .next (projIssue s c false)

/-- PROJ_KV_GRADIENT (R125): gradient mode. -/
def execProjKvGradient (c : Nat) (s : State) : Host.Outcome State Fault Refusal := .next (projIssue s c true)

/-! ### MM (R272, R273) -/

/-- The operands of MM. -/
structure MmOps where
  mat : Nat
  trans : Bool
  aBuf : Nat
  set : Nat
  cBuf : Nat
  flr : Nat
  layer : Nat
  afmt : Nat
  m : Nat
  deriving DecidableEq, Repr

def mmOps (p : Prog) (w : Nat) : MmOps :=
  { mat := funcOf w % 4, trans := fbit w 2, aBuf := fld w 34 32, set := p.nameId (fld w 37 35), cBuf := fld w 40 38, flr := fld w 44 43,
    layer := fld w 55 48, afmt := if fld w 59 56 = 0 then 4 else fld w 59 56, m := fld w 75 64 + 1 }

def mmChecks (s : State) (p : Prog) (w : Nat) (o : MmOps) : List (Bool × Compl) :=
  let k : SetKey := (p.tenant, o.set, o.layer)
  let cols := setCols s k
  let rows := ((curMat s k o.mat).map Matrix.rows).getD 0
  let a := p.buf o.aBuf
  let y := p.buf o.cBuf
  [(!a.vectors, refusedWith scShapeInvalid),
   (setAbsent s k, refusedWith scWeightSetAbsent),
   (!setAbsent s k && (curMat s k o.mat).isNone, refusedWith scWeightShape),
   (!a.holds (o.m * (if o.trans then rows else cols)) || !fmtOk o.afmt || !resultFmt y || decide (65536 ≤ (p.buf (fld w 37 35)).name),
     refusedWith scShapeInvalid),
   (resultShort y (o.m * (if o.trans then cols else rows)), refusedWith scBufferShort),
   ((match curMat s k o.mat with | some m => weightZpClash o.afmt m | none => false), refusedWith scZpPair),
   ((match curMat s k o.mat with | some m => belowFloor o.flr m.fmt | none => false), (stFloor, 0)),
   (setIs s k .unavailable, (stWeightsPoisoned, 0))]

def mmIssue (s : State) (c : Nat) : State :=
  issueStep s c (isOp .mm) (fun s p w k =>
    let o := mmOps p w
    match firstOf (generalChecks s p w ++ mmChecks s p w o) with
    | some r => finishStep s c k r
    | none =>
      let die := ((getSet s (p.tenant, o.set, o.layer)).map WeightSet.die).getD 0
      joinPly s ⟨.matrix, p.tenant, o.layer, 0, 0, 0, o.set⟩ die (projMember s p k none o.m) true)

/-- MM (R272, R273): a ply of its own. -/
def execMm (c : Nat) (s : State) : Host.Outcome State Fault Refusal := .next (mmIssue s c)

/-! ### Arithmetic (R122, R125, R273) -/

/-- A row converted by row groups, and saturated conversions (R65, R74). -/
def loadRow (fmt : Nat) (row : List F32) : List QDom × Nat := quantRow fmt row

/-- The outputs of a loaded row over the rows of a matrix (R122). -/
def projRow (afmt : Nat) (x : List QDom) (b : MatBody) (bias : List F32) : List F32 :=
  (List.zip (List.range b.rows.length) b.rows).map (fun r =>
    let y := tree (List.zipWith (fun a q => contract afmt a b.fmt q) x r.2)
    if bias = [] then y else fadd y (bias.getD r.1 f32Zero))

/-- Element code, pip and scale of position `i` of a row of groups. -/
def rowElem (row : List QDom) (i : Nat) : Nat × Nat × QDom :=
  let g := row.getD (i / 4096) QDom.empty
  (g.codes.getD (i % 4096) 0, g.pipAt (i % 4096), g)

/-- One row of a transposed product (R273). -/
def transRow (afmt : Nat) (a : List QDom) (b : MatBody) (cols : Nat) : List F32 :=
  (List.range cols).map (fun i => tree ((List.zip (List.range b.rows.length) b.rows).map (fun ow =>
    let x := rowElem a ow.1
    let y := rowElem ow.2 i
    let e := toF32 (Num.mul (elemNum afmt x.2.2.zp x.1) (elemNum b.fmt y.2.2.zp y.1))
    let pa : Num := if hasPips afmt then pipNum x.2.1 else .fin false 1 0
    let pb : Num := if hasPips b.fmt then pipNum y.2.1 else .fin false 1 0
    fmul (toF32 (Num.mul (F32.num e) (Num.mul pa pb))) (fmul x.2.2.scale y.2.2.scale))))

/-- The product of MM and its saturated conversions. -/
def mmResult (o : MmOps) (cols : Nat) (b : MatBody) (rows : List (List F32)) : List F32 × Nat :=
  let rs := rows.map (fun r =>
    let a := loadRow o.afmt r
    (if o.trans then transRow o.afmt a.1 b cols else projRow o.afmt a.1 b [], a.2))
  ((rs.map Prod.fst).flatten, sumBy Prod.snd rs)

/-- The weight gradient of a matrix: dW rows and dbias (R125), with saturated conversions. -/
def weightGrad (gfmt : Nat) (xs dys : List (List F32)) (rows cols : Nat) : List (List F32) × List F32 × Nat :=
  let vals := fun (l : List QDom) => (l.map (QDom.values gfmt)).flatten
  let xq := xs.map (loadRow gfmt)
  let yq := dys.map (loadRow gfmt)
  let xv := xq.map (fun x => vals x.1)
  let yv := yq.map (fun y => vals y.1)
  ((List.range rows).map (fun o => (List.range cols).map (fun i => tree (List.zipWith (fun y x => fmul (y.getD o f32Zero) (x.getD i f32Zero)) yv xv))),
   (List.range rows).map (fun o => tree (dys.map (fun y => y.getD o f32Zero))), sumBy Prod.snd xq + sumBy Prod.snd yq)

/-- The element of a row group list at a group. -/
def groupAt (rows : List (List QDom)) (r g : Nat) : QDom := (rows.getD r []).getD g QDom.empty
def setGroup (rows : List (List QDom)) (r g : Nat) (q : QDom) : List (List QDom) := rows.set r ((rows.getD r []).set g q)

/-- A row group with the format that it has (R201). -/
def MatBody.group (b : MatBody) (r g : Nat) : Nat × QDom := (Tab.find b.old (r, g)).getD (b.fmt, groupAt b.rows r g)

/-- The formats that the row groups of a part have. -/
def MatBody.fmts (b : MatBody) : List Nat := b.fmt :: b.old.vals.map Prod.fst

/-- The values of a matrix body, row by row. -/
def MatBody.values (b : MatBody) : List (List F32) :=
  (List.range b.rows.length).map (fun r => ((List.range (b.rows.getD r []).length).map (fun g => let q := b.group r g; q.2.values q.1)).flatten)

/-- A part gets another format; its row groups keep their own until they are written (R201). -/
def MatBody.refmt (b : MatBody) (fmt : Nat) : MatBody :=
  if b.fmt = fmt then b
  else
    let at' := ((List.range b.rows.length).map (fun r => (List.range (b.rows.getD r []).length).map (fun g => (r, g)))).flatten
    { b with fmt := fmt, old := at'.foldl (fun t x => if (Tab.find t x).isSome then t else Tab.put t x (b.fmt, groupAt b.rows x.1 x.2)) b.old }

/-- A row group is written in its part's format, its row's sums with it (R73). -/
def MatBody.setGroup (b : MatBody) (fmt r g : Nat) (q : QDom) : MatBody :=
  let b1 := b.refmt fmt
  let rows := Machine.setGroup b1.rows r g q
  { b1 with rows := rows, sums := b1.sums.set r (spanSums fmt (rows.getD r [])), old := Tab.del b1.old (r, g) }

/-- Rows quantized into a body with fresh scales by row groups (R80), and saturated conversions. -/
def bodyOf (fmt : Nat) (rows : List (List F32)) : MatBody × Nat :=
  let qs := rows.map (quantRow fmt)
  (⟨fmt, qs.map Prod.fst, qs.map (fun q => spanSums fmt q.1), []⟩, sumBy Prod.snd qs)

/-- The granules of a part of a matrix: 0 working copy, 1 master copy, 2 and 3 the moments, 4 the gradient area. -/
def partGrans (m : Matrix) (cols part : Nat) : List Gran :=
  if part = 0 then m.place
  else
    let l := m.auxPlace.drop (auxFirst m.rows cols part)
    if part = 4 then l else l.take (auxFirst m.rows cols (part + 1) - auxFirst m.rows cols part)

/-- Numbers that a write of a matrix's gradient area takes: one for each row group (R405). -/
def areaSeqs (w : WeightSet) (m : Matrix) : Nat := m.rows * (rowGroups w.dModel).length

/-- Something in the training parts of a matrix still fails (R214). -/
def auxBad (s : State) (m : Matrix) : Bool :=
  ((m.auxPlace.map granBlocks).flatten.filter (fun n => (ErrTab.read s.mem.err n) != ⟨0, 0⟩)).any (fun n => match classify (ErrTab.read s.mem.err n) with
    | .corrected _ => false
    | _ => true)

end Sys2Proof.Machine
end

