-- ==== Sys2Proof/Machine/NearBank.lean ====
section
/-! DEFINITION. NB.EW, NB.ROPE, NB.QUANT and NB.ADAM at their issue, the gradients that a ply's instructions have written, and every domain that the
near-bank units write: what it is made of, where it lies, how it is written (05 R118, R125, R127 to R130, 08 R182 to R201, 11 R275 to R282). -/

namespace Sys2Proof.Machine
open Sys2Proof

/-! ### Tensors (R275 to R277) -/

/-- The tiles that a GRAD_SET reference covers, in tile order, with the gradient tiles as the program sees them. -/
def gradTiles (s : State) (p : Prog) (r : TRef) : List (GradKey × Tile × Option GradTile) :=
  if r.high < r.low then []
  else
    let own := (streamRuns s p.tenant r.stream r.low r.high).filter (fun x => !x.2.borrowed)
    let ts := ((own.map (fun x => layerTiles x.2 r.layer)).flatten).filterMap (getTile s)
    let mine := sortBy (fun a b => decide (a.base ≤ b.base)) (ts.filter (fun t => t.meets r.low r.high))
    mine.map (fun t => let k : GradKey := (p.tenant, r.id, r.stream, r.layer, t.base); (k, t, seenGrad s p.lsn k))

/-- VALID of a gradient tile, its source tile's where it does not exist. -/
def gradValid (x : GradKey × Tile × Option GradTile) : Nat := match x.2.2 with | some g => g.valid | none => x.2.1.valid
def gradIsK (r : TRef) : Bool := r.part == 0
def gradHalfFmt (r : TRef) (g : GradTile) : Nat := if gradIsK r then g.kFmt else g.vFmt

def TRef.key (p : Prog) (r : TRef) : SetKey := (p.tenant, r.id, r.layer)
/-- The matrix and the kind of part of a WEIGHTS reference: 0 working copy, 1 master copy, 2 gradient area. -/
def TRef.mat (r : TRef) : Nat := r.part % 3
def TRef.area (r : TRef) : Nat := r.part / 3

def refMatrix (s : State) (p : Prog) (r : TRef) : Option Matrix := curMat s (r.key p) r.mat

/-- The gradient area of a matrix as the program sees it. -/
def seenArea (s : State) (lsn : Nat) (k : SetKey) (m : Matrix) : Option MatBody :=
  if ((getSet s k).bind WeightSet.gradHolder) = some lsn then m.gradPending.or m.grad else m.grad

/-- The lengths of a tensor's domains; a plain array is taken in pieces of 4,096. -/
def refLens (s : State) (p : Prog) (r : TRef) : List Nat :=
  match r.kind with
  | 1 => if plainArray r.fmt then rowGroups r.count else List.replicate (r.count / (if r.domain = 0 then 1 else r.domain)) r.domain
  | 2 => ((gradTiles s p r).map (fun x => List.replicate x.2.1.heads (gradValid x * headDim x.2.1.dimCode))).flatten
  | 3 => match refMatrix s p r with
    | some m => (List.replicate m.rows (rowGroups (setCols s (r.key p)))).flatten
    | none => []
  | _ => []

/-- The layout of R65, none for a plain array. -/
def refLayout (s : State) (p : Prog) (r : TRef) : Option (List Nat) := if r.kind = 1 ∧ plainArray r.fmt then none else some (refLens s p r)

/-- Elements of a tensor. -/
def refCount (s : State) (p : Prog) (r : TRef) : Nat := sumBy id (refLens s p r)

/-- Bytes that a BUFFER takes (R276). -/
def refBytes (r : TRef) : Nat :=
  if plainArray r.fmt then r.count * fmtBits r.fmt / 8
  else (r.count / (if r.domain = 0 then 1 else r.domain)) * (domainBytes r.fmt ⟨f32One, 0, List.replicate (r.domain / 16) 0, List.replicate r.domain 0⟩).length

/-- Every element of a tensor, dequantized by R64; a pip byte of a BUFFER with bit 7 set, of which R58 says nothing, is taken as a negative pip (DESIGN
CHOICE, log 84). -/
def refVals (s : State) (p : Prog) (r : TRef) : List F32 :=
  match r.kind with
  | 1 =>
    let bs := p.bytes r.buf
    if plainArray r.fmt then (⟨f32One, 0, [], unpackElems r.fmt r.count bs⟩ : QDom).values r.fmt
    else ((refLens s p r).foldl (fun (acc : List F32 × List Byte) n =>
      let d := domainOf r.fmt n acc.2; (acc.1 ++ d.1.values r.fmt, acc.2.drop d.2)) ([], bs)).1
  | 2 => ((gradTiles s p r).map (fun x => ((List.range x.2.1.heads).map (fun h => ((List.range (gradValid x)).map (fun j =>
      match x.2.2 with
      | some g => g.vec (gradIsK r) h j
      | none => zeroVec (headDim x.2.1.dimCode))).flatten)).flatten)).flatten
  | 3 => match refMatrix s p r with
    | none => []
    | some m =>
      let zero := zeroVec (m.rows * setCols s (r.key p))
      match r.area with
      | 0 => ((m.cur.map MatBody.values).getD []).flatten
      | 1 => match m.master with | some w => w.flatten | none => zero
      | _ => match seenArea s p.lsn (r.key p) m with | some b => b.values.flatten | none => zero
  | _ => []

/-- The stored format of a source that is subject to the floor (R79, R278): of a gradient set the half that the reference names (DESIGN CHOICE,
log 69). -/
def refBelow (s : State) (p : Prog) (flr : Nat) (r : TRef) : Bool :=
  match r.kind with
  | 2 => (gradTiles s p r).any (fun x => match x.2.2 with | some g => (g.fmts (gradIsK r)).any (belowFloor flr) | none => false)
  | 3 => match refMatrix s p r with
    | some m => (match r.area with
      | 0 => belowFloor flr m.fmt
      | 1 => belowFloor flr 15
      | _ => match seenArea s p.lsn (r.key p) m with | some b => b.fmts.any (belowFloor flr) | none => false)
    | none => false
  | _ => false

/-- The objects a source lies in. -/
def refObjects (s : State) (p : Prog) (r : TRef) : List ObjRef :=
  match r.kind with
  | 2 => ((gradTiles s p r).filter (fun x => (getGrad s x.1).isSome)).map (fun x => .grad x.1)
  | 3 => [.weight (r.key p) r.mat (if r.area = 0 then 0 else 1)]
  | _ => []

/-- The granules of an object. -/
def objGrans (s : State) (o : ObjRef) : List Gran :=
  match o with
  | .grad k => ((getGrad s k).map GradCell.body).getD []
  | .weight k mat part => match (getSet s k).bind (fun w => Tab.find w.mats mat) with
    | some m => if part = 0 then m.place else m.auxPlace
    | none => []
  | _ => []

/-! ### The near-bank operations (R184, R185, R187) -/

/-- A near-bank instruction: its operation, references, floor and what else its words give. -/
structure NbOps where
  op : Op
  f : Nat
  refBuf : Nat
  flr : Nat
  a : TRef
  b : TRef
  d : TRef
  scalar : F32
  pbBuf : Nat
  t0 : Nat
  dimCode : Nat
  nh : Nat
  sBuf : Nat
  deriving DecidableEq, Repr

def nbOps (p : Prog) (w : Nat) : NbOps :=
  let t := p.trefs (fld w 34 32)
  { op := (opOf w).getD .nbEw, f := funcOf w, refBuf := fld w 34 32, flr := fld w 36 35, a := t.1, b := t.2.1, d := t.2.2,
    scalar := BitVec.ofNat 32 (fld w 95 64), pbBuf := fld w 39 37, t0 := fld w 71 48, dimCode := fld w 82 80, nh := fld w 93 84,
    sBuf := fld w 39 37 }

/-- NB.EW on two tensors. -/
def NbOps.two (o : NbOps) : Bool := decide (o.op = .nbEw ∧ o.f ≤ 5)

/-- silu and gelu of R185; the constants are the FP32 values nearest to the decimals. -/
def silu (x : F32) : F32 := fdiv x (fadd f32One (fexp (F32.neg x)))
def gelu (x : F32) : F32 :=
  let u := fmul (fmul x x) x
  let z := fadd x (fmul 0x3D372713 u)
  fdiv x (fadd f32One (fexp (fmul 0xBFCC4229 z)))

/-- MAX and MIN of R184: NaN where either operand is one. -/
def nbMax (a b : F32) : F32 := if F32.isNan a || F32.isNan b then f32Nan else fmax a b
def nbMin (a b : F32) : F32 := if F32.isNan a || F32.isNan b then f32Nan else fmin a b

/-- The result of NB.EW on one element. -/
def ewElem (f : Nat) (c a b : F32) : F32 :=
  match f with
  | 1 => fadd a b | 2 => fsub a b | 3 => fmul a b | 4 => nbMax a b | 5 => nbMin a b
  | 6 => fadd a c | 7 => fmul a c | 8 => nbMax a f32Zero | 9 => fexp a | 10 => silu a | _ => gelu a

/-- Element operations for one element (R184). -/
def nbCost (o : NbOps) : Nat :=
  match o.op with
  | .nbEw => if o.f = 10 then 3 else if o.f = 11 then 8 else 1
  | .nbRope => 4
  | .nbAdam => 16
  | _ => 0

/-- Vectors of a ROPE source with their positions and rotation (R280). -/
def ropeVals (s : State) (p : Prog) (o : NbOps) (xs : List F32) : List F32 :=
  let sign := fun (n : Nat) => if o.f = 0 then (n : Int) else -(n : Int)
  if o.a.kind = 1 then
    let d := headDim o.dimCode
    let rope := (p.pblock o.pbBuf).rope d
    let vs := chunks d xs
    (List.zipWith (fun i v => rot rope (sign (o.t0 + i / (if o.nh = 0 then 1 else o.nh))) v) (List.range vs.length) vs).flatten
  else
    let pos := ((gradTiles s p o.a).map (fun x => ((List.range x.2.1.heads).map (fun _ => (List.range (gradValid x)).map (fun j =>
      (x.2.1.base + j, headDim x.2.1.dimCode)))).flatten)).flatten
    (pos.foldl (fun (acc : List F32 × List F32) v =>
      (acc.1 ++ rot ((p.pblock o.pbBuf).rope v.2) (sign v.1) (acc.2.take v.2), acc.2.drop v.2)) ([], xs)).1

/-- The values that a near-bank instruction writes, element by element. -/
def nbValues (s : State) (p : Prog) (o : NbOps) : List F32 :=
  let a := refVals s p o.a
  match o.op with
  | .nbRope => ropeVals s p o a
  | .nbQuant => a
  | _ => if o.two then List.zipWith (ewElem o.f o.scalar) a (refVals s p o.b) else a.map (fun x => ewElem o.f o.scalar x f32Zero)

/-- The supplied scale and zero point of domain `i` (R281). -/
def nbSupply (p : Prog) (o : NbOps) (n i fmt : Nat) : Option (F32 × Int) :=
  if o.op = .nbQuant ∧ o.f = 1 then
    let bs := p.bytes o.sBuf
    some (BitVec.ofNat 32 (leAt bs (4 * i) 4), if isInt fmt then signedOf 8 (leAt bs (4 * n + i) 1) else 0)
  else none

/-- One domain of a result in its format. -/
def nbQuantize (fmt : Nat) (sup : Option (F32 × Int)) (xs : List F32) : QDom × Nat :=
  if plainArray fmt && fmt != 2 then quantWith false fmt f32One 0 xs
  else match sup with
    | some x => quantWith false fmt x.1 x.2 xs
    | none => quantFresh false fmt xs

/-! ### Conditions (R278) -/

/-- A reference has a kind, format and part that R275 allows, as a source or as a destination. -/
def refForm (p : Prog) (r : TRef) (dst : Bool) : Bool :=
  r.reserved &&
    (match r.kind with
     | 1 =>
       let d := p.buf r.buf
       let fmt := fmtOk r.fmt || r.fmt == 15
       fmt && decide (r.count % 16 = 0) && (if dst then d.kind == 2 else d.source) &&
         (plainArray r.fmt || decide (r.domain % 16 = 0 ∧ 16 ≤ r.domain ∧ r.domain ≤ 4096 ∧ r.count % r.domain = 0))
     | 2 => decide (r.part ≤ 1) && (if dst then [0, 15, 1, 4, 3].contains r.fmt else r.fmt == 0)
     | 3 => decide (r.part ≤ 8) && (if dst then [0, 15, 1, 4, 3].contains r.fmt else r.fmt == 0)
     | _ => false)

/-- The references of an instruction are those that R277 lets it have. -/
def refsAllowed (p : Prog) (o : NbOps) : Bool :=
  let vec := fun (r : TRef) => (r.kind == 1 && (r.fmt == 15 || r.fmt == 1)) || (r.kind == 2 && r.part == 0)
  let none := decide (o.b.kind = 0) && o.b.reserved
  -- fresh pips or plain: INT8 only where NB.QUANT writes it (R187, R281)
  let dfmt := decide (o.d.kind ≠ 1 ∨ o.d.fmt ≠ 8 ∨ o.op = .nbQuant)
  refForm p o.a false && refForm p o.d true && dfmt &&
    (match o.op with
     | .nbRope => none && vec o.a && vec o.d
     | .nbQuant => none && (o.a.kind != 3 || decide (1 ≤ o.a.area)) && (o.d.kind != 3 || o.d.area == 2 || (o.d.area == 0 && o.d.fmt == 0))
     | _ => (if o.two then refForm p o.b false else none) && (o.d.kind != 3 || o.d.area == 2))

/-- Counts and layouts fit (R187), and what NB.ROPE asks of a BUFFER (R280); a tensor of a set that is absent has neither. -/
def shapesFit (s : State) (p : Prog) (o : NbOps) : Bool :=
  let there := fun (r : TRef) => decide (r.kind ≠ 3) || (refMatrix s p r).isSome
  let same := fun (x y : TRef) => !there x || !there y || decide (refCount s p x = refCount s p y)
  same o.a o.d && (!o.two || (same o.a o.b && same o.b o.d && (!there o.a || !there o.b || (match refLayout s p o.a, refLayout s p o.b with
      | some x, some y => decide (x = y)
      | _, _ => true)))) &&
    (decide (o.op ≠ .nbRope ∨ o.a.kind ≠ 1) || decide (1 ≤ o.nh ∧ o.nh ≤ 512 ∧ headDim o.dimCode ≠ 0 ∧ o.a.count % (o.nh * headDim o.dimCode) = 0))

/-- The named references of an instruction. -/
def NbOps.refs (o : NbOps) : List TRef := [o.a] ++ (if o.two then [o.b] else []) ++ [o.d]
def NbOps.sources (o : NbOps) : List TRef := [o.a] ++ (if o.two then [o.b] else [])

/-- A replaced working copy still has readers: an issued ply that read another version (R121, R129). -/
def copyRead (s : State) (k : SetKey) (mat : Nat) : Bool :=
  match curMat s k mat with
  | none => false
  | some m => (issuedPlies s).any (fun x => x.2.readsSet k &&
      (match x.2.weights.bind (fun w => Tab.find w.mats mat) with | some y => decide (Tab.get y.recs [] 0 ≠ Tab.get m.recs [] 0) | none => false))

/-- The format a destination is written in. -/
def nbDestFmt (s : State) (p : Prog) (r : TRef) (g : Option GradTile) : Nat :=
  if r.fmt ≠ 0 then r.fmt
  else match r.kind with
    | 2 => match g with | some g => gradHalfFmt r g | none => 15
    | 3 => match refMatrix s p r with
      | some m => if r.area = 0 then m.fmt else ((seenArea s p.lsn (r.key p) m).map MatBody.fmt).getD 15
      | none => 15
    | _ => 15

/-- The gradient tiles of a destination, each with its size in the format it is to have and what it begins as (R118). -/
def nbOpens (s : State) (p : Prog) (r : TRef) : List (GradKey × Nat × GradTile × Bool) :=
  if r.kind ≠ 2 then []
  else (gradTiles s p r).map (fun x => (x.1, gradOpen x.2.2 x.2.1 (gradIsK r) (!gradIsK r) (nbDestFmt s p r x.2.2)))

/-- What refuses a destination in a gradient set (R118, R278). -/
def nbRoomChecks (s : State) (p : Prog) (r : TRef) : List (Bool × Compl) :=
  if r.kind ≠ 2 then []
  else gradListChecks s p.lsn p.tenant r.id ((gradTiles s p r).map (fun x =>
    let fmt := nbDestFmt s p r x.2.2
    let g := x.2.2.getD (GradTile.of x.2.1 fmt)
    (x.1, if x.2.2.isNone then g else if gradIsK r then { g with kFmt := fmt } else { g with vFmt := fmt })))

/-- The format in which domain `i` of a destination is written: a gradient tile has its own where the reference names none (R275). -/
def nbFmtAt (s : State) (p : Prog) (r : TRef) (i : Nat) : Nat :=
  if r.kind = 2 then nbDestFmt s p r (((gradTiles s p r).map (fun x => List.replicate x.2.1.heads x.2.2)).flatten.getD i none)
  else nbDestFmt s p r none

/-- The supplied scales of NB.QUANT obey R68. -/
def supplyBad (s : State) (p : Prog) (o : NbOps) : Bool :=
  decide (o.op = .nbQuant ∧ o.f = 1) && (o.d.kind != 1 || !plainArray o.d.fmt) &&
    (let n := (refLens s p o.d).length
     (List.range n).any (fun i =>
       let fmt := nbFmtAt s p o.d i
       match nbSupply p o n i fmt with
       | some x => !scaleOk fmt x.1 || (isInt fmt && !zpOk fmt x.2)
       | none => false))

def supplyShort (s : State) (p : Prog) (o : NbOps) : Bool :=
  decide (o.op = .nbQuant ∧ o.f = 1) && (o.d.kind != 1 || !plainArray o.d.fmt) &&
    (let n := (refLens s p o.d).length
     decide ((p.bytes o.sBuf).length < 4 * n + (if isInt (nbDestFmt s p o.d none) then n else 0)))

/-- Domains of the destination as the near-bank units write them. -/
def nbDomains (s : State) (p : Prog) (o : NbOps) : Nat := (refLens s p o.d).length

/-- The working copy of a matrix that a program has prepared: its granules and the record of its first row group. -/
def Prog.copyOf (p : Prog) (k : SetKey) (mat : Nat) : Option (MatBody × List Gran × CRec) :=
  p.changes.findSome? (fun ch => match ch with
    | .adam k' i b g f | .copyOf k' i b g f => if k' = k ∧ i = mat then some (b, g, f) else none
    | _ => none)

/-- The matrices of which a program still has to prepare a working copy. -/
def newCopies (p : Prog) (l : List (SetKey × Nat)) : List (SetKey × Nat) := l.filter (fun x => (p.copyOf x.1 x.2).isNone)

/-- Granules of a matrix's working copy. -/
def copyGranules (s : State) (x : SetKey × Nat) : Nat :=
  match curMat s x.1 x.2 with | some m => matGranules m.fmt m.rows (setCols s x.1) (decide (m.bias ≠ [])) | none => 0

/-- A new working copy stands in the weight reserve beside the one that plies still read (R129, R167, R171). -/
def copyRoomChecks (s : State) (p : Prog) (l : List (SetKey × Nat)) : List (Bool × Compl) :=
  let new := newCopies p l
  let room := fun (s : State) (die : Nat) =>
    let mine := new.filter (fun x => decide (setDie s x.1 = die))
    let n := sumBy (copyGranules s) mine
    (decide (freeReserve (makeReserve s p.tenant die n (namedSet s)) die < n), makeReserve s p.tenant die n (namedSet s))
  let r0 := room s 0
  let r1 := room r0.2 1
  [(r0.1 || r1.1, refusedWith scReserveFull), (decide (new ≠ []) && !quotaFits r1.2 p.tenant (512 * sumBy (copyGranules s) new), (stQuota, 0))]

/-- The conditions on NB.EW, NB.ROPE and NB.QUANT (R278, R280, R281). -/
def nbChecks (s : State) (p : Prog) (o : NbOps) : List (Bool × Compl) :=
  let short := decide ((p.bytes o.refBuf).length < 96)
  let ok := !short && refsAllowed p o
  let ws := o.refs.filter (fun r => r.kind == 3)
  let absent := ok && ws.any (fun r => setAbsent s (r.key p))
  let noMat := ok && ws.any (fun r => !setAbsent s (r.key p) && (refMatrix s p r).isNone)
  let shaped := ok && !noMat && shapesFit s p o
  let fit := shaped && !absent
  let wcopy := o.d.kind == 3 && o.d.area == 0
  let bufShort := fun (r : TRef) => r.kind == 1 && decide ((p.buf r.buf).length < refBytes r)
  let ds := if o.a.kind = 1 then [headDim o.dimCode] else (gradTiles s p o.a).map (fun x => headDim x.2.1.dimCode)
  let rope := decide (o.op = .nbRope)
  let last := o.t0 + (o.a.count / (o.nh * headDim o.dimCode) - 1)
  [(!short && !shaped, refusedWith scShapeInvalid),
   (short || (ok && o.refs.any bufShort) || (fit && supplyShort s p o), refusedWith scBufferShort),
   (absent, refusedWith scWeightSetAbsent),
   (ok && ws.any (fun r => decide (1 ≤ r.area) && (match getSet s (r.key p) with | some w => !w.train | none => false)), refusedWith scNoMaster),
   (ok && wcopy && (setIs s (o.d.key p) .stepping || copyRead s (o.d.key p) o.d.mat), refusedWith scWeightSetBusy),
   (ok && wcopy && setIs s (o.d.key p) .torn, refusedWith scWeightsTorn),
   (ok && ((o.d.kind == 2 && gradBusy s p.tenant o.d.id p.lsn) || (o.d.kind == 3 && o.d.area == 2 &&
      (match getSet s (o.d.key p) with | some w => w.gradHolder.any (fun l => l != p.lsn) | none => false))), refusedWith scGradSetBusy),
   (rope && ok && (p.ropeBad o.pbBuf (ds.foldl Nat.min (ds.headD 256))), refusedWith scParamInvalid),
   (rope && fit && o.a.kind == 1 && decide (0 < o.a.count ∧ 16777215 < last), refusedWith scPositionLimit),
   (fit && !supplyShort s p o && supplyBad s p o, refusedWith scScaleInvalid),
   (fit && o.d.kind == 3 && nonceSpent s p.tenant (nbDomains s p o), refusedWith scNonceSpent),
   (fit && o.sources.any (refBelow s p o.flr), (stFloor, 0)),
   (ok && ws.any (fun r => setIs s (r.key p) .unavailable), (stWeightsPoisoned, 0))] ++
  (if fit && wcopy then copyRoomChecks s p [(o.d.key p, o.d.mat)] else []) ++ (if fit then nbRoomChecks s p o.d else [])

/-! ### Where a domain lies (R65, R117, R160, R182) -/

/-- The gradient tile and head of domain `i` of a gradient reference. -/
def gradDomain (ts : List (GradKey × Tile × Option GradTile)) (i : Nat) : Option (GradKey × Nat) :=
  (ts.map (fun x => (List.range x.2.1.heads).map (fun h => (x.1, h)))).flatten[i]?

/-- The byte ranges of a gradient tile's body that one head of a half takes: its data, then with an FP8 code its pips and its scale (R117). -/
def GradTile.headParts (g : GradTile) (isK : Bool) (h : Nat) : List (Nat × Nat) :=
  let d := headDim g.dimCode
  let fmt := if isK then g.kFmt else g.vFmt
  let kd := 512 * granulesOf (dataBytes g.kFmt g.heads d)
  let vd := 512 * granulesOf (dataBytes g.vFmt g.heads d)
  let pk := pipBytes g.kFmt g.heads d
  let so := kd + vd + 512 * granulesOf (pk + pipBytes g.vFmt g.heads d)
  let w := 2 * d * fmtBits fmt
  ((if isK then 0 else kd) + h * w, w) ::
    (if hasPips fmt then [(kd + vd + (if isK then 0 else pk) + h * d, d), (so + (if isK ∨ !hasPips g.kFmt then 0 else 4 * g.heads) + 4 * h, 4)] else [])

/-- The units that hold the first `n` elements of a format from byte `off` of a body on, element by element. -/
def partLanes (body : List Gran) (off fmt n : Nat) : List (Option (Nat × Nat)) :=
  (List.range n).map (fun e => body[(off + e * fmtBits fmt / 8) / 512]?.map unitOf)

/-- Row and row group of domain `i` of a matrix. -/
def groupIdx (cols i : Nat) : Nat × Nat := let per := Nat.max 1 (rowGroups cols).length; (i / per, i % per)

/-- The part of a matrix that a WEIGHTS reference names. -/
def TRef.partNo (r : TRef) : Nat := match r.area with | 0 => 0 | 1 => 1 | _ => 4

/-- The stored format of a part of a matrix. -/
def partFmt (m : Matrix) (area : Option MatBody) (part : Nat) : Nat :=
  match part with | 0 => m.fmt | 1 => 15 | 2 => 4 | 3 => 3 | _ => (area.map MatBody.fmt).getD 15

/-- What a domain reads in one object: the header block that its tag needs, its own blocks; whether the object is poisoned, its other blocks
authenticate, its content is sound (R58, R201, R407); `merge` marks blocks that are only written in part (R200). -/
structure DomIn where
  obj : ObjRef
  hdr : List Nat
  blocks : List Nat
  poisoned : Bool
  authOk : Bool
  sound : Bool
  merge : Bool
  deriving DecidableEq, Repr

/-- The work that a domain is: what it reads, the blocks that it writes, each whole or the bits of it, and the unit of each of its elements. -/
structure DomWork where
  ins : List DomIn
  outs : List (Nat × Bool × BitVec 512)
  lanes : List (Option (Nat × Nat))
  deriving DecidableEq, Repr

/-- The units whose channels hold a part of a domain (R182). -/
def DomWork.units (w : DomWork) : List (Nat × Nat) :=
  dedup (w.lanes.filterMap id ++ (w.ins.map (fun x => x.blocks.map blockUnit)).flatten ++ w.outs.map (fun b => blockUnit b.1))

/-- A block holds other bytes than were written under a check word that fits them: authentication alone shows it (R211). -/
def silentDiff (s : State) (free : Nat → BitVec 512) (n : Nat) : Bool :=
  let b := ErrTab.read s.mem.err n
  match classify b with | .clean => decide (b.data &&& ~~~(free n) ≠ 0) | _ => false

/-- One head of a half of a gradient tile as an input: its tag covers the tile whole (R117, R404). -/
def gradIn (s : State) (k : GradKey) (isK : Bool) (h : Nat) : List DomIn :=
  match getGrad s k with
  | none => []
  | some c => match c.pending.or c.committed with
    | none => []
    | some g => [{ obj := .grad k, hdr := [c.hdr], blocks := (rangeBlocks c.body (g.headParts isK h)).map Prod.fst, poisoned := c.poisoned,
                   authOk := !(gradBlocks c).any (silentDiff s (gradFree c)), sound := pipsSound (g.dom isK h).2.pips && (keyOf s k.1 g.epoch).isSome,
                   merge := false }]

/-- A gradient tile with one half in a format. -/
def GradTile.inFmt (g : GradTile) (isK : Bool) (fmt : Nat) : GradTile := if isK then { g with kFmt := fmt } else { g with vFmt := fmt }

/-- Body and byte ranges of one head of a half of a gradient tile, in its format or in another. -/
def gradPlace (s : State) (k : GradKey) (isK : Bool) (h : Nat) (fmt : Option Nat) : List Gran × List (Nat × Nat) :=
  match getGrad s k with
  | none => ([], [])
  | some c => match c.pending.or c.committed with
    | none => ([], [])
    | some g => (c.body, (g.inFmt isK (fmt.getD (if isK then g.kFmt else g.vFmt))).headParts isK h)

/-- A row group of a part of a matrix as an input; it stands by itself (R405, R407). -/
def groupIn (s : State) (p : Prog) (k : SetKey) (mat part r g : Nat) : List DomIn :=
  match curMat s k mat with
  | none => []
  | some m =>
    let cols := setCols s k
    let area := seenArea s p.lsn k m
    let pips := match part with
      | 0 => (m.cur.map (fun b => (b.group r g).2.pips)).getD []
      | 1 => []
      | 2 => (groupAt m.m r g).pips
      | 3 => (groupAt m.v r g).pips
      | _ => (area.map (fun b => (b.group r g).2.pips)).getD []
    let i := r * (rowGroups cols).length + g
    let rec' := (Tab.get m.recs [] part)[i]?
    let x := groupRange (partFmt m area part) cols r g 1
    [{ obj := .weight k mat (if part = 0 then 0 else 1), hdr := [], blocks := (touchBlocks (partGrans m cols part) x.1 x.2).map Prod.fst,
       poisoned := false, authOk := true, sound := pipsSound pips && (rec'.map (fun c => (keyOf s k.1 c.epoch).isSome)).getD true, merge := false }]

/-- The domains of lengths `lens` that hold some of `n` elements from `off` on. -/
def domsAt (lens : List Nat) (off n : Nat) : List Nat :=
  ((lens.foldl (fun (acc : List Nat × Nat × Nat) l =>
    (if acc.2.2 < off + n ∧ off < acc.2.2 + l then acc.1 ++ [acc.2.1] else acc.1, acc.2.1 + 1, acc.2.2 + l)) (([], 0, 0) : List Nat × Nat × Nat))).1

/-- Domain `i` of a reference as an input. -/
def refIn (s : State) (p : Prog) (r : TRef) (i : Nat) : List DomIn :=
  match r.kind with
  | 2 => match gradDomain (gradTiles s p r) i with | some (k, h) => gradIn s k (gradIsK r) h | none => []
  | 3 => let x := groupIdx (setCols s (r.key p)) i; groupIn s p (r.key p) r.mat r.partNo x.1 x.2
  | _ => []

/-- Body and byte ranges of domain `i` of a reference, as it is read or, with a format, as it is written; nothing for a BUFFER. -/
def refPlace (s : State) (p : Prog) (r : TRef) (i : Nat) (fmt : Option Nat) : List Gran × List (Nat × Nat) :=
  match r.kind with
  | 2 => match gradDomain (gradTiles s p r) i with | some (k, h) => gradPlace s k (gradIsK r) h fmt | none => ([], [])
  | 3 =>
    let k := r.key p
    let cols := setCols s k
    let x := groupIdx cols i
    match curMat s k r.mat with
    | none => ([], [])
    | some m =>
      let f := fmt.getD (partFmt m (seenArea s p.lsn k m) r.partNo)
      let body := match fmt, r.area with
        | some _, 0 => ((p.copyOf k r.mat).map (fun c => c.2.1)).getD []
        | _, _ => partGrans m cols r.partNo
      (body, [groupRange f cols x.1 x.2 1])
  | _ => ([], [])

/-- The units of `n` elements of a reference from element `off` on, as it is read. -/
def refLanes (s : State) (p : Prog) (r : TRef) (off n : Nat) : List (Option (Nat × Nat)) :=
  let lens := refLens s p r
  let ds := domsAt lens off n
  let all := (ds.map (fun i =>
    let x := refPlace s p r i none
    let fmt := match r.kind with
      | 2 => (match gradDomain (gradTiles s p r) i with
        | some (k, h) => ((seenGrad s p.lsn k).map (fun g => (g.dom (gradIsK r) h).1)).getD 15
        | none => 15)
      | _ => nbDestFmt s p { r with fmt := 0 } none
    if x.1 = [] then List.replicate (lens.getD i 0) none else partLanes x.1 ((x.2.head?.map Prod.fst).getD 0) fmt (lens.getD i 0))).flatten
  (all.drop (off - sumBy id (lens.take (ds.headD 0)))).take n

/-- The blocks that are written only in part are read and merged (R200). -/
def partIn (o : ObjRef) (outs : List (Nat × Bool × BitVec 512)) : List DomIn :=
  match (outs.filter (fun b => !b.2.1)).map Prod.fst with
  | [] => []
  | bs => [{ obj := o, hdr := [], blocks := bs, poisoned := false, authOk := true, sound := true, merge := true }]

/-! ### NB.EW, NB.ROPE, NB.QUANT at their issue -/

/-- A working copy that a program prepares: its version begins as the current one, in granules and under numbers of its own (R129, R171, R405,
R410). -/
def beginCopy (s : State) (c : Nat) (k : SetKey) (mat numbers : Nat) (mk : MatBody → List Gran → CRec → Change) : State :=
  match getCtx s c, (curMat s k mat).bind (fun m => m.cur) with
  | some p, some b =>
    let q := takeRecs s p.tenant numbers
    match p.copyOf k mat with
    | some old =>
      updCtx q.2 c (fun p => { p with changes := p.changes.filter (fun ch => match ch with
        | .adam k' i _ _ _ | .copyOf k' i _ _ _ => !(decide (k' = k ∧ i = mat))
        | _ => true) ++ [mk old.1 old.2.1 q.1] })
    | none =>
      let n := copyGranules q.2 (k, mat)
      let g := takeGrans (makeReserve q.2 p.tenant (setDie q.2 k) n (namedSet q.2)) (setDie q.2 k) n
      updCtx g.2 c (fun p => { p with changes := p.changes ++ [mk b g.1 q.1] })
  | _, _ => s

/-- A gradient area that a program writes is held, and its row groups have their numbers (R118, R125, R405). -/
def beginArea (s : State) (c : Nat) (k : SetKey) (mat : Nat) : State :=
  match getCtx s c, getSet s k, curMat s k mat with
  | some p, some w, some m =>
    let q := takeRecs s p.tenant (areaSeqs w m)
    updCtx (putSet q.2 k { w with gradHolder := some p.lsn }) c (fun p => { p with changes := p.changes.filter (fun ch => match ch with
      | .area k' i _ => !(decide (k' = k ∧ i = mat))
      | _ => true) ++ [.area k mat q.1] })
  | _, _, _ => s

/-- The record that row group `i` of a gradient area gets. -/
def Prog.areaRec (p : Prog) (k : SetKey) (mat i : Nat) : Option CRec :=
  p.changes.findSome? (fun ch => match ch with | .area k' j f => if k' = k ∧ j = mat then some (f.plus i) else none | _ => none)

/-- The destination of a near-bank instruction is made ready. -/
def nbOpen (s : State) (c : Nat) (p : Prog) (r : TRef) : State :=
  match r.kind with
  | 2 => openGrads s p.lsn (nbOpens s p r)
  | 3 =>
    let k := r.key p
    if r.area = 0 then beginCopy s c k r.mat ((((curMat s k r.mat).map Matrix.rows).getD 0) * (rowGroups (setCols s k)).length) (.copyOf k r.mat)
    else beginArea s c k r.mat
  | _ => s

/-- Domain `i` of NB.EW, NB.ROPE or NB.QUANT (R187, R200, R201). -/
def nbWork (s : State) (p : Prog) (o : NbOps) (i : Nat) : DomWork :=
  let lens := refLens s p o.d
  let n := lens.getD i 0
  let off := sumBy id (lens.take i)
  let fmt := nbFmtAt s p o.d i
  let x := refPlace s p o.d i (some fmt)
  let outs := rangeBlocks x.1 x.2
  let src := (o.sources.map (fun r => ((domsAt (refLens s p r) off n).map (refIn s p r)).flatten)).flatten
  let dst := match o.d.kind with
    | 2 => (match gradDomain (gradTiles s p o.d) i with | some (k, _) => ObjRef.grad k | none => .none)
    | _ => .weight (o.d.key p) o.d.mat (if o.d.area = 0 then 0 else 1)
  { ins := dedup src ++ partIn dst outs, outs := outs,
    lanes := if x.1 = [] then refLanes s p o.a off n else partLanes x.1 ((x.2.head?.map Prod.fst).getD 0) fmt n }

/-- The work of every unit: the domains of which its channel holds a part (R182); a domain that lies in no channel, as one of BUFFERs alone does, falls
to a unit of the node's choice on the program's die (DESIGN CHOICE, log 16). -/
def dealDomains (s : State) (die : Nat) (ws : List DomWork) : List UnitWork × State :=
  let us := ws.map DomWork.units
  let r := if us.any List.isEmpty then drawPick s (6 * 32) else (0, s)
  let any := (6 * die + r.1 / 32, r.1 % 32)
  let at' := us.map (fun l => if l = [] then [any] else l)
  ((dedup at'.flatten).map (fun u => ⟨u, (List.range at'.length).filter (fun i => (at'.getD i []).contains u), [], 0⟩), r.2)

/-- The sequences of a step's domains; without any the step waits for nothing. -/
def issueDomains (s : State) (c k die : Nat) (ws : List DomWork) (reads writes : List ObjRef) (ops : Nat) : State :=
  if ws = [] then bankReady s c k false
  else let d := dealDomains s die ws; issueSeqs d.2 c k d.1 reads writes ops

/-- What an NB.EW, NB.ROPE or NB.QUANT reads and writes is made ready: its destination, and the sources that are not wholly in T1 are asked for (R174);
with the objects that it reads. -/
def nbReady (s : State) (c : Nat) (p : Prog) (o : NbOps) : List ObjRef × State :=
  let s1 := nbOpen s c p o.d
  let reads := (o.sources.map (refObjects s1 p)).flatten
  (reads, reads.foldl (fun s r => match r with
    | .weight k mat 0 => (match curMat s k mat with | some m => if m.present then s else fetchWeights s .demand k mat | none => s)
    | _ => s) s1)

/-- The domains of a near-bank instruction whose operands are ready. -/
def nbWorks (s : State) (p : Prog) (o : NbOps) : List DomWork := (List.range (nbDomains s p o)).map (nbWork s p o)

/-- The issue of NB.EW, NB.ROPE or NB.QUANT. -/
def nbIssue (s : State) (c : Nat) (op : Op) : State :=
  issueStep s c (isOp op) (fun s p w k =>
    let o := nbOps p w
    match firstOf (generalChecks s p w ++ nbChecks s p o) with
    | some r => finishStep s c k r
    | none =>
      let r := nbReady s c p o
      match getCtx r.2 c with
      | none => r.2
      | some p2 => issueDomains r.2 c k p.die (nbWorks r.2 p2 o) r.1 (refObjects r.2 p2 o.d) (nbCost o))

/-- NB_EW (R279). -/
def execNbEw (c : Nat) (s : State) : Host.Outcome State Fault Refusal := .next (nbIssue s c .nbEw)

/-- NB_ROPE (R280). -/
def execNbRope (c : Nat) (s : State) : Host.Outcome State Fault Refusal := .next (nbIssue s c .nbRope)

/-- NB_QUANT (R281). -/
def execNbQuant (c : Nat) (s : State) : Host.Outcome State Fault Refusal := .next (nbIssue s c .nbQuant)

/-! ### NB.ADAM (R127, R282) -/

/-- The operands of NB.ADAM: the matrices named, and the seven parameters. -/
structure AdamOps where
  set : Nat
  pBuf : Nat
  flr : Nat
  layer : Option Nat
  mats : List Nat
  ps : List F32
  deriving DecidableEq, Repr

def adamOps (p : Prog) (w : Nat) : AdamOps :=
  { set := p.nameId (fld w 34 32), pBuf := fld w 37 35, flr := fld w 39 38, layer := if bitN w 48 then none else some (fld w 47 40),
    mats := (List.range 3).filter (fun i => bitN w (49 + i)), ps := (List.range 7).map (fun i => BitVec.ofNat 32 (leAt (p.bytes (fld w 37 35)) (4 * i) 4)) }

def AdamOps.par (o : AdamOps) (i : Nat) : F32 := o.ps.getD i f32Zero

/-- The sets that an NB.ADAM names, in ascending layer. -/
def adamSets (s : State) (p : Prog) (o : AdamOps) : List SetKey :=
  sortBy (fun a b => decide (a.2.2 ≤ b.2.2)) ((s.mem.weights.filter (fun w => w.1.1 == p.tenant && w.1.2.1 == o.set && (match o.layer with | some l => w.1.2.2 == l | none => true) &&
    !setAbsent s w.1)).map Prod.fst)

/-- The domains of a step in order: set, matrix, row, row group. -/
def adamDomains (s : State) (p : Prog) (o : AdamOps) : List (SetKey × Nat × Nat × Nat) :=
  ((adamSets s p o).map (fun k => (o.mats.map (fun i => ((List.range (((curMat s k i).map Matrix.rows).getD 0)).map (fun r =>
    (List.range (rowGroups (setCols s k)).length).map (fun g => (k, i, r, g)))).flatten)).flatten)).flatten

/-- MATRICES is zero or names a matrix that a set lacks (R282). -/
def adamMatsBad (s : State) (p : Prog) (o : AdamOps) : Bool :=
  o.mats.isEmpty || (adamSets s p o).any (fun k => o.mats.any (fun i => (curMat s k i).isNone))

/-- A parameter fails R282. -/
def adamParamBad (p : Prog) (o : AdamOps) : Bool :=
  let neg := fun (x : F32) => flt x f32Zero
  let beta := fun (x : F32) => !fle f32Zero x || !flt x f32One
  let corr := fun (x : F32) => !flt f32Zero x || !fle x f32One
  !o.ps.all F32.isFinite || beta (o.par 1) ||
    beta (o.par 2) || neg (o.par 3) || neg (o.par 0) || corr (o.par 5) || corr (o.par 6) || decide (leAt (p.bytes o.pBuf) 28 4 ≠ 0)

def adamChecks (s : State) (p : Prog) (w : Nat) (o : AdamOps) : List (Bool × Compl) :=
  let ks := adamSets s p o
  let short := decide ((p.bytes o.pBuf).length < 32)
  let train := fun (k : SetKey) => (match getSet s k with | some x => x.train | none => false)
  let mats := (ks.map (fun k => o.mats.filterMap (fun i => (curMat s k i).map (fun m => (k, i, m))))).flatten
  [(adamMatsBad s p o || (!short && adamParamBad p o), refusedWith scParamInvalid),
   (decide (65536 ≤ (p.buf (fld w 34 32)).name), refusedWith scShapeInvalid),
   (short, refusedWith scBufferShort),
   (decide (ks = []), refusedWith scWeightSetAbsent),
   (ks.any (fun k => !train k), refusedWith scNoMaster),
   (ks.any (fun k => setIs s k .stepping) || mats.any (fun x => copyRead s x.1 x.2.1), refusedWith scWeightSetBusy),
   (ks.any (fun k => setIs s k .torn), refusedWith scWeightsTorn),
   (nonceSpent s p.tenant (4 * (adamDomains s p o).length), refusedWith scNonceSpent),
   (mats.any (fun x => match seenArea s p.lsn x.1 x.2.2 with | some b => b.fmts.any (belowFloor o.flr) | none => false), (stFloor, 0)),
   (ks.any (fun k => setIs s k .unavailable), (stWeightsPoisoned, 0))] ++
  copyRoomChecks s p (mats.map (fun x => (x.1, x.2.1)))

/-- The body and byte range of a part's row group as NB.ADAM writes it: 0 the working copy that the program prepares, 1 master copy, 2 and 3 the
moments (R127, R129). -/
def adamPlace (s : State) (p : Prog) (x : SetKey × Nat × Nat × Nat) (part : Nat) : List Gran × Nat × Nat :=
  match curMat s x.1 x.2.1 with
  | some m =>
    let body := if part = 0 then ((p.copyOf x.1 x.2.1).map (fun c => c.2.1)).getD [] else partGrans m (setCols s x.1) part
    (body, groupRange (partFmt m none part) (setCols s x.1) x.2.2.1 x.2.2.2 1)
  | none => ([], 0, 0)

/-- One row group of an optimizer step as a domain (R127, R130). -/
def adamWork (s : State) (p : Prog) (x : SetKey × Nat × Nat × Nat) : DomWork :=
  let area := ((curMat s x.1 x.2.1).bind (seenArea s p.lsn x.1)).isSome
  let outs := ([0, 1, 2, 3].map (fun part => let y := adamPlace s p x part; rangeBlocks y.1 [y.2])).flatten
  let m := adamPlace s p x 1
  { ins := ((if area then [1, 2, 3, 4] else [1, 2, 3]).map (fun part => groupIn s p x.1 x.2.1 part x.2.2.1 x.2.2.2)).flatten ++
      partIn (.weight x.1 x.2.1 1) outs,
    outs := outs, lanes := partLanes m.1 m.2.1 15 ((rowGroups (setCols s x.1)).getD x.2.2.2 0) }

/-- The matrices that a step changes. -/
def adamMats (s : State) (p : Prog) (o : AdamOps) : List (SetKey × Nat) := ((adamSets s p o).map (fun k => o.mats.map (fun i => (k, i)))).flatten

/-- The working copies of a step are begun: a number for each row group of working copy, master copy and moments (R405). -/
def adamReady (s : State) (c : Nat) (p : Prog) (o : AdamOps) : State :=
  (adamMats s p o).foldl (fun s x =>
    beginCopy s c x.1 x.2 (4 * (((curMat s x.1 x.2).map Matrix.rows).getD 0) * (rowGroups (setCols s x.1)).length) (.adam x.1 x.2)) s

/-- The domains of a step whose working copies have been begun. -/
def adamWorks (s : State) (p : Prog) (o : AdamOps) : List DomWork := (adamDomains s p o).map (adamWork s p)

def adamIssue (s : State) (c : Nat) : State :=
  issueStep s c (isOp .nbAdam) (fun s p w k =>
    let o := adamOps p w
    match firstOf (generalChecks s p w ++ adamChecks s p w o) with
    | some r => finishStep s c k r
    | none =>
      let s1 := adamReady s c p o
      let objs := (adamMats s p o).map (fun x => ObjRef.weight x.1 x.2 1)
      match getCtx s1 c with
      | none => s1
      | some p1 => issueDomains s1 c k p.die (adamWorks s1 p1 o) objs objs 16)

/-- NB_ADAM (R127 to R130, R282). -/
def execNbAdam (c : Nat) (s : State) : Host.Outcome State Fault Refusal := .next (adamIssue s c)

/-- One element of the step of R127: w', m', v'. -/
def adamElem (o : AdamOps) (w g m v : F32) : F32 × F32 × F32 :=
  let b1 := o.par 1
  let b2 := o.par 2
  let m' := fadd (fmul b1 m) (fmul (fsub f32One b1) g)
  let v' := fadd (fmul b2 v) (fmul (fsub f32One b2) (fmul g g))
  let u := fdiv (fdiv m' (o.par 5)) (fadd (fsqrt (fdiv v' (o.par 6))) (o.par 3))
  (fsub w (fmul (o.par 0) (fadd u (fmul (o.par 4) w))), m', v')

/-- Changes the working copy that a program prepares. -/
def Prog.mapCopy (p : Prog) (k : SetKey) (mat : Nat) (f : MatBody → MatBody) : Prog :=
  { p with changes := p.changes.map (fun ch => match ch with
      | .adam k' i b g n => if k' = k ∧ i = mat then .adam k' i (f b) g n else ch
      | .copyOf k' i b g n => if k' = k ∧ i = mat then .copyOf k' i (f b) g n else ch
      | _ => ch) }

/-- What the lanes form of one row group of the step: w', then m', then v' (R127). A gradient area that nothing has written reads as +0 (DESIGN
CHOICE, log 70). -/
def adamVals (s : State) (p : Prog) (o : AdamOps) (x : SetKey × Nat × Nat × Nat) : List F32 :=
  let k := x.1
  let r := x.2.2.1
  let g := x.2.2.2
  match curMat s k x.2.1 with
  | some m =>
    let cols := setCols s k
    let n := (rowGroups cols).getD g 0
    let w := ((((m.master.getD []).getD r (zeroVec cols))).drop (4096 * g)).take n
    let gv := match seenArea s p.lsn k m with | some b => (let q := b.group r g; q.2.values q.1) | none => zeroVec n
    let mv := (groupAt m.m r g).values 4
    let vv := (groupAt m.v r g).values 3
    let es := (List.range n).map (fun i => adamElem o (w.getD i f32Zero) (gv.getD i f32Zero) (mv.getD i f32Zero) (vv.getD i f32Zero))
    es.map (fun e => e.1) ++ es.map (fun e => e.2.1) ++ es.map (fun e => e.2.2)
  | none => []

/-- One row group of the step is written: master and moments in place under their new numbers, the working copy as a new version (R127, R129, R200,
R405). -/
def adamWrite (s : State) (c : Nat) (p : Prog) (x : SetKey × Nat × Nat × Nat) (vals : List F32) : State :=
  let k := x.1
  let mat := x.2.1
  let r := x.2.2.1
  let g := x.2.2.2
  match curMat s k mat, getSet s k with
  | some m, some ws =>
    let cols := setCols s k
    let per := (rowGroups cols).length
    let n := (rowGroups cols).getD g 0
    let wrow := ((m.master.getD []).getD r (zeroVec cols))
    let w' := vals.take n
    let mq := quantFresh false 4 ((vals.drop n).take n)
    let vq := quantFresh false 3 ((vals.drop (2 * n)).take n)
    let cq := quantFresh false m.fmt w'
    let i := r * per + g
    let recs := match p.copyOf k mat with
      | some y => [1, 2, 3].foldl (fun t part => Tab.upd t [] part (fun l => l.set i (y.2.2.plus (part * m.rows * per + i)))) m.recs
      | none => m.recs
    let m1 := { m with master := some ((m.master.getD []).set r (wrow.take (4096 * g) ++ w' ++ wrow.drop (4096 * g + n))),
                       m := setGroup m.m r g mq.1, v := setGroup m.v r g (unsigned5 vq.1), recs := recs, auxPoisoned := m.auxPoisoned && auxBad s m }
    let s2 := putSet s k { ws with mats := Tab.put ws.mats mat m1 }
    addCtr (updCtx s2 c (fun p => p.mapCopy k mat (fun b => b.setGroup m.fmt r g cq.1))) .nbSat (mq.2 + vq.2 + cq.2)
  | _, _ => s

/-! ### Writing a domain -/

/-- A gradient tile gets a domain of a half in a format; what poisoned it is gone once nothing in it fails any longer (R118). -/
def headWrite (s : State) (k : GradKey) (isK : Bool) (fmt h : Nat) (q : QDom) : State :=
  match getGrad s k with
  | some cell => match cell.pending with
    | some g =>
      let g1 := g.setDom isK fmt h q
      let bad := (gradBlocks cell).any (fun n => (match classify (ErrTab.read s.mem.err n) with | .clean => false | .corrected _ => false | _ => true) ||
        silentDiff s (gradFree cell) n)
      { s with mem := { s.mem with grads := Tab.put s.mem.grads k { cell with pending := some g1, poisoned := cell.poisoned && (bad || !g1.sound) } } }
    | none => s
  | none => s

/-- A gradient area gets a row group in a format, and with it the values of its row's bias (R118, R125, R405). -/
def areaWrite (s : State) (p : Prog) (k : SetKey) (mat fmt r g : Nat) (q : QDom) (bias : List F32 → List F32) : State :=
  match getSet s k with
  | none => s
  | some w => match Tab.find w.mats mat with
    | none => s
    | some m =>
      let cols := setCols s k
      let zero : MatBody := ⟨fmt, List.replicate m.rows (zeroRow fmt cols), List.replicate m.rows [], []⟩
      let had := decide (w.gradHolder = some p.lsn) && m.gradPending.isSome
      let i := r * (rowGroups cols).length + g
      let recs := if had then m.recs else Tab.put m.recs 5 (Tab.get m.recs [] 4)
      let recs := match p.areaRec k mat i with | some x => Tab.upd recs [] 5 (fun l => l.set i x) | none => recs
      let m1 := { m with gradPending := some (((seenArea s p.lsn k m).getD zero).setGroup fmt r g q),
                         gradBiasPending := bias (if had then m.gradBiasPending else m.gradBias), recs := recs,
                         auxPoisoned := m.auxPoisoned && auxBad s m }
      putSet s k { w with gradHolder := some p.lsn, mats := Tab.put w.mats mat m1 }

/-- Writes domain `i` of a near-bank result; the elements are those of the result there (R187). A gradient tile or area that changes its format
keeps its other domains as they are until they are written (R201). -/
def nbWrite (s : State) (c : Nat) (p : Prog) (o : NbOps) (i : Nat) (xs : List F32) : State :=
  let n := nbDomains s p o
  match o.d.kind with
  | 1 =>
    let q := nbQuantize o.d.fmt (nbSupply p o n i o.d.fmt) xs
    -- plain FP16 arrays carry no scale (R276)
    let q := if plainArray o.d.fmt then quantWith false o.d.fmt f32One 0 xs else q
    let bs := if plainArray o.d.fmt then packElems o.d.fmt q.1.codes else domainBytes o.d.fmt q.1
    let off := if plainArray o.d.fmt then i * (4096 * fmtBits o.d.fmt / 8) else i * bs.length
    addCtr (updCtx s c (fun p => { p with scratch := patch p.scratch ((p.buf o.d.buf).offset + off) bs })) .nbSat q.2
  | 2 =>
    match gradDomain (gradTiles s p o.d) i with
    | none => s
    | some (k, h) =>
      let fmt := nbFmtAt s p o.d i
      let q := nbQuantize fmt (nbSupply p o n i fmt) xs
      addCtr (headWrite s k (gradIsK o.d) fmt h q.1) .nbSat q.2
  | 3 =>
    let at' := groupIdx (setCols s (o.d.key p)) i
    let fmt := nbDestFmt s p o.d none
    let q := nbQuantize fmt (nbSupply p o n i fmt) xs
    let q := if fmt = 2 then (match nbSupply p o n i fmt with | some x => quantWith false 2 x.1 0 xs | none => quantFresh false 2 xs) else q
    let s1 := if o.d.area = 0 then updCtx s c (fun p => p.mapCopy (o.d.key p) o.d.mat (fun b => b.setGroup fmt at'.1 at'.2 q.1))
      else areaWrite s p (o.d.key p) o.d.mat fmt at'.1 at'.2 q.1 id
    addCtr s1 .nbSat q.2
  | _ => s

/-! ### The gradients of a ply's instruction (R118, R125, R184) -/

/-- A domain of such a job: a head of a half of a tile, or a row group of a matrix. -/
inductive JobDom where
  | head (x : TileJob) (isK : Bool) (h : Nat)
  | group (x : MatJob) (r g : Nat)
  deriving DecidableEq, Repr

/-- The domains of a job in order. -/
def NbJob.doms (s : State) (j : NbJob) : List JobDom :=
  match j with
  | .tiles _ _ parts => (parts.map (fun x =>
      let heads := (((getGrad s x.key).bind (fun c => c.pending.or c.committed)).map GradTile.heads).getD 0
      (List.range heads).map (JobDom.head x true) ++ (List.range heads).map (JobDom.head x false))).flatten
  | .mats _ key parts => (parts.map (fun x => ((List.range x.rows.length).map (fun r =>
      (List.range (rowGroups (setCols s key)).length).map (JobDom.group x r))).flatten)).flatten

/-- Domain `d` of a job as work (R182, R200). -/
def jobWork (s : State) (p : Prog) (j : NbJob) (d : JobDom) : DomWork :=
  match j, d with
  | .tiles fmt accum _, .head x isK h =>
    let y := gradPlace s x.key isK h (some fmt)
    let outs := rangeBlocks y.1 y.2
    let n := match (getGrad s x.key).bind (fun c => c.pending.or c.committed) with | some g => g.valid * headDim g.dimCode | none => 0
    { ins := (if accum then gradIn s x.key isK h else []) ++ partIn (.grad x.key) outs, outs := outs,
      lanes := partLanes y.1 ((y.2.head?.map Prod.fst).getD 0) fmt n }
  | .mats accum key _, .group x r g =>
    match curMat s key x.mat with
    | none => ⟨[], [], []⟩
    | some m =>
      let cols := setCols s key
      let y := groupRange x.fmt cols r g 1
      let body := partGrans m cols 4
      let outs := rangeBlocks body [y]
      { ins := (if accum ∧ (seenArea s p.lsn key m).isSome then groupIn s p key x.mat 4 r g else []) ++ partIn (.weight key x.mat 1) outs, outs := outs,
        lanes := partLanes body y.1 x.fmt ((rowGroups cols).getD g 0) }
  | _, _ => ⟨[], [], []⟩

/-- The values of domain `d` of a job: the gradients, or their sums with what was there (R118, R125). -/
def jobVals (s : State) (p : Prog) (j : NbJob) (d : JobDom) : List F32 :=
  match j, d with
  | .tiles _ accum _, .head x isK h => match (getGrad s x.key).bind (fun c => c.pending.or c.committed) with
    | some g => ((List.range g.valid).map (writtenVec g accum isK x.slots h)).flatten
    | none => []
  | .mats accum key _, .group x r g =>
    let new := ((x.rows.getD r []).drop (4096 * g)).take 4096
    if !accum then new
    else match (curMat s key x.mat).bind (seenArea s p.lsn key) with
      | some b => let q := b.group r g; addVec (q.2.values q.1) new
      | none => new.map (fadd f32Zero)
  | _, _ => []

/-- Writes domain `d` of a job, under the integrity code and with fresh scales (R80, R118). -/
def jobWrite (s : State) (p : Prog) (j : NbJob) (d : JobDom) (vals : List F32) : State :=
  match j, d with
  | .tiles fmt _ _, .head x isK h => let q := quantFresh false fmt vals; addCtr (headWrite s x.key isK fmt h q.1) .nbSat q.2
  | .mats accum key _, .group x r g =>
    let q := quantFresh false x.fmt vals
    let last := decide (g + 1 = (rowGroups (setCols s key)).length)
    let zeros := List.replicate x.rows.length f32Zero
    let bias := fun (b : List F32) =>
      let b := if b = [] then zeros else b
      if x.bias = [] then [] else if !last then b else b.set r (if accum then fadd (b.getD r f32Zero) (x.bias.getD r f32Zero) else x.bias.getD r f32Zero)
    addCtr (areaWrite s p key x.mat x.fmt r g q.1 bias) .nbSat q.2
  | _, _ => s

/-- The sequences that write the gradients of a step of a ply: the units add and requantize (R118, R125, R184). -/
def issueJob (s : State) (c k : Nat) (j : NbJob) : State :=
  match getCtx s c with
  | none => s
  | some p =>
    let s1 := { s with nb := { s.nb with jobs := Tab.put s.nb.jobs (p.lsn, k) j } }
    let objs := match j with
      | .tiles _ _ parts => parts.map (fun x => ObjRef.grad x.key)
      | .mats _ key parts => parts.map (fun x => ObjRef.weight key x.mat 1)
    let accum := match j with | .tiles _ a _ | .mats a _ _ => a
    issueDomains s1 c k p.die ((j.doms s1).map (jobWork s1 p j)) (if accum then objs else []) objs (b2n accum)

end Sys2Proof.Machine
end

