-- ==== Sys2Proof/Machine/Units.lean ====
section
/-! DEFINITION. The sequences as the near-bank units run them: start, row steps, refresh, poison stops, cancellation, completion (08 R182, R186, R189,
R191 to R205). -/

namespace Sys2Proof.Machine
open Sys2Proof

/-- The program of a sequence, with the scratch space as the operands of its step stood, and its context. -/
def seqProg (s : State) (q : Seq) : Option (Nat × Prog) := (ctxOf s q.lsn).bind (fun c => (getCtx s c).map (fun p => (c, p.asOf q.step)))

/-! ### The domains of a sequence -/

/-- What a domain of a sequence is. -/
inductive SeqDom where
  | nb (o : NbOps) (i : Nat)
  | adam (o : AdamOps) (x : SetKey × Nat × Nat × Nat)
  | job (j : NbJob) (d : JobDom)
  deriving DecidableEq, Repr

/-- Domain `i` of a sequence, with its context and program. -/
def seqDom (s : State) (q : Seq) (i : Nat) : Option (Nat × Prog × SeqDom) :=
  match seqProg s q with
  | none => none
  | some (c, p) =>
    let w := p.word q.step
    match opOf w with
    | some .nbAdam => ((adamDomains s p (adamOps p w))[i]?).map (fun x => (c, p, .adam (adamOps p w) x))
    | some .nbEw | some .nbRope | some .nbQuant => some (c, p, .nb (nbOps p w) i)
    | _ => (Tab.find s.nb.jobs (q.lsn, q.step)).bind (fun j => ((j.doms s)[i]?).map (fun d => (c, p, .job j d)))

/-- What domain `i` of a sequence reads, writes and is made of. -/
def domWork (s : State) (q : Seq) (i : Nat) : DomWork :=
  match seqDom s q i with
  | some (_, p, .nb o i) => nbWork s p o i
  | some (_, p, .adam _ x) => adamWork s p x
  | some (_, p, .job j d) => jobWork s p j d
  | none => ⟨[], [], []⟩

/-- What the lanes form for one of a sequence's domains: of the values that its step took from its sources, of a row group of an optimizer step, of the
gradients of a ply (R118, R125, R127, R186). -/
def domainVals (s : State) (q : Seq) (i : Nat) : List F32 :=
  match seqDom s q i with
  | some (_, p, .nb o i) =>
    let lens := refLens s p o.d
    (((Tab.find s.nb.taken (q.lsn, q.step)).getD (nbValues s p o)).drop (sumBy id (lens.take i))).take (lens.getD i 0)
  | some (_, p, .adam o x) => adamVals s p o x
  | some (_, p, .job j d) => jobVals s p j d
  | none => []

/-- Domain `i` of a sequence is written: its blocks under their code, whole or merged, and its values (R200). -/
def writeDomain (s : State) (q : Seq) (i : Nat) : State :=
  let outs := (domWork s q i).outs
  let vals := domainVals s q i
  let s1 := clearErr ((outs.filter (fun b => !b.2.1)).foldl (fun s b => mergeErr s b.1 b.2.2) s) ((outs.filter (fun b => b.2.1)).map Prod.fst)
  match seqDom s1 q i with
  | some (c, p, .nb o i) => nbWrite s1 c p o i vals
  | some (c, p, .adam _ x) => adamWrite s1 c p x vals
  | some (_, p, .job j d) => jobWrite s1 p j d vals
  | none => s1

/-- The elements of a domain that a unit works on: those that lie in its channel, or all of them where they lie in none (R182). -/
def ownElems (w : DomWork) (u : Nat × Nat) : List Nat :=
  (List.range w.lanes.length).filter (fun j => match w.lanes.getD j none with | some v => v == u | none => w.units.headD u == u)

/-- Bytes of the lane store that an element takes in FP32: three values where the optimizer steps (R182). -/
def laneBytes (s : State) (q : Seq) (i : Nat) : Nat := match seqDom s q i with | some (_, _, .adam _ _) => 12 | _ => 4

/-- Integrity blocks that a unit writes of a domain; those of a BUFFER are counted in 64-byte blocks (R195). -/
def ownBlocks (s : State) (q : Seq) (i : Nat) (u : Nat × Nat) : Nat :=
  match seqDom s q i with
  | some (_, p, .nb o i) =>
    if o.d.kind = 1 then
      let n := (refLens s p o.d).getD i 0
      let bytes := n * fmtBits o.d.fmt / 8
      if (domWork s q i).units.headD u ≠ u then 0
      else if plainArray o.d.fmt then ceilDiv bytes 64 else ceilDiv (4 + (if hasPips o.d.fmt then n / 16 else 0) + bytes) 64
    else ((domWork s q i).outs.filter (fun b => blockUnit b.1 == u)).length
  | _ => ((domWork s q i).outs.filter (fun b => blockUnit b.1 == u)).length

/-! ### Start -/

/-- The sequence that a unit has started. -/
def activeSeq (x : Unit') : Option Seq := x.seqs.find? Seq.active

/-- Changes the active sequence of a unit. -/
def updActive (s : State) (u : Nat × Nat) (f : Seq → Seq) : State :=
  let x := getUnit s u
  match activeSeq x with
  | none => s
  | some a => putUnit s u { x with seqs := x.seqs.map (fun q => if q.tag = a.tag ∧ q.lsn = a.lsn then f q else q) }

/-- The sequence writes with fresh scales, or makes an optimizer step: it works in two passes (08, Refresh). -/
def twoPass (s : State) (q : Seq) : Bool :=
  match seqDom s q (q.doms.headD 0) with
  | some (_, _, .adam _ _) => true
  | some (_, _, .nb o _) => !(o.d.kind == 1 && plainArray o.d.fmt) && !(o.op == .nbQuant && o.f == 1)
  | some (_, _, .job (.tiles fmt _ _) _) => hasPips fmt
  | some (_, _, .job _ (.group x _ _)) => hasPips x.fmt
  | _ => false

/-- A sequence may start: its sources are in T1 (R174), and none of another step that was issued earlier still has to write what it uses (R192;
objects stand for their granules: log 16). -/
def mayStart (s : State) (q : Seq) : Bool :=
  q.reads.all (fun r => match r with | .weight k mat 0 => ((curMat s k mat).map Matrix.present).getD true | _ => true) &&
    !(s.nb.units.vals.any (fun x => x.seqs.any (fun y => decide (y.state ≠ .waiting ∧ y.order < q.order ∧ (y.lsn ≠ q.lsn ∨ y.step ≠ q.step)) &&
      y.writes.any (fun o => (q.reads ++ q.writes).contains o))))

/-- A set is STEPPING from the start of the first sequence of an NB.ADAM (R121, R282). -/
def stepSets (s : State) (q : Seq) : State :=
  match seqProg s q with
  | none => s
  | some (_, p) =>
    if opOf (p.word q.step) ≠ some .nbAdam then s
    else (adamSets s p (adamOps p (p.word q.step))).foldl (fun s k => match getSet s k with
      | some w => putSet s k { w with state := if w.state = .unavailable then .unavailable else .stepping, steppers := dedup (q.lsn :: w.steppers) }
      | none => s) s

/-- The keys that the trust block loads into a unit's two slots: the live epochs of the sequence's tenant (R189); a scrub needs none (R219). -/
def slotKeys (s : State) (q : Seq) : List KeySlot :=
  let x := getTenant s q.tenant
  if q.pass then [] else (x.current.toList ++ x.old.toList).map (fun k => ⟨q.tenant, k.epoch, k.key⟩)

/-- The lanes take in the sources of a step with its first sequence: each element is read before any is written (R277; log 16). -/
def takeSources (s : State) (q : Seq) : State :=
  match seqProg s q with
  | none => s
  | some (_, p) => match opOf (p.word q.step) with
    | some .nbEw | some .nbRope | some .nbQuant =>
      if (Tab.find s.nb.taken (q.lsn, q.step)).isSome then s
      else { s with nb := { s.nb with taken := Tab.put s.nb.taken (q.lsn, q.step) (nbValues s p (nbOps p (p.word q.step))) } }
    | _ => s

def nbSeqStartEffect (s : State) (u : Nat × Nat) : State :=
  let x := getUnit s u
  match activeSeq x, x.seqs.find? (fun q => decide (q.state = .queued)) with
  | none, some q =>
    if !mayStart s q then s
    else requeueSeqs (stepSets (takeSources (putUnit s u { x with
      seqs := x.seqs.map (fun y => if y.tag = q.tag ∧ y.lsn = q.lsn then { y with state := .running, lock := twoPass s q } else y),
      lane := [], saved := none, keys := slotKeys s q }) q) q)
  | _, _ => s

/-- NB_SEQ_START (R193). -/
def execNbSeqStart (stack unit : Nat) (s : State) : Host.Outcome State Fault Refusal := .next (nbSeqStartEffect s (stack, unit))

/-- A final sequence: its word, its count, and what its instruction makes of it (R194). -/
def endSeq (s : State) (u : Nat × Nat) (q : Seq) (final status : Nat) : State := seqFinal (retireSeq s u q final status) q status

/-! ### Reads -/

def objOwner (o : ObjRef) : Owner :=
  match o with
  | .tile i => .tile i
  | .grad k => .grad k
  | .weight k m part => .weight k m (part == 1)
  | .lse k => .lse k
  | .none => .other

/-- The status of a poison stop over an object (R201). -/
def stopStatus (o : ObjRef) : Nat := match o with | .weight _ _ _ => stWeightsPoisoned | _ => stTilePoisoned

/-- A unit reads its blocks of one input of a domain: the status of a poison stop, and the counts (R200, R201, R211, R407). -/
def readIn (s : State) (x : DomIn) (own : List Nat) : Option Nat × EccRes × State :=
  if x.poisoned then (some (stopStatus x.obj), EccRes.zero, s)
  else
    let r := readBlocksFree s (ownerFree s (objOwner x.obj)) own
    if r.1.bad then (some (stopStatus x.obj), r)
    else if x.merge then (none, r)
    else if r.1.authBad ∨ !x.authOk then (some (stopStatus x.obj), r.1, poisonOwner (bump r.2 (.tier 7)) (objOwner x.obj))
    else if !x.sound then (some (stopStatus x.obj), r.1, poisonOwner r.2 (objOwner x.obj))
    else (none, r)

/-- A unit reads its share of a domain; the first of the domain's units reads the header block too. -/
def readDomain (s : State) (q : Seq) (u : Nat × Nat) (i : Nat) : Option Nat × EccRes × State :=
  let w := domWork s q i
  let head := w.units.headD u == u
  w.ins.foldl (fun (acc : Option Nat × EccRes × State) x =>
    match acc.1 with
    | some _ => acc
    | none =>
      let r := readIn acc.2.2 x (x.blocks.filter (fun b => blockUnit b == u) ++ (if head then x.hdr else []))
      let e := acc.2.1
      (r.1, { e with corrected := e.corrected + r.2.1.corrected, uncorr := e.uncorr + r.2.1.uncorr, poisoned := e.poisoned + r.2.1.poisoned }, r.2.2))
    ((none, EccRes.zero, s) : Option Nat × EccRes × State)

/-- Counts of a unit's reads and writes (R195, R467). -/
def countSeq (s : State) (u : Nat × Nat) (e : EccRes) (blocks ops : Nat) : State :=
  let s1 := updActive s u (fun q => { q with corrected := Nat.min 15 (q.corrected + e.corrected), uncorr := Nat.min 15 (q.uncorr + e.uncorr),
                                             blocks := satAdd 16 q.blocks blocks })
  addCtr (addCtr (addCtr (addCtr s1 (.nbStat u.1 3) ops) (.nbStat u.1 4) e.corrected) (.nbStat u.1 5) e.uncorr) (.nbStat u.1 6) e.poisoned

/-- A poison stop cancels the instruction's other sequences (R202, R203). -/
def stopSiblings (s : State) (q : Seq) (status : Nat) : State :=
  s.nb.units.foldl (fun s x => (x.2.seqs.filter (fun y => y.lsn == q.lsn && y.step == q.step && y.tag != q.tag)).foldl (fun s y =>
    if y.state = .running then
      let z := getUnit s x.1
      putUnit s x.1 { z with seqs := z.seqs.map (fun v => if v.tag = y.tag ∧ v.lsn = y.lsn then { v with cancel := some status } else v) }
    else endSeq s x.1 y 7 status) s) s

/-- A poison stop: the sequence FAILED, and it cancels the others of its instruction (R201, R202). -/
def poisonStop (s : State) (u : Nat × Nat) (e : EccRes) (status : Nat) : State :=
  let s1 := countSeq s u e 0 0
  match activeSeq (getUnit s1 u) with
  | none => s1
  | some q => stopSiblings (endSeq s1 u q 6 status) q status

/-! ### Row steps -/

/-- The domains of a batch: as many, from the first not yet written on, as the lane store of 64 KiB takes of the unit's elements in FP32 (R182). -/
def batchOf (s : State) (q : Seq) (u : Nat × Nat) : List Nat :=
  (q.doms.foldl (fun (acc : List Nat × Nat) i =>
    let n := acc.2 + laneBytes s q i * (ownElems (domWork s q i) u).length
    if n ≤ 65536 ∨ acc.1 = [] then (acc.1 ++ [i], n) else (acc.1, 65537)) (([], 0) : List Nat × Nat)).1

/-- Pass 1 of a batch: up to `n` more of its domains are read, and what the lanes form of the unit's elements stands in the lane store. -/
def readLane (n : Nat) (s : State) (u : Nat × Nat) : State :=
  match n with
  | 0 => s
  | n + 1 =>
    match activeSeq (getUnit s u) with
    | none => s
    | some q =>
      if !q.lock then s
      else match (batchOf s q u).find? (fun i => (Tab.find (getUnit s u).lane i).isNone) with
        | none => s
        | some i =>
          let r := readDomain s q u i
          match r.1 with
          | some st => poisonStop r.2.2 u r.2.1 st
          | none =>
            let s1 := countSeq r.2.2 u r.2.1 0 0
            let vals := domainVals s1 q i
            let len := (domWork s1 q i).lanes.length
            let es := ownElems (domWork s1 q i) u
            let own := ((List.range (vals.length / Nat.max 1 len)).map (fun j => es.map (fun e => vals.getD (j * len + e) f32Zero))).flatten
            readLane n (putUnit s1 u { getUnit s1 u with lane := Tab.put (getUnit s1 u).lane i own }) u

/-- Another unit still has its share of a domain to work on. -/
def sharedDomain (s : State) (q : Seq) (i : Nat) : Bool :=
  s.nb.units.vals.any (fun x => x.seqs.any (fun y => y.lsn == q.lsn && y.step == q.step && y.tag != q.tag && y.doms.contains i))

/-- A unit works through up to `n` of its domains, from the lane store where pass 1 has formed them; a poisoned source stops it (R201). A domain has its
new values once the last of its units has come to it (DESIGN CHOICE, log 16). -/
def runDomains (fuel : Nat) (s : State) (u : Nat × Nat) : State :=
  match fuel with
  | 0 => s
  | n + 1 =>
    match activeSeq (getUnit s u) with
    | none => s
    | some q =>
      match q.doms with
      | [] => s
      | i :: rest =>
        let r := if (Tab.find (getUnit s u).lane i).isSome then (none, EccRes.zero, s) else readDomain s q u i
        match r.1 with
        | some st => poisonStop r.2.2 u r.2.1 st
        | none =>
          let s1 := r.2.2
          let ops := q.opsPer * (ownElems (domWork s1 q i) u).length
          let blocks := ownBlocks s1 q i u
          let s2 := if sharedDomain s1 q i then s1 else writeDomain s1 q i
          let s3 := updActive (putUnit s2 u { getUnit s2 u with lane := Tab.del (getUnit s2 u).lane i }) u (fun q => { q with doms := rest })
          runDomains n (countSeq s3 u r.2.1 blocks ops) u

/-- The blocks of an append or a load that fall to the active sequence are written; the partial ones are read first (R200, R201). -/
def runBlocks (s : State) (u : Nat × Nat) : State :=
  match activeSeq (getUnit s u) with
  | none => s
  | some q =>
    if q.blks = [] then s
    else
      let r := writeBlocks s q.blks
      if r.1.bad then
        let weights : Bool := match seqProg s q with | some (_, p) => decide (opOf (p.word q.step) = some .move) | none => false
        poisonStop r.2 u r.1 (if weights then stWeightsPoisoned else stTilePoisoned)
      else countSeq (updActive r.2 u (fun q => { q with blks := [] })) u r.1 q.blks.length q.blkOps

/-- The reads of a scrub pass that fall to the active sequence (R184, R219). -/
def runPass (s : State) (u : Nat × Nat) : State :=
  match activeSeq (getUnit s u) with
  | none => s
  | some q =>
    if !q.pass ∨ q.doms = [] then s
    else
      let r := passRead s q.lsn q.step u
      let s1 := countSeq (updActive r.2 u (fun q => { q with doms := [] })) u r.1 0 0
      -- an uncorrectable block in the working area (R214)
      if r.1.workHit then controlReset s1 0x23 else s1

/-- What a unit saves when it is preempted (R198). -/
def savedOf (s : State) (u : Nat × Nat) (q : Seq) : Saved :=
  { cursors := q.doms, pass1 := q.lock,
    maxima := (getUnit s u).lane.map (fun x => x.2.foldl (fun a v => fmax a (v &&& 0x7FFFFFFF)) f32Zero),
    rows := ((q.reads.map (objGrans s)).flatten).filter (fun g => unitOf g == u) }

/-- What is pending at a row boundary: a cancellation, a preemption, a yield (R196 to R198, R203). -/
def rowBoundary (s : State) (u : Nat × Nat) : State :=
  match activeSeq (getUnit s u) with
  | none => s
  | some q =>
    match q.cancel with
    | some st => endSeq s u q 7 st
    | none =>
      if q.due then
        let waited := match q.dueSince with | some t => s.time - t | none => 0
        let s1 := maxCtr s (.nbRefresh u.1 3) waited
        if q.lock then
          let x := getUnit s1 u
          bump (updActive (putUnit s1 u { x with saved := some (savedOf s u q) }) u (fun q =>
            { q with state := .preempted, wasPreempted := true, due := false })) (.nbRefresh u.1 2)
        else bump (updActive s1 u (fun q => { q with state := .yielded, due := false })) (.nbRefresh u.1 0)
      else s

/-- A row step of the active sequence over up to `n` domains, or what it has of blocks or of a scrub pass. -/
def rowWork (s : State) (u : Nat × Nat) (q : Seq) (n : Nat) : State :=
  if q.pass then runPass s u
  else if q.blks ≠ [] then runBlocks s u
  else runDomains n s u

def nbRowStepEndEffect (s : State) (u : Nat × Nat) (domains : Nat) (flips : List Flip) : State :=
  let s0 := applyFlips s flips
  match activeSeq (getUnit s0 u) with
  | none => s0
  | some q =>
    if q.state ≠ .running then s0
    else
      -- pass 1 of a batch reads domains and writes none; a step that writes nothing outside a lock begins the next batch's pass 1, unless a
      -- refresh that fell due outside a lock makes it yield first (R196)
      let s1 := if q.cancel.isSome then s0
        else if q.lock then readLane domains s0 u
        else if domains = 0 then (if twoPass s0 q ∧ q.doms ≠ [] ∧ !q.due then updActive s0 u (fun q => { q with lock := true }) else s0)
        else rowWork s0 u q domains
      rowBoundary s1 u

/-- NB_ROW_STEP_END (R196, R201, R203): a row step that wrote `domains` domains, or in pass 1 read them, ends. -/
def execNbRowStepEnd (stack unit domains : Nat) (flips : List Flip) (s : State) : Host.Outcome State Fault Refusal :=
  .next (nbRowStepEndEffect s (stack, unit) domains flips)

/-! ### Refresh -/

def refreshDueEffect (s : State) (u : Nat × Nat) : State :=
  match activeSeq (getUnit s u) with
  | none => s
  | some q =>
    if q.state ≠ .running then s
    else
      let since := q.dueSince.or (some s.time)
      if !q.lock then updActive s u (fun q => { q with due := true, dueSince := since })
      else if q.owed < 2 then bump (updActive s u (fun q => { q with owed := q.owed + 1, dueSince := since })) (.nbRefresh u.1 1)
      else updActive s u (fun q => { q with due := true, dueSince := since })

/-- REFRESH_DUE (R196 to R198). -/
def execRefreshDue (stack unit : Nat) (s : State) : Host.Outcome State Fault Refusal := .next (refreshDueEffect s (stack, unit))

def pass1EndEffect (s : State) (u : Nat × Nat) : State :=
  match activeSeq (getUnit s u) with
  | none => s
  | some q =>
    if q.state = .running ∧ q.lock then
      updActive (readLane (q.doms.length + 1) s u) u (fun q => { q with lock := false, due := q.due || decide (0 < q.owed) })
    else s

/-- PASS1_END (R197). -/
def execPass1End (stack unit : Nat) (s : State) : Host.Outcome State Fault Refusal := .next (pass1EndEffect s (stack, unit))

def refreshCompleteEffect (s : State) (u : Nat × Nat) : State :=
  let x := getUnit s u
  updActive (putUnit s u { x with saved := none }) u (fun q =>
    if q.state = .yielded ∨ q.state = .preempted then { q with state := .running, owed := 0, due := false, dueSince := none } else q)

/-- REFRESH_COMPLETE (R196, R198). -/
def execRefreshComplete (stack unit : Nat) (s : State) : Host.Outcome State Fault Refusal := .next (refreshCompleteEffect s (stack, unit))

def nbSeqFinalEffect (s : State) (u : Nat × Nat) : State :=
  match activeSeq (getUnit s u) with
  | none => s
  | some q =>
    if q.state ≠ .running then s
    else if q.cancel.isSome then rowBoundary s u
    else
      let s1 := rowWork s u q (q.doms.length + 1)
      match activeSeq (getUnit s1 u) with
      | some q1 => if q1.tag = q.tag ∧ q1.lsn = q.lsn then endSeq s1 u q1 5 stOk else s1
      | none => s1

/-- NB_SEQ_FINAL (R194): the last write completes. -/
def execNbSeqFinal (stack unit : Nat) (s : State) : Host.Outcome State Fault Refusal := .next (nbSeqFinalEffect s (stack, unit))

def nbPollReadEffect (s : State) : State :=
  let n := if s.nb.poll = 0 then 1 else s.nb.poll
  let s1 := reach s ((s.time + n - 1) / n * n)
  s1.pg.ctxs.foldl (fun s x => (List.range x.2.next).foldl (fun s k => if (x.2.step k).poll then bankReady s x.1 k true else s) s) s1

/-- NB_POLL_READ (R194). -/
def execNbPollRead (s : State) : Host.Outcome State Fault Refusal := .next (nbPollReadEffect s)

end Sys2Proof.Machine
end

