-- ==== Sys2Proof/Machine/Ply.lean ====
section
/-! DEFINITION. Plies: issue with its reads, the hold, prefetch of the next layer, completion of every member, SRAM errors
(04 R95 to R99, 05 R107, R112 to R125, 07 R172, R174, 09 R216, 11 R260 to R273). -/

namespace Sys2Proof.Machine
open Sys2Proof

/-! ### What a ply waits for (R95, R174, R246) -/

/-- The context and program of a member, with the scratch space as its operands stood. -/
def memberProg (s : State) (m : Member) : Option (Nat × Prog) :=
  (ctxOf s m.lsn).bind (fun c => (getCtx s c).map (fun p => (c, { p with scratch := m.scratch })))

/-- The instant at which a ply may issue (R95). -/
def plyDue (s : State) (x : Ply) : Time :=
  if 4096 ≤ memberCount x then s.time
  else
    let gathers := x.members.map (fun m => m.at' + m.gather)
    let deadlines := x.members.filterMap (fun m => (memberProg s m).bind (fun cp => cp.2.deadline.map (fun t => t - Config.plyServiceNs (memberCount x))))
    match gathers ++ deadlines with
    | [] => s.time
    | t :: r => r.foldl Nat.min t

/-- The physical core, numbered 9 to a cluster, that a logical core is mapped to (R9, R10). -/
def physCore (s : State) (l : Nat) : Option Nat :=
  let c := l / 8
  (spareMap s c).map[l % 8]?.bind (fun p => if p < 9 ∧ !isRetired s c p then some (9 * c + p) else none)

/-- The die whose cores run a die's plies: the other one where it has no active core left (R439). -/
def coreDie (s : State) (die : Nat) : Nat := if (List.range 32).any (fun i => (physCore s (32 * die + i)).isSome) then die else 1 - die

/-- The logical cores are active cores of a die, or of the one that stands in for it, and free (R9, R95, R437, R439). -/
def coresFree (s : State) (die : Nat) (cores : List Nat) : Bool :=
  decide (cores ≠ [] ∧ dedup cores = cores) && cores.all (fun l =>
    decide (l < 64 ∧ l / 32 = coreDie s die) && (match physCore s l with | some n => !(busyCores s).contains n | none => false))

/-- Streams that a program's commit changes: with appends, runs and seals, and with kept logsumexp values (R246). -/
def Prog.changedStreams (p : Prog) : List Nat :=
  p.newStreams ++ p.changes.filterMap (fun ch => match ch with | .lse _ key _ _ _ _ => some key.2.1 | _ => none)

/-- A commit of the tenant between its commit point and the end of applying names a member's stream (R246), or the stream's rows are
PENDING (R139). -/
def plyCommitHeld (s : State) (x : Ply) : Bool :=
  x.members.any (fun m => match m.stream with
    | some st => pendingStream s x.key.tenant st ||
        s.pg.ctxs.vals.any (fun p => p.tenant == x.key.tenant && decide (p.state = .committing) && p.changedStreams.contains st)
    | none => false)

/-- The runs that a member would read, each with its tiles. -/
def memberRuns (s : State) (x : Ply) (m : Member) : List (Row × RunDesc × List Nat) :=
  if x.key.kind.reads then (match m.stream with | some st => liveRuns s x.key.tenant st x.key.layer m.mask | none => []) else []

/-- The distinct tiles that a ply would read (R97). -/
def plyTiles (s : State) (x : Ply) : List Nat :=
  dedup ((x.members.map (fun m => ((memberRuns s x m).map (fun r => r.2.2)).flatten)).flatten)

/-- The die that a ply runs on: the one that holds most of the tiles it would read, for weights the die of their set (R94, R162). -/
def plyDie (s : State) (x : Ply) : Nat := dieOfTiles ((plyTiles s x).filterMap (getTile s)) x.die

/-- The matrices that an instruction reads in a ply. -/
def matsOf (p : Prog) (w : Nat) : List Nat :=
  match opOf w with
  | some .mm => [(mmOps p w).mat]
  | some .projKv => if fbit w 0 then [] else (projOps p w).sel
  | _ => []

def plySet (x : Ply) : SetKey := (x.key.tenant, x.key.setId, x.key.layer)

def plyMats (s : State) (x : Ply) : List Nat :=
  dedup ((x.members.map (fun m => match memberProg s m with | some cp => matsOf cp.2 (cp.2.word m.step) | none => [])).flatten)

/-- A tile that is not wholly in T1, or whose copy there is poisoned while T2 has it (R174, R178). -/
def tileMissing (s : State) (oid : Nat) : Bool :=
  match getTile s oid with
  | some t => !t.lost && (decide (t.tier = .remote ∨ t.tier = .fetching) || (t.poisoned && decide (t.tier = .backed)))
  | none => false

/-- A matrix that T2 backs and that is not in T1, or poisoned there (R174, R178). -/
def matMissing (s : State) (k : SetKey) (mat : Nat) : Bool :=
  match getSet s k with
  | some w => decide (w.state ≠ .unavailable) && (match Tab.find w.mats mat with
    | some m => m.backing.isSome && (!m.present || m.poisoned)
    | none => false)
  | none => false

def updPly (s : State) (i : Nat) (f : Ply → Ply) : State :=
  match Tab.find s.pg.plies i with
  | some x => { s with pg := { s.pg with plies := Tab.put s.pg.plies i (f x) } }
  | none => s

/-- A ready ply is held, from its first hold on (R174). -/
def holdPly (s : State) (i : Nat) : State := updPly s i (fun x => { x with held := x.held.or (some s.time) })

/-- Demand fetches of what is missing; the ply counts as held once. -/
def plyHoldFor (s : State) (i : Nat) (x : Ply) (ts ms : List Nat) : State :=
  let s1 := fetchMats (fetchTiles s .demand ts) .demand (plySet x) ms
  holdPly (if x.held.isSome then s1 else bump s1 (.tier 8)) i

/-! ### The checks at the ply's issue (R96) -/

/-- The conditions on one instruction that are looked at again when its ply issues (R75, R79, R83, R96). -/
def plyRecheck (s : State) (x : Ply) (c : Nat) (p : Prog) (m : Member) : Option Compl :=
  let w := p.word m.step
  match opOf w with
  | some .projKv =>
    let o := projOps p w
    let rowsOf := fun (i : Nat) => ((curMat s (o.key p) i).map Matrix.rows).getD 0
    if o.grad then none
    else firstOf
      [(setAbsent s (o.key p), refusedWith scWeightSetAbsent),
       (!setAbsent s (o.key p) && weightShape s p c o, refusedWith scWeightShape),
       (!(p.buf o.xBuf).holds (o.m * setCols s (o.key p)), refusedWith scShapeInvalid),
       ((!o.append || o.selQ) && resultShort (p.buf o.yBuf) (o.m * (if o.append then rowsOf 2 else sumBy rowsOf o.sel)), refusedWith scBufferShort),
       ((o.sel.filterMap (curMat s (o.key p))).any (weightZpClash o.afmt), refusedWith scZpPair),
       ((o.sel.filterMap (curMat s (o.key p))).any (fun m => belowFloor o.flr m.fmt), (stFloor, 0))]
  | some .mm =>
    let o := mmOps p w
    let k := plySet x
    let rows := ((curMat s k o.mat).map Matrix.rows).getD 0
    firstOf
      [(setAbsent s k, refusedWith scWeightSetAbsent),
       (!setAbsent s k && (curMat s k o.mat).isNone, refusedWith scWeightShape),
       (!(p.buf o.aBuf).holds (o.m * (if o.trans then rows else setCols s k)), refusedWith scShapeInvalid),
       (resultShort (p.buf o.cBuf) (o.m * (if o.trans then setCols s k else rows)), refusedWith scBufferShort),
       ((match curMat s k o.mat with | some m => weightZpClash o.afmt m | none => false), refusedWith scZpPair),
       ((match curMat s k o.mat with | some m => belowFloor o.flr m.fmt | none => false), (stFloor, 0))]
  | _ =>
    let o := attOps p w
    let ts := tilesOfRuns s (memberRuns s x m)
    firstOf (runChecks s p.tenant o ((o.dim p).getD 0) (m.inl.head?.map Tile.heads) ts m.inl [] ++
      [(decide (o.kind = .backward) && !(bwdOf o.pb.bwd).lseSrc && lseMissing s p.tenant o, refusedWith scLseMissing)])

/-- An instruction that fails at its ply's issue leaves the ply before any read (R96). -/
def plyDropFailing (s : State) (i : Nat) (m : Member) : State :=
  match Tab.find s.pg.plies i, memberProg s m with
  | some x, some (c, p) =>
    match plyRecheck s x c p m with
    | some r => endStep (dropMembers s (fun y => y.lsn == m.lsn && y.step == m.step)) c m.step r
    | none => s
  | _, _ => s

/-! ### Reads (R96, R97) -/

/-- Reads each tile once; those that are poisoned. -/
def readTiles (s : State) (l : List Nat) : List Nat × State :=
  l.foldl (fun (acc : List Nat × State) o => let r := readTile acc.2 o; (if r.1 then acc.1 ++ [o] else acc.1, r.2)) ([], s)

/-- Reads the matrices of a set; those that are poisoned (R178). -/
def readMats (s : State) (k : SetKey) (l : List Nat) : List Nat × State :=
  l.foldl (fun (acc : List Nat × State) i =>
    match curMat acc.2 k i with
    | none => acc
    | some m => let r := readMatrix acc.2 k i m; (if r.1 then acc.1 ++ [i] else acc.1, r.2)) ([], s)

/-- The kept logsumexp values that a member reads (R112). -/
def memberLse (s : State) (m : Member) : List LseKey :=
  match memberProg s m with
  | some (_, p) =>
    let o := attOps p (p.word m.step)
    if opOf (p.word m.step) = some .attBwd ∧ !(bwdOf o.pb.bwd).lseSrc then (List.range o.n).map (fun i => (p.tenant, o.stream, o.layer, o.qpos + i)) else []
  | none => []

def readLse (s : State) (l : List LseKey) : Tab LseKey Lse × State :=
  l.foldl (fun (acc : Tab LseKey Lse × State) k =>
    match Tab.find acc.2.mem.lse k with
    | none => acc
    | some v =>
      let r := if v.poisoned then (true, acc.2) else readObject acc.2 (.lse k) ((v.place.map granBlocks).flatten)
      (Tab.put acc.1 k { v with poisoned := r.1 }, r.2)) ([], s)

/-- A read tile is young again and no longer protected (R169, R172). -/
def touchTile (s : State) (oid : Nat) : State :=
  match getTile s oid with
  | some t => putTile s oid { t with ageBase := s.time, protectUntil := none, unread := [] }
  | none => s

/-- The first read in T1 of what a fetch brought: where authentication fails, the replicas that remain are asked (R175). -/
def readFirst (s : State) (oid : Nat) : State :=
  match getTile s oid with
  | none => s
  | some t =>
    if t.unread = [] ∨ t.poisoned then s
    else
      let r := readBlocksFree s (tileFree t) (tileBlocks t)
      if r.1.bad ∨ !r.1.authBad then s else refetch (poisonOwner (bump r.2 (.tier 7)) (.tile oid)) oid t

/-! ### The next layer (R172) -/

/-- The layers that an instruction names, in its word or by what it points to. -/
def layersNamed (p : Prog) (w : Nat) : List Nat :=
  match opOf w with
  | some .attDec | some .attPre | some .attBwd | some .projKv | some .mm | some .tileAppend => [fld w 55 48]
  | some .tileSeal => if fbit w 0 then [] else [fld w 47 40]
  | some .prefetch => [fld w 47 40]
  | some .move => if funcOf w = 2 then [fld w 47 40] else [(loadDescOf (p.bytes (fld w 34 32))).layer]
  | some .nbAdam => if bitN w 48 then [] else [fld w 47 40]
  | some .nbEw | some .nbRope | some .nbQuant =>
    let t := p.trefs (fld w 34 32)
    ([t.1, t.2.1, t.2.2].filter (fun r => r.kind == 2 || r.kind == 3)).map TRef.layer
  | some .scrub =>
    let d := scrubDescOf (p.bytes (fld w 34 32))
    if (d.scope = 1 ∨ d.scope = 3) ∧ !d.allLayers then [d.layer] else []
  | _ => []

/-- The streams and ranges that an instruction names in a layer. -/
def rangesNamed (p : Prog) (w l : Nat) : List (Nat × Nat × Nat) :=
  if !(layersNamed p w).contains l then []
  else match opOf w with
  | some .attDec | some .attPre | some .attBwd => [(p.stream (fld w 33 32), fld w 79 56, fld w 103 80)]
  | some .prefetch => if fbit w 0 then [] else [(p.stream (fld w 33 32), fld w 71 48, fld w 95 72)]
  | some .tileSeal => [(p.stream (fld w 33 32), fld w 71 48, fld w 95 72)]
  | some .nbEw | some .nbRope | some .nbQuant =>
    let t := p.trefs (fld w 34 32)
    ([t.1, t.2.1, t.2.2].filter (fun r => r.kind == 2 && r.layer == l)).map (fun r => (r.stream, r.low, r.high))
  | some .scrub => let d := scrubDescOf (p.bytes (fld w 34 32)); if d.scope = 1 then [(d.stream, d.low, d.high)] else []
  | _ => []

/-- The default next layer of a stream. -/
def defaultLayer (s : State) (tenant stream n : Nat) : Nat :=
  let holds := (streamRuns s tenant stream 0 16777215).any (fun r => !(layerTiles r.2 (n + 1)).isEmpty)
  if n < 255 ∧ (holds ∨ s.mem.weights.any (fun w => w.1.1 == tenant && w.1.2.2 == n + 1)) then n + 1 else 0

/-- Fetches what the next layer of a program needs, at prefetch priority (R172). -/
def prefetchNext (s : State) (x : Ply) (p : Prog) (ms : List Member) : State :=
  let n := x.key.layer
  let first := (ms.map Member.step).foldl Nat.min ((ms.map Member.step).headD 0)
  let later := p.words.drop (first + 1)
  match later.findSome? (fun w => (layersNamed p w).find? (fun l => l != n)) with
  | some l =>
    let sets := (s.mem.weights.filter (fun w => w.1.1 == p.tenant && w.1.2.2 == l && p.words.any (fun v => p.wordSets v w.1))).map Prod.fst
    let s1 := sets.foldl (fun s k => fetchMats s .prefetch k (absentMats s k)) s
    ((p.words.map (fun w => rangesNamed p w l)).flatten).foldl (fun s r =>
      fetchTiles s .prefetch (remoteIn s p.tenant r.1 l r.2.1 r.2.2)) s1
  | none =>
    ms.foldl (fun s m => match m.stream with
      | none => s
      | some st =>
        let l := defaultLayer s p.tenant st n
        let sets := (s.mem.weights.filter (fun w => w.1.1 == p.tenant && w.1.2.2 == l)).map Prod.fst
        let s1 := sets.foldl (fun s k => fetchMats s .prefetch k (absentMats s k)) s
        if x.key.kind.reads then fetchTiles s1 .prefetch (remoteIn s1 p.tenant st l m.mask.low m.mask.high) else s1) s

/-- At the first ply of a layer for each program (R172). -/
def prefetchAfter (s : State) (x : Ply) : State :=
  (dedup (x.members.map Member.lsn)).foldl (fun s l =>
    match ctxOf s l with
    | none => s
    | some c => match getCtx s c with
      | none => s
      | some p =>
        if p.seenLayers.contains x.key.layer then s
        else prefetchNext (putCtx s c { p with seenLayers := p.seenLayers ++ [x.key.layer] }) x p (x.members.filter (fun m => m.lsn == l))) s

/-! ### PLY_ISSUE -/

/-- A ply issues: it resolves its runs, reads its objects once and takes its cores. -/
def plyGo (s : State) (i : Nat) (cores : List Nat) : State :=
  match Tab.find s.pg.plies i with
  | none => s
  | some x =>
    let runs := x.members.map (fun m => ((m.lsn, m.step), (memberRuns s x m).map (fun r => (⟨r.1.low, r.1.high, r.2.1.offset, r.2.1.borrowed, r.2.2⟩ : RunSnap))))
    let oids := plyTiles s x
    let mats := plyMats s x
    let r := readTiles s oids
    let l := readLse r.2 (dedup ((x.members.map (memberLse s)).flatten))
    let w := readMats l.2 (plySet x) mats
    let s1 := mats.foldl (fun s i => updMatrix s (plySet x) i (fun m => { m with protectUntil := none })) (oids.foldl touchTile w.2)
    let wait := match x.held with | some t => s1.time - t | none => 0
    let y := { x with issued := some s1.time, held := none, die := plyDie s x, cores := cores.filterMap (physCore s), runs := runs,
                      tiles := oids.filterMap (fun o => (getTile s1 o).map (fun t => (o, t))), bad := r.1, lse := l.1,
                      weights := getSet s1 (plySet x), badMats := w.1 }
    let s2 := { s1 with mem := { s1.mem with holdMax := Nat.max s1.mem.holdMax wait },
                        pg := { s1.pg with plies := Tab.put s1.pg.plies i y } }
    prefetchAfter s2 y

def plyIssueEffect (s : State) (i : Nat) (cores : List Nat) (flips : List Flip) : State :=
  match Tab.find s.pg.plies i with
  | none => s
  | some x =>
    if x.issued.isSome ∨ !serving s ∨ x.members = [] ∨ !coresFree s (plyDie s x) cores then s
    else
      let s := reach (applyFlips s flips) (plyDue s x)
      let ts := (plyTiles s x).filter (tileMissing s)
      let ms := (plyMats s x).filter (matMissing s (plySet x))
      if plyCommitHeld s x then holdPly s i
      else if ts ≠ [] ∨ ms ≠ [] then plyHoldFor s i x ts ms
      else
        -- an instruction that fails now leaves the ply before anything is read (R79, R96)
        let s := x.members.foldl (fun s m => plyDropFailing s i m) s
        match Tab.find s.pg.plies i with
        | none => requeueSeqs s
        | some x =>
          let s := (plyTiles s x).foldl readFirst s
          let ts := (plyTiles s x).filter (tileMissing s)
          requeueSeqs (if ts ≠ [] then plyHoldFor s i x ts [] else plyGo s i cores)

/-- PLY_ISSUE (R95 to R97, R172, R174). -/
def execPlyIssue (ply : Nat) (cores : List Nat) (flips : List Flip) (s : State) : Host.Outcome State Fault Refusal :=
  .next (plyIssueEffect s ply cores flips)

/-! ### Completion of attention members (R98, R99) -/

/-- The code of a head dimension (R33). -/
def dimCodeOf (d : Nat) : Nat := match d with | 64 => 0 | 96 => 1 | 128 => 2 | 192 => 3 | _ => 4

/-- The kept values of an instruction get their content (R107). -/
def fillKeeps (s : State) (c : Nat) (m : Member) (lse : List (List F32)) : State :=
  updCtx s c (fun p => { p with changes := p.changes.map (fun x => match x with
    | .lse j k v g e n => if j = m.step then .lse j k (lse.getD (k.2.2.2 - m.mask.first) v) g e n else x
    | _ => x) })

/-- The spans that a member sees: inline positions first (R88). -/
def memberSpans (x : Ply) (m : Member) : List Span := inlineSpans m.inl ++ runSpans x.tiles (Tab.get x.runs [] (m.lsn, m.step))

/-- One of the tiles that a member would read is poisoned (R98, R99). -/
def memberBad (x : Ply) (m : Member) : Bool := (Tab.get x.runs [] (m.lsn, m.step)).any (fun r => r.tiles.any (fun o => x.bad.contains o))

/-- What the arithmetic needs of a member. -/
def attIn (p : Prog) (o : AttOps) (m : Member) (sps : List Span) : AttIn :=
  let d := (o.dim p).getD 0
  { pb := o.pb, d := d, qh := o.pb.qheads, kvh := ((sps.map (fun sp => sp.tile.heads)).headD 0), mask := m.mask,
    qs := (chunks (o.pb.qheads * d) (p.vals o.qBuf)).map (headsOf o.pb.qheads d) }

/-- The header of a record of an attention instruction (R45). -/
def attHead (p : Prog) (k : Nat) (o : AttOps) (flags d : Nat) (b : Nat × Nat) (i : Nat) : RecHead :=
  { program := p.id, step := k, level := b.1, flags := flags, index := b.2, heads := o.pb.qheads, tenant := p.tenant, layer := o.layer,
    dim := dimCodeOf d, stream := o.stream, qpos := o.qpos + i }

/-- The cluster that ran most of a ply: with the most of its cores (R386). -/
def plyCluster (x : Ply) : Nat :=
  let on := fun (c : Nat) => (x.cores.filter (fun n => n / 9 == c)).length
  (List.range 8).foldl (fun a c => if on a < on c then c else a) 0

/-- What each query position of a member yields, by its index (R92, R93). -/
def attOuts (x : Ply) (p : Prog) (m : Member) : List (Nat × QueryOut) :=
  let o := attOps p (p.word m.step)
  let sps := memberSpans x m
  (List.range m.count).map (fun i => (i, queryOut (attIn p o m sps) o.openEnd sps i))

/-- The partial records of a member: for each query position those of its blocks (R45, R260). -/
def attRecords (x : Ply) (p : Prog) (m : Member) : List (List Byte) :=
  let o := attOps p (p.word m.step)
  let head := attHead p m.step o (partialFlags o.pb.obf16 o.pb.final) ((o.dim p).getD 0)
  ((attOuts x p m).map (fun q => q.2.blocks.map (fun b => partialRecord (head b.1 q.1) o.pb.obf16 b.2))).flatten

def attDone (s : State) (x : Ply) (c : Nat) (p : Prog) (m : Member) : State :=
  let k := m.step
  if memberBad x m then endStep s c k (stTilePoisoned, 0)
  else
    let o := attOps p (p.word k)
    let outs := attOuts x p m
    let recs := attRecords x p m
    let ovr := if o.pb.obf16 then sumBy (fun q => sumBy (fun b => sumBy (fun (y : Partial) => plainSat 1 y.o) b.2) q.2.blocks) outs else 0
    let s1 := addCtr s .coreSat (sumBy (fun q => q.2.sat) outs + ovr)
    let s2 := fillKeeps s1 c m (outs.map (fun q => q.2.lse))
    finishStep (placeRecords s2 c o.outBuf recs (fun s rs => emitPly s c k true (plyCluster x) rs)) c k (stOk, 0)

/-- The further operands of a backward member (R110, R112); λ from the buffer or as the ply read it. -/
def bwdIn (x : Ply) (p : Prog) (o : AttOps) (d : Nat) : BwdIn :=
  let b := bwdOf o.pb.bwd
  let qh := o.pb.qheads
  let rows := fun (buf : Nat) => (chunks (qh * d) (p.vals buf)).map (headsOf qh d)
  let dos := (rows b.doBuf).map (fun r => r.map (fun v => v.map nanOf))
  let ds := if b.dSrc then chunks qh (p.vals b.odBuf)
    else List.zipWith (fun (dr : List (List F32)) (orow : List (List F32)) => List.zipWith (fun a z => tree (List.zipWith fmul a z)) dr orow) dos (rows b.odBuf)
  let lam := if b.lseSrc then chunks qh (p.vals b.lseBuf)
    else (List.range o.n).map (fun i => ((Tab.find x.lse (p.tenant, o.stream, o.layer, o.qpos + i)).map Lse.vals).getD [])
  ⟨b, dos, ds, lam⟩

def bwdDone (s : State) (x : Ply) (c : Nat) (p : Prog) (m : Member) : State :=
  let k := m.step
  let o := attOps p (p.word k)
  let b := bwdOf o.pb.bwd
  let lseBad := !b.lseSrc && (List.range o.n).any (fun i => ((Tab.find x.lse (p.tenant, o.stream, o.layer, o.qpos + i)).map Lse.poisoned).getD false)
  let sps := memberSpans x m
  let a := attIn p o m sps
  let y := bwdIn x p o a.d
  let segs := bwdSegs a y sps
  let snaps := Tab.get x.runs [] (m.lsn, k)
  let recs := ((List.range m.count).map (fun i =>
    let hs := (List.range a.qh).map (fun h => dqBlocks a o.openEnd snaps segs.1 i h)
    (List.zip (List.range (a.mask.cover o.openEnd).length) (a.mask.cover o.openEnd)).map (fun b => (i, b.2, hs.map (fun h => ((h.getD b.1 (b.2, zeroVec a.d))).2))))).flatten
  let gs := tileGrads a y sps segs.1
  let fmt := gradFmt b.dkvFmt
  let key := fun (g : TileGrads) => g.key p.tenant (o.gset p)
  -- a poisoned gradient tile stops it too (R120); what the units read there they check themselves
  let spoilt := memberBad x m || lseBad || gs.any (fun g => ((getGrad s (key g)).map GradCell.poisoned).getD false)
  match firstOf (gradRoomChecks s p.lsn p.tenant (o.gset p) fmt (gs.map TileGrads.tile) ++ [(spoilt, (stTilePoisoned, 0))]) with
  | some r => endStep s c k r
  | none =>
    let sat := segs.2 + sumBy (fun r => gradRecordSat b.dqFmt r.2.2 + (if b.dqFmt = 1 then sumBy (plainSat 1) r.2.2 else 0)) recs
    let bytes := recs.map (fun r => gradRecord (attHead p k o (gradFlags b.dqFmt) a.d r.2.1 r.1) b.dqFmt r.2.2)
    let parts := gs.map (fun g => (⟨key g, (getGrad s (key g)).bind GradCell.pending, g.slots⟩ : TileJob))
    let s1 := openGrads (addCtr s .coreSat sat) p.lsn (gs.map (fun g => (key g, gradOpen (seenGrad s p.lsn (key g)) g.tile true true fmt)))
    let s2 := updCtx s1 c (fun p => { p with steps := p.steps.set k { p.step k with outs := some ⟨o.outBuf, plyCluster x, bytes, false⟩ } })
    -- the near-bank units add and requantize; the records go out when they are done (R118, R184, R250)
    issueJob s2 c k (.tiles fmt b.accum parts)

/-! ### Completion of projections and products (R122 to R125, R273) -/

/-- The outputs of the rows of an instruction for one matrix. -/
def projOut (o : ProjOps) (ws : WeightSet) (rows : List (List QDom)) (i : Nat) : List (List F32) :=
  match Tab.find ws.mats i with
  | some m => match m.cur with
    | some b => rows.map (fun r => projRow o.afmt r b m.bias)
    | none => rows.map (fun _ => [])
  | none => rows.map (fun _ => [])

/-- Every head of a row rotated at a position (R89, R123). -/
def rotHeads (rope : Rope) (d pos : Nat) (row : List F32) : List F32 := ((chunks d row).map (rot rope (pos : Int))).flatten

def projDone (s : State) (x : Ply) (c : Nat) (p : Prog) (m : Member) : State :=
  let k := m.step
  let o := projOps p (p.word k)
  match x.weights with
  | none => endStep s c k (refusedWith scWeightSetAbsent)
  | some ws =>
    if ws.state = .unavailable ∨ o.sel.any (fun i => x.badMats.contains i) then endStep s c k (stWeightsPoisoned, 0)
    else
      let ld := (chunks ws.dModel (p.vals o.xBuf)).map (loadRow o.afmt)
      let s1 := addCtr s .coreSat (sumBy Prod.snd ld)
      let out := projOut o ws (ld.map Prod.fst)
      let ys := fun (i : Nat) => if o.sel.contains i then out i else ld.map (fun _ => [])
      let app := projAppend s1 p c o (((ys 0).head?.map List.length).getD 0)
      let d := projDim s1 p c o (((ys 2).head?.map List.length).getD 0)
      let q := if o.rotate then List.zipWith (fun i r => rotHeads ((p.pblock o.pbBuf).rope d) d (o.t0 + i) r) (List.range (ys 2).length) (ys 2) else ys 2
      let dk := headDim app.f.dimCode
      let krot := if o.rotate ∧ o.append then
          List.zipWith (fun i r => rotHeads ((p.pblock o.pbBuf).rope dk) dk (o.t0 + i) r) (List.range (ys 0).length) (ys 0)
        else ys 0
      let rows := if o.append then q else List.zipWith (fun a b => a ++ b) (List.zipWith (fun a b => a ++ b) (ys 0) (ys 1)) q
      if !o.append then
        let fmt := (p.buf o.yBuf).fmt
        finishStep (addCtr (updCtx s1 c (fun p => p.writeBuf o.yBuf (valBytes fmt rows.flatten))) .coreSat (plainSat fmt rows.flatten)) c k (stOk, 0)
      else
        let s2 := fillAppend s1 c app (krot.map (headsOf app.f.heads dk)) ((ys 1).map (headsOf app.f.heads dk))
        let fmt := (p.buf o.yBuf).fmt
        let out : StepOut := ⟨o.yBuf, 0, [valBytes fmt rows.flatten], true⟩
        let s3 := if o.selQ then
            addCtr (updCtx s2 c (fun p => { p with steps := p.steps.set k { p.step k with outs := some out } })) .coreSat (plainSat fmt rows.flatten)
          else s2
        match getCtx s3 c with
        | none => s3
        | some p3 => bankReady (issueAppend s3 c k p3 app) c k false

def projGradDone (s : State) (c : Nat) (p : Prog) (m : Member) : State :=
  let k := m.step
  let o := projOps p (p.word k)
  let key := o.key p
  let src := dySource s p o
  let bad := src.tiles.foldl (fun (acc : Bool × State) g => let r := readGrad acc.2 g; (acc.1 || r.1, r.2)) (false, s)
  let mats := o.sel.filterMap (fun i => (curMat s key i).map (fun x => (i, x)))
  let numbers := sumBy (fun x => match getSet s key with | some w => areaSeqs w x.2 | none => 0) mats
  match firstOf
    [(setAbsent s key || decide (mats.length ≠ o.sel.length), refusedWith scWeightSetAbsent),
     (dyShort src, refusedWith scShapeInvalid),
     (dyShape s key o src, refusedWith scWeightShape),
     ((match getSet s key with | some q => q.gradHolder.any (fun l => l != p.lsn) | none => false), refusedWith scGradSetBusy),
     (nonceSpent s p.tenant numbers, refusedWith scNonceSpent),
     (bad.1, (stTilePoisoned, 0)),
     (setIs s key .unavailable, (stWeightsPoisoned, 0))] with
  | some r => finishStep bad.2 c k r
  | none =>
    let xs := chunks (setCols s key) (p.vals o.xBuf)
    let made := mats.map (fun im => (im, weightGrad o.gfmt xs ((src.of im.1).filterMap id) im.2.rows (setCols s key)))
    let fmt := fun (im : Nat × Matrix) => ((seenArea s p.lsn key im.2).map MatBody.fmt).getD (gradFmt (Config.gradAreaFmt % 4))
    let parts := made.map (fun y => (⟨y.1.1, fmt y.1, y.2.1, if y.1.2.bias = [] then [] else y.2.2.1⟩ : MatJob))
    let s1 := mats.foldl (fun s im => beginArea s c key im.1) (addCtr bad.2 .coreSat (sumBy (fun y => y.2.2.2) made))
    issueJob s1 c k (.mats o.accum key parts)

def mmDone (s : State) (x : Ply) (c : Nat) (p : Prog) (m : Member) : State :=
  let k := m.step
  let o := mmOps p (p.word k)
  match x.weights with
  | none => finishStep s c k (refusedWith scWeightSetAbsent)
  | some ws =>
    if ws.state = .unavailable ∨ x.badMats.contains o.mat then finishStep s c k (stWeightsPoisoned, 0)
    else
      match (Tab.find ws.mats o.mat).bind Matrix.cur with
      | none => finishStep s c k (refusedWith scWeightShape)
      | some b =>
        let n := if o.trans then b.rows.length else ws.dModel
        let y := mmResult o ws.dModel b (chunks n (p.vals o.aBuf))
        let fmt := (p.buf o.cBuf).fmt
        let s1 := addCtr s .coreSat (y.2 + plainSat fmt y.1)
        finishStep (updCtx s1 c (fun p => p.writeBuf o.cBuf (valBytes fmt y.1))) c k (stOk, 0)

/-! ### PLY_COMPLETE -/

/-- What the completed ply makes of one of its instructions. -/
def memberOutcome (s : State) (x : Ply) (c : Nat) (p : Prog) (m : Member) : State :=
  let w := p.word m.step
  match opOf w with
  | some .attBwd => bwdDone s x c p m
  | some .projKv => if fbit w 0 then projGradDone s c p m else projDone s x c p m
  | some .mm => mmDone s x c p m
  | _ => attDone s x c p m

/-- One instruction of a completed ply comes to its outcome (R98, R99). Past the deadline only a failure that ends the program counts (R7,
R242). -/
def memberDone (x : Ply) (s : State) (m : Member) : State :=
  match memberProg s m with
  | none => s
  | some (c, p) =>
    if (p.step m.step).phase ≠ .running then s
    else
      let t := memberOutcome s x c p m
      if deadlinePassed s p && !failedAt t p.lsn m.step then s else t

/-- The programs of a completed ply whose deadline has passed before a failure ended them are LATE (R99, R242). -/
def memberLate (s : State) (m : Member) : State :=
  match memberProg s m with
  | none => s
  | some (c, p) => if (p.step m.step).phase = .running ∧ deadlinePassed s p then endProg s c ⟨stLate, 0, 0xFFFF⟩ else s

def delPly (s : State) (i : Nat) : State := { s with pg := { s.pg with plies := Tab.del s.pg.plies i } }

/-- The members in the order of their steps: the lowest failing step governs (R239). -/
def plyCompleteEffect (s : State) (i : Nat) : State :=
  match Tab.find s.pg.plies i with
  | none => s
  | some x =>
    if x.issued.isNone ∨ !running s then s
    else
      let ms := sortBy (fun a b => decide (a.step ≤ b.step)) x.members
      requeueSeqs (ms.foldl memberLate (ms.foldl (memberDone x) (delPly s i)))

/-! ### PREFETCH_PROTECT_EXPIRY -/

def protectExpiryEffect (s : State) (obj : Nat) : State :=
  match s.mem.tiles.find? (fun t => t.2.objKey == obj && t.2.protectUntil.isSome) with
  | some (o, t) => putTile (reach s (t.protectUntil.getD 0)) o { t with protectUntil := none }
  | none =>
    let all := (s.mem.weights.map (fun w => w.2.mats.map (fun m => (w.1, m.1, m.2)))).flatten
    match all.find? (fun x => x.2.2.protectUntil.isSome && (x.2.2.backing.map Prod.fst) == some obj) with
    | some (k, i, m) => updMatrix (reach s (m.protectUntil.getD 0)) k i (fun m => { m with protectUntil := none })
    | none => s

/-- PREFETCH_PROTECT_EXPIRY (R172). -/
def execPrefetchProtectExpiry (obj : Nat) (s : State) : Host.Outcome State Fault Refusal := .next (protectExpiryEffect s obj)

/-! ### SRAM_UNCORRECTABLE (R216, R437) -/

/-- Ends every instruction of plies with ABORTED_FAULT. -/
def abortPlies (s : State) (p : Nat → Bool) : State :=
  let hit := (issuedPlies s).filter (fun x => p x.1)
  let ms := (hit.map (fun x => x.2.members)).flatten
  let s1 := hit.foldl (fun s x => delPly s x.1) s
  finishSteps s1 (ms.map (fun m => (m.lsn, m.step, (stAbortedFault, 0))))

/-- The issued plies that use a line of a core's or cluster's SRAM, or of a die's, for each that the line may hold data of: a ply's T0 data, a
program's data section (R216, R228). -/
def lineUsers (s : State) (place : SramPlace) : List (List Nat) :=
  let of := fun (f : Ply → Bool) => ((issuedPlies s).filter (fun x => f x.2)).map Prod.fst
  match place with
  | .core c p => (of (fun x => x.cores.contains (9 * c + p))).map (fun i => [i])
  | .cluster c => (of (fun x => x.cores.any (fun n => n / 9 == c))).map (fun i => [i])
  | .dieData d => (of (fun x => x.die == d)).map (fun i => [i]) ++
      (s.pg.ctxs.vals.filter (fun p => p.die == d && p.place == [])).map (fun p => of (fun x => x.members.any (fun m => m.lsn == p.lsn)))
  | .dieMeta _ => []

/-- Whose data the line holds, or nobody's, is free (log 68). -/
def abortLine (s : State) (place : SramPlace) : State :=
  let us := lineUsers s place
  let n := drawPick s (us.length + 1)
  abortPlies n.2 (us.getD n.1 []).contains

def sramEffect (s : State) (place : SramPlace) : State :=
  if !running s then s
  else
    let s1 := addHealth s true 4096
    match place with
    | .core c p =>
      let s2 := abortLine s1 place
      let ts := s2.time :: (Tab.get s2.cores.sramErr [] (c, p)).filter (fun t => decide (s2.time ≤ t + s2.cores.retireWindow * 1000000000))
      let s3 := { s2 with cores := { s2.cores with sramErr := Tab.put s2.cores.sramErr (c, p) ts } }
      if 2 ≤ ts.length then retireCore s3 c p 2 else s3
    | .cluster _ | .dieData _ => abortLine s1 place
    | .dieMeta _ => controlReset s1 0x24

/-- SRAM_UNCORRECTABLE (R216). -/
def execSramUncorrectable (place : SramPlace) (s : State) : Host.Outcome State Fault Refusal := .next (sramEffect s place)

end Sys2Proof.Machine
end

