-- ==== Sys2Proof/Machine/Pool.lean ====
section
/-! DEFINITION. The tiers at work: drains, copies, evictions, moves, fetches and their failures, TIER messages, the pool role,
migration proposals (02 R41, 07 R161 to R180, 09 R215, 12 R301, 15 R375, R376, 16 R408). -/

namespace Sys2Proof.Machine
open Sys2Proof

/-! ### READS_DRAINED (R41, R129, R135, R161) -/

def readsDrainedEffect (s : State) (i : Nat) : State :=
  match Tab.find s.mem.drains i with
  | none => s
  | some d =>
    if d.plies.any (fun p => ((Tab.find s.pg.plies p).map (fun x => x.issued.isSome)).getD false) then s
    else
      let s1 := { s with mem := { s.mem with drains := Tab.del s.mem.drains i } }
      match d.desc with | some k => delDesc s1 k | none => s1

/-- READS_DRAINED (R41): the last read issued before has completed. -/
def execReadsDrained (drain : Nat) (s : State) : Host.Outcome State Fault Refusal := .next (readsDrainedEffect s drain)

/-! ### Copies, eviction, moves -/

def copyStartEffect (s : State) (oid : Nat) : State :=
  match getTile s oid with
  | none => s
  | some t =>
    if !running s ∨ !copyDue s t then s
    else
      -- the copy is read from T1 under the integrity code
      let r := readTile s oid
      if r.1 then r.2 else startCopy r.2 oid

/-- T2_COPY_START (R163, R164). -/
def execT2CopyStart (tile : Nat) (s : State) : Host.Outcome State Fault Refusal := .next (copyStartEffect s tile)

def copyTimeoutEffect (s : State) (oid node : Nat) : State :=
  match getTile s oid with
  | none => s
  | some t =>
    match t.replicas.find? (fun r => r.node == node && !r.acked) with
    | none => s
    | some r => resendTile (reach s (r.at' + 2000000)) oid node

/-- T2_COPY_TIMEOUT (R164). -/
def execT2CopyTimeout (tile target : Nat) (s : State) : Host.Outcome State Fault Refusal := .next (copyTimeoutEffect s tile target)

/-- Below the low watermark the node evicts, oldest first, up to the high one (R170). -/
def evictionEffect (s : State) (die : Nat) : State :=
  if !running s ∨ lowMark s die ≤ freePool s die then s
  else evictUntil (tileCount s) s (fun t => match t.body with | g :: _ => decide (granDie g = die) | [] => false)
    (fun s => decide (highMark s die ≤ freePool s die))

/-- EVICTION (R169, R170). -/
def execEviction (die : Nat) (s : State) : Host.Outcome State Fault Refusal := .next (evictionEffect s die)

def interDieMoveEffect (s : State) (oid : Nat) : State :=
  match getTile s oid with
  | none => s
  | some t =>
    if !running s ∨ t.body = [] then s
    else
      let r := readTile s oid
      if r.1 then r.2 else moveTile r.2 oid

/-- INTER_DIE_MOVE (R161). -/
def execInterDieMove (tile : Nat) (s : State) : Host.Outcome State Fault Refusal := .next (interDieMoveEffect s tile)

/-! ### What becomes of a fetch (R165, R175 to R178, R301, R408) -/

/-- The instructions of plies being formed that read matrices of a set complete with WEIGHTS_POISONED, held ones included (R176). -/
def failWeightMembers (s : State) (k : SetKey) : State :=
  let ps := s.pg.plies.vals.filter (fun x => x.issued.isNone && decide ((x.key.kind = .projection ∨ x.key.kind = .matrix) ∧ plySet x = k))
  let ms := ((ps.map Ply.members).flatten).filter (fun m => match memberProg s m with | some cp => matsOf cp.2 (cp.2.word m.step) != [] | none => false)
  let s1 := dropMembers s (fun m => ms.any (fun y => y.lsn == m.lsn && y.step == m.step))
  finishSteps s1 (ms.map (fun m => (m.lsn, m.step, (stWeightsPoisoned, 0))))

/-- What came of a WFETCH takes the place that the instruction holds among its program's changes (R235). -/
def Prog.fillFetch (p : Prog) (obj : Nat) (x : List Change) : Prog :=
  { p with changes := (p.changes.map (fun c => match c with
      | .fetch _ _ 0 m => if m.backing.map Prod.fst = some obj then x else [c]
      | _ => [c])).flatten }

/-- The WFETCH that waits for an object completes. -/
def waiterDone (s : State) (w : Nat × Nat) (obj : Nat) (x : List Change) (r : Compl) : State :=
  match ctxOf s w.1 with | some c => finishStep (updCtx s c (fun p => p.fillFetch obj x)) c w.2 r | none => s

/-- Every replica failed, with poison from each that answered (R176, R301). -/
def fetchLost (s : State) (f : Fetch) : State :=
  match f.obj, f.waiter with
  | .tile o, _ => tileLostAll s o
  | .weight _ _ _, some w => waiterDone s w f.key [] (stWeightsPoisoned, 0)
  | .weight k _ _, none => failWeightMembers (weightsLostAll s k) k
  | _, _ => s

/-- What follows from a failure of a fetch `f`. -/
def fetchFailed (f : Fetch) (e : FetchEnd) (s : State) : State :=
  match e with
  | .poisonedAll => fetchLost s f
  | .stalled => if f.round = 0 then raiseEvent s evFetchStalled (stalledPayload s f) else s
  | _ => s

/-- The matrix that a weight object makes, encrypted anew under the current epoch (R408). -/
def matrixOf (s : State) (k : SetKey) (f : Fetch) (o : WeightObj) : Matrix × State :=
  let n := o.rowsN * (rowGroups o.dModel).length
  let c := takeRecs s k.1 n
  let g := takeGrans c.2 (setDie c.2 k) (matGranules o.body.fmt o.rowsN o.dModel (o.bias != []))
  ({ Matrix.empty with cur := some o.body, bias := o.bias, recs := [(0, c.1.run n)], place := g.1, backing := some (f.key, f.replicas),
                       backEpoch := leAt (Tab.get f.got [] 0) 4 2, loadedAt := s.time,
                       protectUntil := if f.protect then some (s.time + 10000000) else none }, g.2)

/-- The copy in T1 of a backed matrix that is to be replaced leaves, so that its granules make room (R178). -/
def leaveCopy (s : State) (k : SetKey) (mat : Nat) : State :=
  match (getSet s k).bind (fun w => Tab.find w.mats mat) with
  | none => s
  | some m => drainWeights (updMatrix s k mat (fun x => { x with present := false, place := [] })) k m.place

/-- A whole weight object has come and is authentic: WFETCH prepares the matrix, another fetch puts it in place (R171, R178, R301); what came under
an epoch that is no longer current is encrypted anew, and so no longer backed (R411). That an object which names another MATRIX than the load
descriptor ends its WFETCH with SHAPE_INVALID is the model's choice (DESIGN CHOICE, log 92). -/
def weightsInstall (s : State) (f : Fetch) (k : SetKey) (mat : Nat) (o : WeightObj) : State :=
  let s0 := delFetch s f.key
  let n := matGranules o.body.fmt o.rowsN o.dModel (o.bias != [])
  let shapeOff := decide (o.matrix ≠ mat) ||
    (match getSet s k with | some w => w.mats.any (fun m => m.1 != mat && m.2.cur.isSome) && decide (w.dModel ≠ o.dModel) | none => false)
  match f.waiter with
  | some w =>
    let spent := nonceSpent s k.1 (o.rowsN * (rowGroups o.dModel).length)
    match firstOf ([(shapeOff, refusedWith scShapeInvalid), (spent, refusedWith scNonceSpent)] ++ setRoomChecks s0 k n) with
    | some r => waiterDone s0 w f.key [] r
    | none => let m := matrixOf (reserveFor s0 k n) k f o; waiterDone m.2 w f.key [.fetch k mat o.dModel m.1] (stOk, 0)
  | none =>
    let room := roomForSet (leaveCopy s0 k mat) k n
    if room.1.isSome then room.2
    else
      let m := matrixOf room.2 k f o
      let old := decide (m.1.backEpoch ≠ ((getTenant s k.1).current.map Key.epoch).getD 0)
      updMatrix m.2 k mat (fun x => { m.1 with load := x.load, backing := if old then none else m.1.backing })

/-- A fetch of weights has all the pieces it asked for: the header tells how many follow (R408). -/
def weightsFetched (s : State) (f : Fetch) (k : SetKey) (mat : Nat) : State :=
  let h := Tab.get f.got [] 0
  let fail := fun (s : State) => let r := fetchAttemptFails s f.key true; fetchFailed f r.1 r.2
  match keyOf s k.1 (leAt h 4 2) with
  | none =>
    let s1 := delFetch s f.key
    match f.waiter with
    | some w => waiterDone s1 w f.key [] (stWeightsPoisoned, 1)
    | none => failWeightMembers (weightsLostAll s1 k) k
  | some key =>
    if f.pieces = 1 then
      let n := hw h 0x10
      if h.length ≠ 64 ∨ n = 0 then fail s
      else
        let f1 := { f with pieces := n + 1, asked := s.time }
        askPieces (putFetch s f.key f1) f1 f.cur ((List.range n).map (· + 1))
    else
      let b := fetchBytes f
      match openWeights key.key b.1 b.2 with
      | none => fail s
      | some o => weightsInstall s f k mat o

/-- What something that happened to the fetch of an object leads to. -/
def fetchOutcome (s : State) (key : Nat) (r : FetchEnd × State) : State :=
  match Tab.find s.mem.fetches key with
  | none => r.2
  | some f0 =>
    match r.1, Tab.find r.2.mem.fetches key with
    | .complete, some f =>
      match f.obj with
      | .tile o => let t := tileFetched r.2 key o f; fetchFailed f t.1 t.2
      | .weight k m _ => weightsFetched r.2 f k m
      | _ => delFetch r.2 key
    | e, _ => fetchFailed f0 e r.2

def fetchTimeoutEffect (s : State) (key : Nat) : State :=
  match Tab.find s.mem.fetches key with
  | none => s
  | some f => if f.retryAt.isSome then s else let s1 := reach s (f.asked + 500000); fetchOutcome s1 key (fetchAttemptFails s1 key false)

/-- FETCH_ATTEMPT_TIMEOUT (R175). -/
def execFetchAttemptTimeout (obj : Nat) (s : State) : Host.Outcome State Fault Refusal := .next (fetchTimeoutEffect s obj)

/-- An instruction of the node depends on the object (R177). -/
def dependsOn (s : State) (f : Fetch) : Bool :=
  match f.obj, f.waiter with
  | _, some w => (ctxOf s w.1).isSome
  | .tile o, none => formingReads s o
  | .weight k m _, none => s.pg.plies.vals.any (fun x => x.issued.isNone && decide (plySet x = k) && (plyMats s x).contains m)
  | _, _ => false

/-- A fetch that nothing needs any more is given up; its tile is REMOTE again (R177; DEDUCED, log 32). -/
def giveUp (s : State) (f : Fetch) : State :=
  let s1 := delFetch s f.key
  match f.obj with
  | .tile o => match getTile s1 o with
    | some t => if t.tier = .fetching then putTile s1 o { t with tier := .remote, body := [] } else s1
    | none => s1
  | _ => s1

def fetchRetryEffect (s : State) (key : Nat) : State :=
  match Tab.find s.mem.fetches key with
  | none => s
  | some f => match f.retryAt with
    | none => s
    | some t => let s1 := reach s t; if dependsOn s1 f then fetchAgain s1 key else giveUp s1 f

/-- FETCH_RETRY_ROUND (R177). -/
def execFetchRetryRound (obj : Nat) (s : State) : Host.Outcome State Fault Refusal := .next (fetchRetryEffect s obj)

/-! ### TIER messages (R375, R376) -/

/-- The header of a TIER message from its bytes. -/
structure TierMsg where
  op : Nat
  result : Nat
  granules : Nat
  obj : Nat
  first : Nat
  req : Nat
  body : List Byte
  deriving DecidableEq, Repr

def tierMsgOf (b : List Byte) : TierMsg := ⟨leAt b 0 1, leAt b 1 1, leAt b 4 4, leAt b 8 8, leAt b 16 4, leAt b 24 8, b.drop 32⟩

/-- Granules that POOL_SERVE leaves for one more object on a die (R376). -/
def poolRoom (s : State) (die n : Nat) : Bool :=
  let used := sumBy (fun o => o.1.length) s.fab.poolObjs.vals
  decide (n ≤ freePool s die) && (decide (s.fab.poolLimit = 0) || decide (used + n ≤ s.fab.poolLimit * 2 ^ 21))

/-- The tenant of an object that travels with a tile's header block or a gradient tile's; a weight object, whose header holds 0 where theirs hold an
epoch, does not name one (R33, R117, R408). -/
def imageTenant (h : List Byte) : Option Nat :=
  if (leAt h 0 1 % 16 = 1 ∨ leAt h 0 1 % 16 = 2) ∧ leAt h 6 2 ≠ 0 then some (leAt h 4 2 % 4096) else none

/-- The tenant of an object that this node stores or serves (R350). -/
def objTenant (s : State) (obj : Nat) : Option Nat :=
  match Tab.find s.fab.poolObjs obj with
  | some (_, data) => if data.length % 512 = 64 then imageTenant data else none
  | none => (Tab.find s.fab.served obj).map Prod.fst

/-- An answer to a TIER message, in the class of served transfers, in the queue of the object's tenant; where the object does not show it, of
the message's; a free one where neither is known (R348, R350, log 71). -/
def tierAnswer (s : State) (node : Nat) (tenant msg : Option Nat) (bytes : List Byte) : State :=
  match tenant.or msg with
  | some t => sendTier s node t s.tr.origServe bytes
  | none => let r := drawPick s 4096; sendTier r.2 node r.1 r.2.tr.origServe bytes

/-- A PUT is stored whole, each piece in a granule of its own (R376, log 8). -/
def tierPutEffect (s : State) (node : Nat) (tenant : Option Nat) (b : List Byte) : State :=
  let m := tierMsgOf b
  if m.op ≠ 1 ∨ b.length < 32 ∨ !running s then s
  else
    let answer := fun (s : State) (res : Nat) => tierAnswer s node (imageTenant m.body) tenant (tierHeader 2 res m.granules m.obj 0 m.req)
    let pieces := (cutPieces m.body).map checkPiece
    let n := pieces.length
    let die := roomierDie s
    if effRole s ≠ rolePool then answer s 4
    else if (Tab.find s.fab.poolObjs m.obj).isSome then answer s 3
    else if pieces.any Option.isNone ∨ n ≠ m.granules ∨ n = 0 then answer s 4
    else if !poolRoom s die n then answer s 2
    else
      let g := takeGrans s die n
      let data := (pieces.map (fun p => p.getD [])).flatten
      answer { g.2 with fab := { g.2.fab with poolObjs := Tab.put g.2.fab.poolObjs m.obj (g.1, data) } } 0

/-- TIER_PUT (R376). -/
def execTierPut (node : Nat) (bytes : List Byte) (s : State) : Host.Outcome State Fault Refusal := .next (whilePlaced s node (fun s => tierPutEffect s node none bytes))

/-- The tenant's slot is a TOMBSTONE: answers for its objects are discarded (R413). -/
def gone (s : State) (t : Nat) : Bool := decide ((getTenant s t).state = .tombstone)

/-- Acknowledgements of copies: anything but OK and EXISTS counts as missing at once (R164, R376). -/
def tierPutAckEffect (s : State) (node : Nat) (b : List Byte) : State :=
  let m := tierMsgOf b
  if m.op ≠ 2 ∨ b.length < 32 ∨ !running s then s
  else match s.mem.tiles.find? (fun t => t.2.objKey == m.obj && t.2.replicas.any (fun r => r.node == node && !r.acked)) with
    | none =>
      -- a cancelled copy's replica is released once it is known to be written (R166)
      match s.mem.cancelled.find? (fun x => x.2.1 == m.obj && x.2.2 == node) with
      | none => s
      | some x =>
        if gone s x.1 then s
        else
        let s1 := { s with mem := { s.mem with cancelled := s.mem.cancelled.filter (· != x) } }
        if m.result = 0 ∨ m.result = 3 then releaseReplicas s1 x.1 m.obj [node] else s1
    | some (o, t) => if gone s t.tenant then s else if m.result = 0 ∨ m.result = 3 then replicaAcked s o node else resendTile s o node

/-- TIER_PUT_ACK (R164, R165). -/
def execTierPutAck (node : Nat) (bytes : List Byte) (s : State) : Host.Outcome State Fault Refusal := .next (whilePlaced s node (fun s => tierPutAckEffect s node bytes))

/-- A stored piece as it leaves: what was written with the differences that the stack holds by now (R215). -/
def storedPiece (s : State) (g : Gran) (data : List Byte) : List Byte :=
  let bs := (List.range (data.length / 64)).map (fun i =>
    let d := ErrTab.read s.mem.err (blockNo g.1 g.2 i)
    let x := BitVec.ofNat 512 (leAt data (64 * i) 64)
    (x ^^^ d.data, BitVec.ofNat 64 (eccCheck x).toNat ^^^ d.check))
  (bs.map (fun x => leBytes 64 x.1.toNat)).flatten ++ (bs.map (fun x => leBytes 8 x.2.toNat)).flatten

/-- The pieces that a GET finds: of a stored object, read under the integrity code, or of a hand-over (R376, R380). -/
def servedPieces (s : State) (obj : Nat) : Option (List (List Byte)) × State :=
  match Tab.find s.fab.poolObjs obj with
  | some (gs, data) =>
    let r := readBlocks s ((gs.map granBlocks).flatten)
    (some ((List.zip gs (storedPieces data)).map (fun x => storedPiece r.2 x.1 x.2)), r.2)
  | none => ((Tab.find s.fab.served obj).map (fun x => cutPieces x.2), s)

def tierGetEffect (s : State) (node : Nat) (tenant : Option Nat) (b : List Byte) : State :=
  let m := tierMsgOf b
  if m.op ≠ 3 ∨ b.length < 32 ∨ !running s then s
  else
    let r := servedPieces s m.obj
    match r.1 with
    | none => tierAnswer r.2 node none tenant (tierHeader 4 1 0 m.obj m.first m.req)
    | some ps =>
      let out := (ps.drop m.first).take m.granules
      tierAnswer r.2 node (objTenant s m.obj) tenant (tierHeader 4 0 out.length m.obj m.first m.req ++ out.flatten)

/-- TIER_GET (R376). -/
def execTierGet (node : Nat) (bytes : List Byte) (s : State) : Host.Outcome State Fault Refusal := .next (whilePlaced s node (fun s => tierGetEffect s node none bytes))

def tierReleaseEffect (s : State) (node : Nat) (tenant : Option Nat) (b : List Byte) : State :=
  let m := tierMsgOf b
  if m.op ≠ 5 ∨ b.length < 32 ∨ !running s then s
  else
    let held := (Tab.find s.fab.poolObjs m.obj).isSome
    let s1 := { s with fab := { s.fab with poolObjs := Tab.del s.fab.poolObjs m.obj } }
    tierAnswer s1 node (objTenant s m.obj) tenant (tierHeader 6 (if held then 0 else 1) 0 m.obj 0 m.req)

/-- TIER_RELEASE (R376). -/
def execTierRelease (node : Nat) (bytes : List Byte) (s : State) : Host.Outcome State Fault Refusal := .next (whilePlaced s node (fun s => tierReleaseEffect s node none bytes))

/-- TIER_RELEASE_ACK (R166): the node keeps no record of a release it has sent, so its answer changes nothing. -/
def execTierReleaseAck (node : Nat) (_bytes : List Byte) (s : State) : Host.Outcome State Fault Refusal := .next (whilePlaced s node (fun s => s))

/-! ### Migration (R179, R180) -/

/-- The bytes of a stream that are charged (R167). -/
def streamCharge (s : State) (tenant stream : Nat) : Nat :=
  sumBy (fun t => if t.tenant = tenant ∧ t.stream = stream ∧ t.body ≠ [] then bodyCharge (tileGranules t) else 0) s.mem.tiles.vals +
  sumBy (fun g => if g.1.1 = tenant ∧ g.1.2.2.1 = stream then bodyCharge g.2.body.length else 0) s.mem.grads +
  sumBy (fun l => if l.1.1 = tenant ∧ l.1.2.1 = stream then 4 * l.2.vals.length else 0) s.mem.lse

/-- First and last position that the node holds of a stream. -/
def streamSpan (s : State) (tenant stream : Nat) : Nat × Nat :=
  let spans := ((streamRuns s tenant stream 0 16777215).map (fun r => (r.2.tiles.filterMap (fun x => getTile s x.2)).filterMap (fun t =>
    spliceSpan t r.1.low r.1.high r.2.offset))).flatten
  match spans with
  | [] => (0, 0)
  | x :: r => (r.foldl (fun m y => Nat.min m y.1) x.1, r.foldl (fun m y => Nat.max m y.2) x.2)

/-- The payload of R180. -/
def migrationPayload (s : State) (tenant stream : Nat) (p : Proposal) (answer : Nat) : List Byte :=
  let sp := streamSpan s tenant stream
  recordBytes [(8, p.reason), (8, answer), (16, p.target), (12, tenant), (20, 0), (32, stream), (24, sp.1), (8, 0), (24, sp.2), (8, 0),
    (32, ceilDiv (streamCharge s tenant stream) 1024), (64, p.id)]

/-- A FABRIC message of OP 2 or 3: the code, then the payload of R180 (R383, log 32). -/
def migrationMessage (op : Nat) (payload : List Byte) : List Byte := BitVec.ofNat 8 op :: payload

/-- Proposals in the running second stay within 16 (R179). -/
def proposalRoom (s : State) : Bool := decide (s.fab.proposalSecond ≠ s.time / 1000000000 ∨ s.fab.proposalCount < 16)

/-- What a reason of R179 says of the node now: a die below the low watermark without an eligible tile, a tenant at its quota without one;
reason 3, the share of a stream's request frames, is in the command alone (log 72). -/
def reasonHolds (s : State) (reason tenant : Nat) : Bool :=
  match reason with
  | 1 => (List.range 2).any (fun d => decide (freePool s d < lowMark s d) && (oldestEligible s (fun t => decide (t.die = d))).isEmpty)
  | 2 => decide ((getTenant s tenant).tierQuota ≤ tenantCharge s tenant) && (oldestEligible s (fun t => decide (t.tenant = tenant))).isEmpty
  | 3 => true
  | _ => false

/-- A node on a seat of this one: UP, DIRECT, its partner known by that ID (R179, R320). -/
def neighbour (s : State) (node : Nat) : Bool :=
  (List.range 6).any (fun i => isUp s i && !(getSeat s i).partnerKind && decide ((getSeat s i).nodeId = node))

def migrationConditionEffect (s : State) (reason tenant stream target : Nat) : State :=
  let k := (tenant, stream)
  let again := match Tab.find s.fab.withdrawn k with | some t => decide (t + 10000000000 ≤ s.time) | none => true
  if !serving s ∨ !placed s ∨ effRole s = roleShadow ∨ (Tab.find s.fab.proposals k).isSome ∨ !again ∨ !reasonHolds s reason tenant ∨
      !neighbour s target then s
  else
    let p : Proposal := ⟨reason, target, s.fab.nextProposal, s.time, false⟩
    let s1 := { s with fab := { s.fab with nextProposal := s.fab.nextProposal + 1, proposals := Tab.put s.fab.proposals k p,
                                           withdrawn := Tab.del s.fab.withdrawn k } }
    sendMsg s1 target 7 tenant 7 (migrationMessage 2 (migrationPayload s1 tenant stream p 0))

/-- MIGRATION_CONDITION (R179): the neighbour is asked first. -/
def execMigrationCondition (reason tenant stream target : Nat) (s : State) : Host.Outcome State Fault Refusal :=
  .next (migrationConditionEffect s reason tenant stream target)

/-- Sends a proposal to the owning host and to the fabric manager; a node in the SHADOW role proposes nothing (R179, R180, R368). -/
def propose (s : State) (tenant stream : Nat) (p : Proposal) (answer : Nat) : State :=
  if !proposalRoom s ∨ effRole s = roleShadow then s
  else
    let sec := s.time / 1000000000
    let n := if s.fab.proposalSecond = sec then s.fab.proposalCount else 0
    let pay := migrationPayload s tenant stream p answer
    let e : Event := ⟨evMigration, s.ev.nextSeq, s.time, pay⟩
    let s1 := { s with fab := { s.fab with proposalSecond := sec, proposalCount := n + 1,
                                           proposals := Tab.put s.fab.proposals (tenant, stream) { p with sent := true, at' := s.time } } }
    let s2 := bump (raiseEvent s1 evMigration pay) (.migrate 0)
    match s.fab.active with
    | some b => sendMsg s2 b.fmId 4 0 s2.tr.origEvent (eventBytes e)
    | none => s2

def migrationAnswerTimeoutEffect (s : State) (tenant stream : Nat) : State :=
  match Tab.find s.fab.proposals (tenant, stream) with
  | none => s
  | some p => if p.sent ∨ !running s then s else propose (reach s (p.at' + 1000000)) tenant stream p 3

/-- MIGRATION_ANSWER_TIMEOUT (R180). -/
def execMigrationAnswerTimeout (tenant stream : Nat) (s : State) : Host.Outcome State Fault Refusal :=
  .next (migrationAnswerTimeoutEffect s tenant stream)

def migrationAnswerEffect (s : State) (node : Nat) (b : List Byte) : State :=
  let p := b.drop 1
  let k := (leAt p 4 4 % 4096, leAt p 8 4)
  match Tab.find s.fab.proposals k with
  | none => s
  | some x =>
    let a := leAt p 1 1
    if !running s ∨ leAt b 0 1 ≠ 3 ∨ x.sent ∨ x.target ≠ node ∨ leAt p 24 8 ≠ x.id ∨ (a ≠ 1 ∧ a ≠ 2) then s else propose s k.1 k.2 x a

/-- MIGRATION_ANSWER (R179). -/
def execMigrationAnswer (node : Nat) (bytes : List Byte) (s : State) : Host.Outcome State Fault Refusal := .next (whilePlaced s node (fun s => migrationAnswerEffect s node bytes))

def migrationWithdrawEffect (s : State) (tenant stream : Nat) : State :=
  let k := (tenant, stream)
  match Tab.find s.fab.proposals k with
  | none => s
  | some p =>
    if !p.sent then s
    else
      let s1 := reach s (p.at' + 1000000000)
      bump { s1 with fab := { s1.fab with proposals := Tab.del s1.fab.proposals k, withdrawn := Tab.put s1.fab.withdrawn k s1.time } } (.migrate 1)

/-- MIGRATION_WITHDRAW (R179). -/
def execMigrationWithdraw (tenant stream : Nat) (s : State) : Host.Outcome State Fault Refusal := .next (migrationWithdrawEffect s tenant stream)

/-- The node is willing: in the SERVE role, with the free pool less the offer above the high watermark, on the die where a new stream
would go (R159, R179). -/
def willing (s : State) (kib : Nat) : Bool :=
  let d := roomierDie s
  decide (effRole s = roleServe ∧ highMark s d + ceilDiv (kib * 1024) 512 < freePool s d)

def migrationOfferEffect (s : State) (node : Nat) (b : List Byte) : State :=
  let p := b.drop 1
  if !running s ∨ leAt b 0 1 ≠ 2 ∨ p.length < 32 then s
  else
    let a := if willing s (leAt p 20 4) then 1 else 2
    sendMsg s node 7 (leAt p 4 4 % 4096) 7 (migrationMessage 3 (patch (p.take 32) 1 [BitVec.ofNat 8 a]))

/-- MIGRATION_OFFER (R179). -/
def execMigrationOffer (node : Nat) (bytes : List Byte) (s : State) : Host.Outcome State Fault Refusal := .next (whilePlaced s node (fun s => migrationOfferEffect s node bytes))

end Sys2Proof.Machine
end

