-- ==== Sys2Proof/Machine/Ownership.lean ====
section
/-! DEFINITION. Ownership of the writable tail: hand-overs, manifests, claims, copies to a shadow (15 R378 to R383, R388). -/

namespace Sys2Proof.Machine
open Sys2Proof

/-! ### Ownership messages (R383) -/

/-- The fields of a message of OP 4 to 8. -/
structure TailMsg where
  op : Nat
  move : Bool
  copy : Bool
  reason : Nat
  tenant : Nat
  stream : Nat
  epoch : Nat
  owner : Nat
  target : Nat
  endPos : Nat
  manifest : Nat
  granules : Nat
  deriving DecidableEq, Repr

/-- The 48 bytes (R383). -/
def tailBytes (m : TailMsg) : List Byte :=
  recordBytes [(8, m.op), (1, b2n m.move), (1, b2n m.copy), (6, 0), (8, m.reason), (8, 0), (12, m.tenant), (20, 0), (32, m.stream),
    (32, m.epoch), (16, m.owner), (16, m.target), (24, m.endPos), (8, 0), (64, m.manifest), (32, m.granules), (96, 0)]

def tailMsgOf (b : List Byte) : TailMsg :=
  let w := leAt b 0 4
  ⟨fld w 7 0, bitN w 8, bitN w 9, fld w 23 16, leAt b 4 4 % 4096, leAt b 8 4, leAt b 12 4, leAt b 16 2, leAt b 18 2, leAt b 20 4 % 2 ^ 24,
   leAt b 24 8, leAt b 32 4⟩

/-- A message of an operation, whole, at a placed node that runs. -/
def tailFits (s : State) (op : Nat) (b : List Byte) : Bool := running s && placed s && decide (b.length = 48 ∧ leAt b 0 1 = op)

/-- Sends an ownership message (R348). -/
def sendTail (s : State) (node : Nat) (m : TailMsg) : State := sendMsg s node 7 m.tenant 7 (tailBytes m)

/-! ### Records and states (R378, R379, R369) -/

def getOwn (s : State) (t st : Nat) : Option Own := Tab.find s.fab.own (t, st)
def putOwn (s : State) (t st : Nat) (o : Own) : State := { s with fab := { s.fab with own := Tab.put s.fab.own (t, st) o } }

/-- A board's record of a stream. -/
def recIn (b : Board) (t st : Nat) : Option OwnRec := b.own.find? (fun r => r.tenant == t && r.stream == st)

/-- The active board's record of a stream. -/
def recOf (s : State) (t st : Nat) : Option OwnRec := s.fab.active.bind (fun b => recIn b t st)

/-- The record names this node, which no record does in the SHADOW role (R369). -/
def namesMe (s : State) (r : OwnRec) : Bool := decide (r.owner = ownId s) && decide (effRole s ≠ roleShadow)

/-- The owner that this node's record gives, 0 for none. -/
def recOwner (s : State) (t st : Nat) : Nat := ((recOf s t st).map OwnRec.owner).getD 0

/-- A fresh ownership entry. -/
def ownEntry (now : Time) (state : OwnState) (epoch other : Nat) (move : Bool) : Own :=
  { state := state, epoch := epoch, other := other, move := move, since := now, nextAsk := now + 5000000, claimEpoch := 0, claimant := 0,
    refusedAt := none, conflict := false, endPos := 0, manifest := none, held := false }

/-- The common payload of OWN_LOST, OWN_RECLAIMED and OWN_CONFLICT (R442). -/
def ownEvent (s : State) (code t st epoch node : Nat) : State :=
  raiseEvent s code (commonPayload { tenant := t, id := st, epoch := epoch, node := node })

/-! ### Objects of a hand-over (R380, R381) -/

/-- A piece whose blocks are poisoned (R208, R215). -/
def poisonPiece (p : List Byte) : List Byte :=
  let n := p.length / 72
  p.take (64 * n) ++ ((List.range n).map (fun i => leBytes 8 (poisonCheck (BitVec.ofNat 512 (leAt p (64 * i) 64))).toNat)).flatten

/-- Kept values as they travel: the cipher record and the number of values as the header block, the ciphertext as the body (R381, R406,
log 34). -/
def lseImage (s : State) (k : LseKey) (l : Lse) : Option (List Byte × List Byte) :=
  (lseCipher s k l).map (fun x => (fitBytes 64 (x.1 ++ leBytes 4 l.vals.length), x.2))

/-- Kept values from their bytes. -/
def openLse (key : List Byte) (k : LseKey) (h body : List Byte) : Option Lse :=
  let c := counterOf (leAt h 8 8)
  let ks := cipherBody key c (coded body)
  let n := Nat.min (leAt h 32 4) (body.length / 4)
  let vals := (List.range n).map (fun i => BitVec.ofNat 32 (leAt ks (4 * i) 4))
  if slice h 16 16 = tagOf key c (h.take 16 ++ lseIdentity k ++ body) then some ⟨vals, leAt h 0 2, c, [], false⟩ else none

/-- Keeps an object for GET while the hand-over lasts (R376): its key. -/
def serveObject (s : State) (tenant : Nat) (pieces : List (List Byte)) : Nat × State :=
  let n := freshObj s
  let key := objectKey (ownId s) n.1
  (key, { n.2 with fab := { n.2.fab with served := Tab.put n.2.fab.served key (tenant, pieces.flatten) } })

/-- An object with a header is served, poisoned where it is: its entry less kind, layer and position. -/
def serveImage (s : State) (tenant : Nat) (bad : Bool) (img : Option (List Byte × List Byte)) : Option (Nat × Nat) × State :=
  match img with
  | none => (none, s)
  | some (h, b) =>
    let ps := objectPieces h b
    let r := serveObject s tenant (if bad then ps.map poisonPiece else ps)
    (some (r.1, ps.length), r.2)

/-- The objects that a stream's own runs list, each once: own tiles of every layer. -/
def ownTiles (s : State) (t st : Nat) : List Nat :=
  dedup (((streamRuns s t st 0 16777215).filter (fun r => !r.2.borrowed)).map (fun r => r.2.tiles.map Prod.snd)).flatten

/-- Entries for the tiles of a stream; only committed positions travel. -/
def manTiles (s : State) (t st : Nat) : List ManEntry × State :=
  (ownTiles s t st).foldl (fun (acc : List ManEntry × State) o =>
    match getTile acc.2 o with
    | none => acc
    | some x =>
      let r := if x.body = [] then (x.lost, acc.2) else readTile acc.2 o
      let img := serveImage r.2 t r.1 (tileImage r.2 { x with slots := x.slots.take x.valid })
      match img.1 with
      | some (key, n) => (acc.1 ++ [⟨1, x.layer, x.base, n, 0, 0, key⟩], img.2)
      | none => (acc.1, img.2)) ([], s)

/-- Entries for the committed gradient tiles of a stream. -/
def manGrads (s : State) (t st : Nat) : List ManEntry × State :=
  (s.mem.grads.filter (fun g => g.1.1 == t && g.1.2.2.1 == st)).foldl (fun (acc : List ManEntry × State) g =>
    match g.2.committed with
    | none => acc
    | some x =>
      let r := readObject acc.2 (.grad g.1) (objBlocks (some g.2.hdr) g.2.body)
      let img := serveImage r.2 t (g.2.poisoned || r.1) (gradImage r.2 g.1 x)
      match img.1 with
      | some (key, n) => (acc.1 ++ [⟨2, g.1.2.2.2.1, g.1.2.2.2.2, n, 0, 0, key⟩], img.2)
      | none => (acc.1, img.2)) ([], s)

/-- Entries for the kept values of a stream. -/
def manLse (s : State) (t st : Nat) : List ManEntry × State :=
  (s.mem.lse.filter (fun l => l.1.1 == t && l.1.2.1 == st)).foldl (fun (acc : List ManEntry × State) l =>
    let r := readObject acc.2 (.lse l.1) ((l.2.place.map granBlocks).flatten)
    let img := serveImage r.2 t (l.2.poisoned || r.1) (lseImage r.2 l.1 l.2)
    match img.1 with
    | some (key, n) => (acc.1 ++ [⟨4, l.1.2.2.1, l.1.2.2.2, n, 0, 0, key⟩], img.2)
    | none => (acc.1, img.2)) ([], s)

/-- Entries for the borrowed runs of a stream. -/
def manRuns (s : State) (t st : Nat) : List ManEntry :=
  ((streamRuns s t st 0 16777215).filter (fun r => r.2.borrowed)).map (fun r => ⟨3, 0, r.1.low, r.1.high, r.2.srcStream, r.2.offset, 0⟩)

/-- The manifest of a stream, served with its objects: key and length in granules (R381). -/
def makeManifest (s : State) (t st epoch endPos : Nat) : Nat × Nat × State :=
  let a := manTiles s t st
  let b := manGrads a.2 t st
  let c := manLse b.2 t st
  let es := a.1 ++ b.1 ++ manRuns c.2 t st ++ c.1
  let head := recordBytes [(12, t), (20, 0), (32, st), (32, epoch), (32, endPos), (32, es.length), (352, 0)]
  let ps := plainPieces (head ++ (es.map manEntryBytes).flatten)
  let r := serveObject c.2 t ps
  (r.1, ps.length, r.2)

/-- A manifest and its objects are served no longer. -/
def dropServed (s : State) (manifest : Nat) : State :=
  let keys := manifest :: ((manEntries (servedBytes s manifest)).map ManEntry.obj).filter (· ≠ 0)
  { s with fab := { s.fab with served := s.fab.served.filter (fun x => !keys.contains x.1) } }

/-! ### The sender (R380) -/

/-- One more than the highest position that the node holds of a stream, 0 where it holds none. -/
def streamEnd (s : State) (t st : Nat) : Nat :=
  maxBy id (((streamRuns s t st 0 16777215).map (fun r => (r.2.tiles.filterMap (fun x => getTile s x.2)).filterMap (fun x =>
    (spliceSpan x r.1.low r.1.high r.2.offset).map (fun p => p.2 + 1)))).flatten)

/-- The last position that an own run holds, if it holds one. -/
def runLast (s : State) (d : RunDesc) : Option Nat :=
  match (d.tiles.filterMap (fun x => getTile s x.2)).filter (fun x => decide (0 < x.valid)) with
  | [] => none
  | l => some (maxBy Tile.last l)

/-- A tail run is closed at its last position; one that holds none leaves (R380 step 2). -/
def closeTail (s : State) (r : Row) : State :=
  match getDesc s r.result with
  | none => s
  | some d =>
    let here := fun (x : Row) => x.of r.tenant r.stream && x.low == r.low && x.result == r.result
    match runLast s d with
    | none =>
      let s1 := [0, 1].foldl (fun s h => let x := getHalf s h; putHalf s h { x with rows := x.rows.filter (fun y => !here y.2) }) s
      dropDesc s1 r.result
    | some top =>
      let n := freshDesc s
      let s1 := putDesc s n { d with tail := false, high := top }
      replaceDesc ([0, 1].foldl (fun s h => mapRows s h here (fun x => { x with high := top, result := n })) s1) r.result

/-- Step 2 of R380: every open tile is sealed and TAIL is cleared. -/
def sealStream (s : State) (t st : Nat) : State :=
  let open' := (ownTiles s t st).filter (fun o => ((getTile s o).map (fun x => !x.isSealed)).getD false)
  let s1 := open'.foldl (fun s o => commitSeal s o false) s
  ((streamRuns s1 t st 0 16777215).filter (fun r => r.2.tail)).foldl (fun s r => closeTail s r.1) s1

/-- Step 1 of R380: programs that wrote the stream end with NOT_OWNER; those past their commit point are applied first. -/
def endWriters (s : State) (t st : Nat) : State :=
  let s1 := ((s.pg.ctxs.filter (fun p => p.2.tenant == t && p.2.newStreams.contains st && p.2.state == .committing)).map Prod.fst).foldl applyCommit s
  endWhere s1 (fun p => p.tenant == t && p.newStreams.contains st) ⟨stNotOwner, 0, 0xFFFF⟩

/-- The TAIL_OFFER of a hand-over (R380 step 3). -/
def offerMsg (s : State) (t st : Nat) (o : Own) : TailMsg :=
  ⟨4, o.move, false, 0, t, st, o.epoch, recOwner s t st, 0, o.endPos, o.manifest.getD 0,
   match o.manifest with | some m => (((Tab.find s.fab.served m).map (fun x => x.2.length)).getD 0) / 576 | none => 0⟩

/-- Steps 1 to 3 of R380: the stream becomes HANDING. Step 2 is a commit, which waits while none may pass (R430, R433). -/
def startHandover (s : State) (t st : Nat) (r : OwnRec) : State :=
  if !commits s then s else
  let s1 := sealStream (endWriters s t st) t st
  let e := streamEnd s1 t st
  let m := if r.move then let x := makeManifest s1 t st r.epoch e; (some x.1, x.2.2) else ((none : Option Nat), s1)
  let o := { (ownEntry s.time .handing r.epoch r.owner r.move) with endPos := e, manifest := m.1 }
  bump (sendTail (putOwn m.2 t st o) r.owner (offerMsg m.2 t st o)) (.own 0)

/-- What a hand-over was serving is served no longer. -/
def endServing (s : State) (o : Own) : State := match o.manifest with | some m => dropServed s m | none => s

/-- A stream's ownership ends on this node. -/
def becomeNone (s : State) (t st : Nat) (o : Own) : State :=
  let s1 := endServing s o
  putOwn { s1 with fab := { s1.fab with handovers := Tab.del s1.fab.handovers (t, st) } } t st { o with state := .none, refusedAt := none, manifest := none }

/-- All runs of a stream leave (R380 step 6, R41, R108). -/
def dropStream (s : State) (t st : Nat) : State :=
  let rows := streamRows s t st
  let s1 := [0, 1].foldl (fun s h => let x := getHalf s h
    putHalf s h { x with rows := x.rows.filter (fun y => !(y.2.of t st && y.2.state == .valid)) }) s
  let s2 := rows.foldl (fun s r => dropDesc s r.result) s1
  freeLse s2 (fun k => k.1 == t && k.2.1 == st)

/-! ### The receiver (R380) -/

/-- Answers a claim or an offer with TAIL_REFUSE: EPOCH and OWNER are those of the node's own record, 0 where it has none (R383). -/
def refuseTail (s : State) (node : Nat) (m : TailMsg) (reason : Nat) : State :=
  let r := recOf s m.tenant m.stream
  sendTail s node ⟨7, m.move, m.copy, reason, m.tenant, m.stream, (r.map OwnRec.epoch).getD 0, (r.map OwnRec.owner).getD 0, 0, 0, 0, 0⟩

/-- TAIL_ACK; for a hand-over the node becomes OWNER (R380 step 5, R388). -/
def ackTail (s : State) (node t st epoch endPos : Nat) (move copy : Bool) (manifest : Nat) : State :=
  sendTail s node ⟨5, move, copy, 0, t, st, epoch, recOwner s t st, 0, endPos, manifest, 0⟩

def becomeOwner (s : State) (node t st epoch endPos : Nat) (move : Bool) (manifest : Nat) : State :=
  ackTail (bump (putOwn s t st (ownEntry s.time .owner epoch node move)) (.own 1)) node t st epoch endPos move false manifest

/-- The tenant is admitted in the slot (R380). -/
def slotAdmitted (s : State) (t : Nat) : Bool := decide ((getTenant s t).state = .admitted)

/-- GET for pieces of a hand-over's object. -/
def askHandover (s : State) (node t key first n : Nat) : State :=
  let r := freshObj s
  sendTier r.2 node t r.2.tr.origDemand (tierHeader 3 0 n key first r.1)

/-- Steps 4 and 5 of R380 for an offer or a copy that the node accepts. -/
def acceptOffer (s : State) (node : Nat) (m : TailMsg) : State :=
  if !slotAdmitted s m.tenant then refuseTail s node m 3
  else if !m.move && !m.copy then becomeOwner s node m.tenant m.stream m.epoch m.endPos false 0
  else
    let h : Handover := ⟨node, m.epoch, m.move, m.copy, m.endPos, m.manifest, m.granules, none, []⟩
    askHandover { s with fab := { s.fab with handovers := Tab.put s.fab.handovers (m.tenant, m.stream) h } } node m.tenant m.manifest 0 m.granules

/-- The board's record accepts an offer (R380 step 4). -/
def offerMatches (s : State) (node : Nat) (m : TailMsg) : Bool :=
  match recOf s m.tenant m.stream, getOwn s m.tenant m.stream with
  | some r, some o => namesMe s r && decide (r.epoch = m.epoch ∧ r.prev = node ∧ o.state = .awaiting)
  | _, _ => false

/-- A rival claim meets an OWNER: STALLED for 5 ms (R382). -/
def rivalClaim (s : State) (node : Nat) (m : TailMsg) (o : Own) : State :=
  if o.state = .stalled then
    if o.claimEpoch < m.epoch then putOwn s m.tenant m.stream { o with claimEpoch := m.epoch, claimant := node } else s
  else bump (putOwn s m.tenant m.stream { o with state := .stalled, since := s.time, claimEpoch := m.epoch, claimant := node }) (.own 2)

/-- Two records with equal EPOCH and different OWNER meet (R382). -/
def recordsMeet (s : State) (m : TailMsg) : Bool :=
  match recOf s m.tenant m.stream with
  | some r => decide (r.epoch = m.epoch ∧ r.owner ≠ m.owner ∧ m.owner ≠ 0)
  | none => false

/-- The node refuses writes to the stream from now on, and tells the host (R382). -/
def enterConflict (s : State) (node : Nat) (m : TailMsg) : State :=
  let o := (getOwn s m.tenant m.stream).getD (ownEntry s.time .none m.epoch node false)
  if o.conflict then s
  else ownEvent (bump (putOwn s m.tenant m.stream { o with conflict := true }) (.own 5)) evOwnConflict m.tenant m.stream m.epoch node

/-- The same, and the other node is told of the record that it has met, so that both refuse writes (R382, log 74). -/
def meetConflict (s : State) (node : Nat) (m : TailMsg) : State := refuseTail (enterConflict s node m) node m 1

def tailOfferEffect (s : State) (node : Nat) (b : List Byte) : State :=
  if !tailFits s 4 b then s
  else
    let m := tailMsgOf b
    if m.copy then (if effRole s = roleShadow then acceptOffer s node m else refuseTail s node m 5)
    else if effRole s = roleShadow then refuseTail s node m 5
    else if recordsMeet s m then meetConflict s node m
    else match getOwn s m.tenant m.stream with
      | some o =>
        if o.state = .owner ∨ o.state = .stalled then
          -- an offer of what the node has already taken over is acknowledged again
          if m.owner = ownId s ∧ m.epoch = o.epoch then ackTail s node m.tenant m.stream m.epoch m.endPos m.move false m.manifest
          else rivalClaim s node m o
        else if offerMatches s node m then
          (if (Tab.find s.fab.handovers (m.tenant, m.stream)).any (fun h => h.manifest == m.manifest && h.node == node) then s
           else acceptOffer s node m)
        else { s with fab := { s.fab with offers := Tab.put s.fab.offers (m.tenant, m.stream) ⟨node, b, s.time⟩ } }
      | none => { s with fab := { s.fab with offers := Tab.put s.fab.offers (m.tenant, m.stream) ⟨node, b, s.time⟩ } }

/-- TAIL_OFFER (R380, R382, R388). -/
def execTailOffer (node : Nat) (bytes : List Byte) (s : State) : Host.Outcome State Fault Refusal := .next (whilePlaced s node (fun s => tailOfferEffect s node bytes))

def offerExpiryEffect (s : State) (t st : Nat) : State :=
  match Tab.find s.fab.offers (t, st) with
  | none => s
  | some x =>
    let s0 := reach s (x.at' + 5000000)
    let s1 := { s0 with fab := { s0.fab with offers := Tab.del s0.fab.offers (t, st) } }
    let w := recOwner s1 t st
    if running s ∧ w ≠ ownId s1 ∧ w ≠ x.node then refuseTail s1 x.node (tailMsgOf x.bytes) 2 else s1

/-- TAIL_OFFER_KEEP_EXPIRY (R380, R382). -/
def execTailOfferKeepExpiry (t st : Nat) (s : State) : Host.Outcome State Fault Refusal := .next (offerExpiryEffect s t st)

/-! ### Fetching the objects (R380 step 4, R381) -/

/-- The plain bytes of an object's pieces from `a` on, where all `n` have come. -/
def gotBytes (h : Handover) (key n : Nat) : Option (List (List Byte)) :=
  let ps := (List.range n).map (fun i => Tab.find h.got (key, i))
  if ps.any Option.isNone then none else some (ps.map (fun p => p.getD []))

/-- DATA of a hand-over: good pieces are kept, failed ones asked for again; with the whole manifest every object is asked for
(R215, R380; DEDUCED, log 34). -/
def handoverData (s : State) (t st : Nat) (h : Handover) (obj first : Nat) (pieces : List (List Byte)) : State :=
  let res := ((List.range pieces.length).zip pieces).map (fun p => (first + p.1, checkPiece p.2))
  let good := res.filterMap (fun p => p.2.map (fun d => (p.1, d)))
  let bad := (res.filter (fun p => p.2.isNone)).map Prod.fst
  let h1 := { h with got := good.foldl (fun g p => Tab.put g (obj, p.1) p.2) h.got }
  let save := fun (s : State) (h : Handover) => { s with fab := { s.fab with handovers := Tab.put s.fab.handovers (t, st) h } }
  let s1 := addCtr (save s h1) (.tier 6) bad.length
  let s2 := (rangesOf bad).foldl (fun s p => askHandover s h.node t obj p.1 p.2) s1
  match h1.entries, gotBytes h1 h1.manifest h1.granules with
  | none, some ps =>
    let b := ps.flatten
    if obj ≠ h1.manifest ∨ leAt b 0 4 % 4096 ≠ t ∨ leAt b 4 4 ≠ st then s2
    else
      let es := (chunks 32 (b.drop 64)).take (leAt b 16 4)
      let h2 := { h1 with entries := some es }
      (handEntries h2).foldl (fun s e => if e.kind = 3 then s else askHandover s h.node t e.obj 0 e.size) (save s2 h2)
  | _, _ => s2

/-- The hand-over of a sender that wants an object. -/
def wantsObject (s : State) (node obj : Nat) : Option ((Nat × Nat) × Handover) :=
  s.fab.handovers.find? (fun x => x.2.node == node && (x.2.manifest == obj || (handEntries x.2).any (fun e => e.obj == obj)))

def tierDataEffect (s : State) (node : Nat) (b : List Byte) : State :=
  let m := tierMsgOf b
  if m.op ≠ 4 ∨ b.length < 32 ∨ !running s then s
  else match Tab.find s.mem.fetches m.obj with
    | some f =>
      if m.req ≠ f.req ∨ !f.replicas.contains node ∨ f.retryAt.isSome then s
      else if m.result = 0 then fetchOutcome s m.obj (fetchPieces s m.obj node m.first (cutPieces m.body))
      else fetchOutcome s m.obj (fetchGone s m.obj node)
    | none =>
      match wantsObject s node m.obj with
      | some (k, h) => if m.result = 0 then handoverData s k.1 k.2 h m.obj m.first (cutPieces m.body) else s
      | none => s

/-- TIER_DATA (R175, R215, R380). -/
def execTierData (node : Nat) (bytes : List Byte) (s : State) : Host.Outcome State Fault Refusal := .next (whilePlaced s node (fun s => tierDataEffect s node bytes))

/-! ### The internal commit of the receiver (R380 step 4) -/

/-- An object of a manifest as its bytes make it. -/
inductive Arrived where
  | tile (t : Tile)
  | grad (k : GradKey) (g : GradTile)
  | lse (k : LseKey) (l : Lse)
  | noKey
  | bad
  deriving DecidableEq, Repr

/-- Opens an object: its key must be live, and header and tag must be those of the entry (R404, R407). -/
def openArrived (s : State) (t st : Nat) (h : Handover) (e : ManEntry) : Arrived :=
  match gotBytes h e.obj e.size with
  | none | some [] => .bad
  | some (hd :: body) =>
    let b := body.flatten
    match keyOf s t (if e.kind = 4 then leAt hd 0 2 else leAt hd 6 2) with
    | none => .noKey
    | some key =>
      if e.kind = 1 then
        match openTile key.key hd b with
        | some x => if x.tenant = t ∧ x.stream = st ∧ x.layer = e.layer ∧ x.base = e.pos then .tile x else .bad
        | none => .bad
      else if e.kind = 2 then
        match openGrad key.key hd b with
        | some (k, g) => if k.1 = t ∧ k.2.2 = (st, e.layer, e.pos) then .grad k g else .bad
        | none => .bad
      else match openLse key.key (t, st, e.layer, e.pos) hd b with
        | some l => .lse (t, st, e.layer, e.pos) l
        | none => .bad

/-- The sealed source tiles of a borrowed run on this node, layer and object; none where they do not hold its whole range or a rule of
R29 forbids it. -/
def borrowSource (s : State) (t : Nat) (e : ManEntry) : Option (List (Nat × Nat)) :=
  let lo : Int := (e.pos : Int) - e.offset
  let hi : Int := (e.size : Int) - e.offset
  let vs := views s t e.src 0xFFFF
  let src := vs.filter (fun v => decide ((v.low : Int) ≤ hi ∧ lo ≤ (v.high : Int)))
  let ts := sourceTiles s src lo.toNat hi.toNat
  let layers := dedup (ts.map (fun x => x.1))
  let covered := fun (l : Nat) =>
    let spans := sortBy (fun a b => decide (a.1 ≤ b.1)) ((ts.filter (fun x => x.1 == l)).map (fun x => (x.2.2.base, x.2.2.last)))
    decide (hi.toNat < spans.foldl (fun c x => if x.1 ≤ c then Nat.max c (x.2 + 1) else c) lo.toNat)
  if lo < 0 ∨ e.size < e.pos ∨ ts = [] ∨ src.any (fun v => v.desc.borrowed) ∨ ts.any (fun x => !x.2.2.isSealed) ∨ !layers.all covered ∨
      ts.any (fun x => decide (16777215 ≤ x.2.2.share)) ∨ (e.offset ≠ 0 ∧ ts.any (fun x => decide (x.2.2.posEnc ≠ 0))) then none
  else some (ts.map (fun x => (x.1, x.2.1)))

/-- A row made visible at once, within the tenant's directory quota (R141, R144, R151). -/
def addRow (s : State) (t st low high desc : Nat) : Option State :=
  if dirQuotaHit s t then none else
  match halfFor s t st with
  | none => none
  | some h =>
    let x := getHalf s h
    let r : Row := { low := low, high := high, stream := st, tenant := t, tag := dirTag t st, state := .valid, remove := false, shadow := false,
                     result := desc, ctx := 0, shadowHigh := 0, shadowResult := 0 }
    (stageRow x.rows r).map (fun y => addCtr (putHalf s h { x with rows := y.1, shiftMax := Nat.max x.shiftMax y.2 }) (.dirStat h 5) y.2)

/-- Ranges of positions that tiles hold without a gap, in order. -/
def tileRanges (ts : List Tile) : List (Nat × Nat) :=
  ((sortBy (fun a b => decide (a.base ≤ b.base)) (ts.filter (fun t => decide (0 < t.valid)))).foldl (fun (acc : List (Nat × Nat)) t =>
    match acc with
    | (a, b) :: r => if t.base ≤ b + 1 then (a, Nat.max b t.last) :: r else (t.base, t.last) :: acc
    | [] => [(t.base, t.last)]) []).reverse

/-- An arriving tile takes granules, a header slot and a charge; none without room (log 34). -/
def installTile (s : State) (x : Tile) : Option (Nat × State) :=
  let n := tileGranules x
  match allocTenant s x.tenant (homeDie s x.tenant x.stream) n (bodyCharge n) true with
  | (.refused _, _) => none
  | (.took die body hdr, s1) =>
    let o := freshObj s1
    some (o.1, putTile o.2 o.1 { x with die := die, body := body, hdr := hdr, ageBase := s.time })

/-- An arriving gradient tile; the set it belongs to is a free value, since the manifest does not carry it (log 34). -/
def installGrad (s : State) (k : GradKey) (g : GradTile) : Option State :=
  let n := gradGranules g.kFmt g.vFmt g.heads (headDim g.dimCode)
  match allocTenant s k.1 (homeDie s k.1 k.2.2.1) n (bodyCharge n) true with
  | (.refused _, _) => none
  | (.took die body hdr, s1) =>
    let d := drawPick s1 65536
    some { d.2 with mem := { d.2.mem with grads := Tab.put d.2.mem.grads (k.1, d.1, k.2.2) ⟨some g, none, die, body, hdr, false⟩ } }

def installLse (s : State) (k : LseKey) (l : Lse) : Option State :=
  match allocTenant s k.1 (homeDie s k.1 k.2.1) (granulesOf (4 * l.vals.length)) (4 * l.vals.length) false with
  | (.refused _, _) => none
  | (.took _ g _, s1) => some { s1 with mem := { s1.mem with lse := Tab.put s1.mem.lse k { l with place := g } } }

/-- The arriving objects in place: the tiles with their numbers, in order. -/
def installAll (s : State) (as : List Arrived) : Option (List (Nat × Tile) × State) :=
  as.foldl (fun (acc : Option (List (Nat × Tile) × State)) a =>
    acc.bind (fun x => match a with
      | .tile t => (installTile x.2 t).map (fun r => (x.1 ++ [(r.1, t)], r.2))
      | .grad k g => (installGrad x.2 k g).map (fun s => (x.1, s))
      | .lse k l => (installLse x.2 k l).map (fun s => (x.1, s))
      | _ => some x)) (some ([], s))

/-- The parts of a range outside some ranges. -/
def cutRanges (rs : List (Nat × Nat)) (low high : Nat) : List (Nat × Nat) :=
  rs.foldl (fun parts r => (parts.map (fun p =>
    if r.2 < p.1 ∨ p.2 < r.1 then [p]
    else (if p.1 < r.1 then [(p.1, r.1 - 1)] else []) ++ (if r.2 < p.2 then [(r.2 + 1, p.2)] else []))).flatten) [(low, high)]

/-- The own ranges that arrive, each with the end of its run: the last one of a copy is its tail. -/
def arrivingRanges (ts : List Tile) (endPos : Nat) (copy : Bool) : List (Nat × Nat) :=
  (tileRanges ts).map (fun r => (r.1, if copy && decide (r.2 + 1 = endPos) then 16777215 else r.2))

/-- The ranges of a stream that the node's own runs hold: what arrives leaves them as they are, since nothing but a program's REMOVE or a purge frees
a committed row (R153, log 34). -/
def heldRanges (s : State) (t st : Nat) : List (Nat × Nat) := (streamRows s t st).map (fun r => (r.low, r.high))

/-- An arriving object is installed: a tile where the node holds not all of its positions. -/
def wanted (s : State) (t st : Nat) (a : Arrived) : Bool :=
  match a with
  | .tile x => !(cutRanges (heldRanges s t st) x.base x.last).isEmpty
  | _ => true

/-- The runs of the stream as it arrives, where the node's own runs do not hold the positions: own runs over the tiles, borrowed runs over the
node's own source tiles. The last own run of a copy is its tail. -/
def installRuns (s : State) (t st endPos : Nat) (copy : Bool) (ts : List (Nat × Tile)) (bs : List (ManEntry × List (Nat × Nat))) : Option State :=
  let held := heldRanges s t st
  let parts := ((arrivingRanges (ts.map Prod.snd) endPos copy).map (fun r => cutRanges held r.1 r.2)).flatten
  let own := parts.foldl (fun (acc : Option State) r =>
    acc.bind (fun s =>
      let tail := copy && decide (r.2 = 16777215)
      let d := freshDesc s
      let mine := (ts.filter (fun x => x.2.meets r.1 r.2)).map (fun x => (x.2.layer, x.1))
      addRow (putDesc s d { tenant := t, borrowed := false, tail := tail, low := r.1, high := r.2, srcStream := 0, offset := 0, tiles := mine }) t st r.1 r.2 d))
    (some s)
  let lent := (bs.map (fun b => (cutRanges held b.1.pos b.1.size).map (fun r => (b, r)))).flatten
  lent.foldl (fun (acc : Option State) x =>
    acc.bind (fun s =>
      let d := freshDesc s
      let s1 := putDesc s d { tenant := t, borrowed := true, tail := false, low := x.2.1, high := x.2.2, srcStream := x.1.1.src,
                              offset := x.1.1.offset, tiles := x.1.2 }
      addRow (commitSplice s1 d) t st x.2.1 x.2.2 d)) own

/-- The hand-over or copy is abandoned. -/
def dropHandover (s : State) (t st : Nat) : State := { s with fab := { s.fab with handovers := Tab.del s.fab.handovers (t, st) } }

/-- The pieces of an object that failed its tag are asked for again. -/
def askAgain (s : State) (t st : Nat) (h : Handover) (es : List ManEntry) : State :=
  let h1 := { h with got := h.got.filter (fun g => !es.any (fun e => e.obj == g.1.1)) }
  es.foldl (fun s e => askHandover (bump s (.tier 7)) h.node t e.obj 0 e.size)
    { s with fab := { s.fab with handovers := Tab.put s.fab.handovers (t, st) h1 } }

/-- Everything of a manifest has come. -/
def handoverWhole (h : Handover) : Bool :=
  h.entries.isSome && (handEntries h).all (fun e => e.kind == 3 || (gotBytes h e.obj e.size).isSome)

def fetchDoneEffect (s : State) (t st : Nat) : State :=
  match Tab.find s.fab.handovers (t, st) with
  | none => s
  | some h =>
    if !commits s ∨ !handoverWhole h then s
    else
      let es := handEntries h
      let objs := (es.filter (fun e => decide (e.kind ≠ 3))).map (fun e => (e, openArrived s t st h e))
      let borrowed := (es.filter (fun e => decide (e.kind = 3))).map (fun e => (e, borrowSource s t e))
      let m : TailMsg := ⟨4, h.move, h.copy, 0, t, st, h.epoch, 0, 0, h.endPos, h.manifest, h.granules⟩
      if !slotAdmitted s t ∨ objs.any (fun x => x.2 == .noKey) then refuseTail (dropHandover s t st) h.node m 3
      else if borrowed.any (fun x => x.2.isNone) then refuseTail (dropHandover s t st) h.node m 4
      else if objs.any (fun x => x.2 == .bad) then askAgain s t st h ((objs.filter (fun x => x.2 == .bad)).map Prod.fst)
      else
        match installAll s ((objs.map Prod.snd).filter (wanted s t st)) with
        | none => s
        | some (ts, s2) =>
          match installRuns s2 t st h.endPos h.copy ts (borrowed.map (fun x => (x.1, x.2.getD []))) with
          | none => s
          | some s3 =>
            let s4 := dropHandover s3 t st
            if h.copy then ackTail s4 h.node t st h.epoch h.endPos h.move true h.manifest
            else becomeOwner s4 h.node t st h.epoch h.endPos h.move h.manifest

/-- HANDOVER_FETCH_DONE (R380, R381). -/
def execHandoverFetchDone (t st : Nat) (s : State) : Host.Outcome State Fault Refusal := .next (fetchDoneEffect s t st)

/-! ### Answers and claims (R380, R382) -/

def tailAckEffect (s : State) (node : Nat) (b : List Byte) : State :=
  if !tailFits s 5 b then s
  else
    let m := tailMsgOf b
    if m.copy then (if (Tab.find s.fab.served m.manifest).isSome then dropServed s m.manifest else s)
    else if recordsMeet s m then meetConflict s node m
    else match getOwn s m.tenant m.stream with
      | none => s
      | some o =>
        if o.state ≠ .handing ∨ o.other ≠ node ∨ o.epoch ≠ m.epoch then s
        else becomeNone (if o.move then dropStream s m.tenant m.stream else s) m.tenant m.stream o

/-- TAIL_ACK (R380 step 6). -/
def execTailAck (node : Nat) (bytes : List Byte) (s : State) : Host.Outcome State Fault Refusal := .next (whilePlaced s node (fun s => tailAckEffect s node bytes))

def tailAskEffect (s : State) (node : Nat) (b : List Byte) : State :=
  if !tailFits s 6 b ∨ effRole s = roleShadow then s
  else
    let m := tailMsgOf b
    if recordsMeet s m then meetConflict s node m
    else match getOwn s m.tenant m.stream with
    | none => s
    | some o =>
      match o.state with
        | .owner | .stalled => rivalClaim s node m o
        | .handing => sendTail s o.other (offerMsg s m.tenant m.stream o)
        | _ => s

/-- TAIL_ASK (R382). -/
def execTailAsk (node : Nat) (bytes : List Byte) (s : State) : Host.Outcome State Fault Refusal := .next (whilePlaced s node (fun s => tailAskEffect s node bytes))

def tailRefuseEffect (s : State) (node : Nat) (b : List Byte) : State :=
  if !tailFits s 7 b then s
  else
    let m := tailMsgOf b
    if m.copy then s
    else if recordsMeet s m then enterConflict s node m
    else match getOwn s m.tenant m.stream with
      | none => s
      | some o =>
        if o.state = .awaiting ∧ o.epoch < m.epoch then
          ownEvent (bump (becomeNone s m.tenant m.stream o) (.own 3)) evOwnLost m.tenant m.stream o.epoch node
        else if o.state = .handing ∧ o.other = node ∧ 2 ≤ m.reason ∧ m.reason ≤ 5 then
          putOwn s m.tenant m.stream { o with refusedAt := some (o.refusedAt.getD s.time) }
        else s

/-- TAIL_REFUSE (R382). -/
def execTailRefuse (node : Nat) (bytes : List Byte) (s : State) : Host.Outcome State Fault Refusal := .next (whilePlaced s node (fun s => tailRefuseEffect s node bytes))

def awaitingTimeoutEffect (s : State) (t st : Nat) : State :=
  match getOwn s t st with
  | none => s
  | some o =>
    if o.state ≠ .awaiting ∨ !running s ∨ (Tab.find s.fab.handovers (t, st)).isSome then s
    else
      let s1 := reach s o.nextAsk
      sendTail (putOwn s1 t st { o with nextAsk := s1.time + 5000000 }) o.other
        ⟨6, o.move, false, 0, t, st, o.epoch, recOwner s1 t st, 0, streamEnd s1 t st, 0, 0⟩

/-- AWAITING_TIMEOUT (R382). -/
def execAwaitingTimeout (t st : Nat) (s : State) : Host.Outcome State Fault Refusal := .next (awaitingTimeoutEffect s t st)

/-- A node loses a claim (R382). -/
def loseClaim (s : State) (t st : Nat) (o : Own) : State :=
  let s1 := bump (endWhere s (fun p => p.tenant == t && p.newStreams.contains st && p.deferred) ⟨stNotOwner, 0, 0xFFFF⟩) (.own 3)
  match recOf s1 t st with
  | some r => if r.owner = o.claimant then startHandover s1 t st r else becomeNone s1 t st o
  | none => becomeNone s1 t st o

def stallEndEffect (s : State) (t st : Nat) : State :=
  match getOwn s t st with
  | none => s
  | some o =>
    if o.state ≠ .stalled ∨ !commits s then s
    else
      let s1 := reach s (o.since + 5000000)
      match recOf s1 t st with
      | some r =>
        if namesMe s1 r ∧ o.claimEpoch < r.epoch then
          sendTail (putOwn s1 t st { o with state := .owner, epoch := r.epoch, since := s1.time }) o.claimant
            ⟨7, r.move, false, 1, t, st, r.epoch, r.owner, 0, 0, 0, 0⟩
        else loseClaim s1 t st o
      | none => loseClaim s1 t st o

/-- STALL_END (R382). -/
def execStallEnd (t st : Nat) (s : State) : Host.Outcome State Fault Refusal := .next (stallEndEffect s t st)

def reclaimEffect (s : State) (t st : Nat) : State :=
  match getOwn s t st with
  | none => s
  | some o =>
    match o.refusedAt with
    | none => s
    | some at' =>
      if o.state ≠ .handing ∨ !running s then s
      else
        let s1 := reach s (at' + 5000000)
        if recOwner s1 t st ≠ o.other then s1
        else ownEvent (bump (putOwn (endServing s1 o) t st { o with state := .reclaimed, refusedAt := none, manifest := none }) (.own 4))
          evOwnReclaimed t st o.epoch o.other

/-- RECLAIM_TIMEOUT (R382). -/
def execReclaimTimeout (t st : Nat) (s : State) : Host.Outcome State Fault Refusal := .next (reclaimEffect s t st)

/-! ### Copies to a shadow (R388) -/

/-- An uncommitted program has written the stream. -/
def streamWritten (s : State) (t st : Nat) : Bool := s.pg.ctxs.vals.any (fun p => p.tenant == t && p.newStreams.contains st)

/-- The node holds the tail. -/
def holdsTail (s : State) (t st : Nat) : Bool :=
  match getOwn s t st with | some o => decide (o.state = .owner ∨ o.state = .stalled) | none => false

/-- The snapshot of a stream is offered to a target. -/
def offerCopy (s : State) (t st target : Nat) : State :=
  let epoch := ((getOwn s t st).map Own.epoch).getD 0
  let e := streamEnd s t st
  let m := makeManifest s t st epoch e
  sendTail m.2.2 target ⟨4, false, true, 0, t, st, epoch, recOwner s t st, 0, e, m.1, m.2.1⟩

/-- At a ply boundary: copies asked for, each for its target, whose streams no uncommitted program has written (R388). -/
def serveCopies (s : State) : State :=
  s.fab.copyAsks.foldl (fun s a =>
    let del := fun (s : State) => { s with fab := { s.fab with copyAsks := Tab.del s.fab.copyAsks a.1 } }
    if !holdsTail s a.1.1 a.1.2.1 then del s
    else if streamWritten s a.1.1 a.1.2.1 then s
    else offerCopy (del s) a.1.1 a.1.2.1 a.1.2.2) s

def copyAskEffect (s : State) (node : Nat) (b : List Byte) : State :=
  let m := tailMsgOf b
  if !tailFits s 8 b ∨ (s.fab.active.map Board.fmId) ≠ some node ∨ !holdsTail s m.tenant m.stream then s
  else
    let s1 := { s with fab := { s.fab with copyAsks := Tab.put s.fab.copyAsks (m.tenant, m.stream, m.target) node } }
    if issuedPlies s1 = [] then serveCopies s1 else s1

/-- COPY_ASK (R388). -/
def execCopyAsk (node : Nat) (bytes : List Byte) (s : State) : Host.Outcome State Fault Refusal := .next (whilePlaced s node (fun s => copyAskEffect s node bytes))

/-- PLY_COMPLETE (R97 to R99): the instructions of a ply come to their outcomes; the ply boundary serves copies (R388). -/
def execPlyComplete (ply : Nat) (s : State) : Host.Outcome State Fault Refusal := .next (serveCopies (plyCompleteEffect s ply))

/-- COMMIT_APPLY_END (R245 steps 4 and 5): the commit is applied; a copy that waited for it goes out where no ply runs (R388). -/
def execCommitApplyEnd (c : Nat) (s : State) : Host.Outcome State Fault Refusal :=
  .next (let s1 := commitApplyEndEffect s c; if issuedPlies s1 = [] then serveCopies s1 else s1)

/-! ### Replicas that are lost (R377) -/

/-- A replica is lost: its node is no pool target of the board and cannot be reached. -/
def replicaLost (s : State) (node : Nat) : Bool := !(poolTargets s).contains node && !reachable s node

/-- A lost replica of a BACKED tile is made anew on another target. -/
def renewReplica (s : State) (oid node : Nat) : State :=
  match getTile s oid with
  | none => s
  | some t =>
    if effRole s = roleShadow then s else
    resendTile (putTile s oid { t with replicas := t.replicas.map (fun r => if r.node = node then { r with acked := false } else r) }) oid node

/-- R377 for one tile. -/
def tileReplicas (s : State) (oid : Nat) : State :=
  match getTile s oid with
  | none => s
  | some t =>
    let gone := (t.replicas.map Replica.node).filter (replicaLost s)
    if gone = [] ∨ t.lost then s
    else match t.tier with
      | .backed | .copying => gone.foldl (fun s n => renewReplica s oid n) s
      | .remote | .fetching =>
        if gone.length < t.replicas.length then s
        else raiseEvent (tileLostAll (delFetch s t.objKey) oid) evTileLost
          (commonPayload { tenant := t.tenant, layer := t.layer, id := t.stream, pos := t.base })
      | .resident => s

/-- R377 for every tile: after a switch, and when a node is found unreachable after it. -/
def allReplicas (s : State) : State := s.mem.tiles.keys.foldl tileReplicas s

/-! ### An unreachable peer (R333, R382) -/

/-- Hand-overs to a node begin the wait of a reclaim. -/
def handingUnreachable (s : State) (node : Nat) : State :=
  { s with fab := { s.fab with own := s.fab.own.mapVals (fun _ o =>
      if o.state = .handing ∧ o.other = node then { o with refusedAt := some (o.refusedAt.getD s.time) } else o) } }

def peerUnreachableEffect (s : State) (k : Nat) : State :=
  match getPeer s k with
  | none => s
  | some p =>
    if p.inflight = [] ∨ !running s then s
    else
      let s0 := delPeer (reach s (p.lastAck + 100000000)) k
      let s1 := bump { s0 with net := { s0.net with unreachable := dedup (k :: s0.net.unreachable) } } (.transport 4)
      allReplicas (raiseSeatEvent (handingUnreachable s1 (keyNode k)) evPeerUnreachable p.seat 0 (keyNode k))

/-- PEER_UNREACHABLE (R333). -/
def execPeerUnreachable (peer : Nat) (s : State) : Host.Outcome State Fault Refusal := .next (peerUnreachableEffect s peer)

end Sys2Proof.Machine
end

