-- ==== Sys2Proof/Machine/Board.lean ====
section
/-! DEFINITION. The board: writes, the commit and its switch, what a switch changes (13 R341 to R345, 15 R368 to R370, R377 to R382). -/

namespace Sys2Proof.Machine
open Sys2Proof

/-! ### BOARD messages (R343) -/

/-- The header of a BOARD message and its data. -/
structure BoardMsg where
  op : Nat
  ver : Nat
  offset : Nat
  length : Nat
  data : List Byte
  deriving DecidableEq, Repr

def boardMsgOf (b : List Byte) : BoardMsg := ⟨leAt b 0 1, leAt b 4 4, leAt b 8 4, leAt b 12 4, b.drop 16⟩

/-- The size of the largest image (R343). -/
def maxImage : Nat := 4719872

/-- BOARD messages count from FM_ID of the active board, from any peer while unplaced (R343). -/
def boardHeard (s : State) (node op : Nat) (b : List Byte) : Bool :=
  running s && !s.rst.ctlRunning && decide (1 ≤ s.boot.stage ∧ 16 ≤ b.length ∧ leAt b 0 1 = op) &&
    (match s.fab.active with | some a => decide (node = a.fmId) | none => true)

/-- A REPLY with a result (R343). -/
def boardReply (s : State) (key result : Nat) : State :=
  sendTo { s with fab := { s.fab with lastReply := result } } key 5 0 7
    (recordBytes [(8, 4), (24, 0), (32, boardVer s), (32, 0), (32, 1)] ++ [BitVec.ofNat 8 result])

/-- The check of a COMMIT runs: NODE_TIME still stands where the COMMIT came (R345, log 36). -/
def boardBusy (s : State) : Bool := s.fab.commitAt == some s.time

def boardWriteEffect (s : State) (seat node : Nat) (b : List Byte) : State :=
  if !boardHeard s node 1 b then s
  else if boardBusy s then boardReply s (peerKey node seat) 4
  else
    let m := boardMsgOf b
    if 8192 < m.length ∨ maxImage < m.offset + m.length ∨ m.data.length < m.length then boardReply s (peerKey node seat) 2
    else { s with fab := { s.fab with staging := s.fab.staging ++ [(m.offset, m.data.take m.length)] } }

/-- BOARD_WRITE (R343). -/
def execBoardWrite (seat node : Nat) (bytes : List Byte) (s : State) : Host.Outcome State Fault Refusal := .next (boardWriteEffect s seat node bytes)

def boardAbortEffect (s : State) (node : Nat) (b : List Byte) : State :=
  if boardHeard s node 3 b then { s with fab := { s.fab with staging := [] } } else s

/-- BOARD_ABORT (R343). -/
def execBoardAbort (_seat node : Nat) (bytes : List Byte) (s : State) : Host.Outcome State Fault Refusal := .next (boardAbortEffect s node bytes)

/-! ### The staged image (R341, R342) -/

/-- The position up to which writes cover the staging buffer from 0 without a gap. -/
def stagedTo (ws : List (Nat × List Byte)) : Nat :=
  (sortBy (fun a b => decide (a.1 ≤ b.1)) ws).foldl (fun n w => if w.1 ≤ n then Nat.max n (w.1 + w.2.length) else n) 0

/-- The first `n` bytes of the staging buffer; bytes that no WRITE has placed are free values (log 7). -/
def stagedBytes (s : State) (n : Nat) : List Byte × State :=
  let base := if n ≤ stagedTo s.fab.staging then (zeros n, s) else drawBytes s n
  ((s.fab.staging.foldl (fun b w => patch b w.1 w.2) base.1).take n, base.2)

/-- A forwarding entry; none where a field is reserved or the range is empty (R342). -/
def fwdOf (e : List Byte) : Option FwdEntry :=
  let w := leAt e 4 4
  let seatOk := fun (n : Nat) => decide (n ≤ 5 ∨ n = 7)
  if seatOk (fld w 2 0) && seatOk (fld w 5 3) && decide (fld w 31 6 = 0 ∧ leAt e 0 2 ≤ leAt e 2 2 ∧ leAt e 0x34 12 = 0) then
    some ⟨leAt e 0 2, leAt e 2 2, fld w 2 0, fld w 5 3, beAt e 8 6, beAt e 14 6, beAt e 20 16, beAt e 36 16⟩
  else none

/-- Entries stand in ascending DST_LOW without overlap (R342). -/
def fwdOrdered : List FwdEntry → Bool
  | a :: b :: r => decide (a.high < b.low) && fwdOrdered (b :: r)
  | _ => true

/-- An ownership record; none where reserved bits are set (R342, R378). -/
def ownRecOf (e : List Byte) : Option OwnRec :=
  let w := leAt e 0 4
  if fld w 31 13 = 0 then some ⟨fld w 11 0, leAt e 4 4, leAt e 8 2, leAt e 10 2, bitN w 12, leAt e 12 4⟩ else none

/-- No two records name one tenant and stream (R342). -/
def ownDistinct (rs : List OwnRec) : Bool :=
  let ks := sortBy (· ≤ ·) (rs.map (fun r => r.tenant * 2 ^ 32 + r.stream))
  (List.zipWith (fun a b => decide (a ≠ b)) ks (ks.drop 1)).all id

/-- The numbers of entries that a header gives: forwarding, pool, ownership. -/
def boardCounts (h : List Byte) : Nat × Nat × Nat := (leAt h 0x10 2, leAt h 0x12 2, leAt h 0x14 4)

def boardSize (c : Nat × Nat × Nat) : Nat := 256 + 64 * c.1 + 4 * c.2.1 + 16 * c.2.2

/-- The board of an image that meets R341 and R342 under version `v`. -/
def boardOf (img : List Byte) (v : Nat) : Option Board :=
  let c := boardCounts img
  let seats := chunks 32 (slice img 64 192)
  let fo := 256
  let po := fo + 64 * c.1
  let oo := po + 4 * c.2.1
  let fwd := (chunks 64 (slice img fo (64 * c.1))).map fwdOf
  let pool := chunks 4 (slice img po (4 * c.2.1))
  let own := (chunks 16 (slice img oo (16 * c.2.2))).map ownRecOf
  let b : Board := ⟨v, leAt img 8 2, leAt img 10 2, leAt img 12 4 % 16, seats.map (fun e => beAt e 0 16), seats.map (fun e => leAt e 16 2),
    fwd.filterMap id, pool.map (fun e => leAt e 0 2), own.filterMap id⟩
  if decide (leAt img 0 4 = 1 ∧ leAt img 4 4 = v ∧ 1 ≤ b.ownId ∧ b.ownId ≤ 0xFFFE ∧ 1 ≤ leAt img 12 4 ∧ leAt img 12 4 ≤ 4 ∧ leAt img 0x18 8 = 0) &&
      seats.all (fun e => decide (leAt e 16 16 < 4096)) && fwd.all Option.isSome && fwdOrdered b.fwd &&
      pool.all (fun e => decide (leAt e 2 2 = 0)) && own.all Option.isSome && ownDistinct b.own then some b
  else none

/-- Step 1 of a COMMIT: the result code, with the board where the image is accepted. -/
def checkBoard (s : State) (v : Nat) : Nat × Option Board × State :=
  if v ≤ boardVer s then (1, none, s)
  else
    let h := stagedBytes s 64
    let c := boardCounts h.1
    if 8192 < c.1 ∨ 256 < c.2.1 ∨ 262144 < c.2.2 then (2, none, h.2)
    else
      let img := stagedBytes s (boardSize c)
      match boardOf img.1 v with
      | none => (2, none, img.2)
      | some b => if sha256 (img.1.drop 64) = slice img.1 0x20 32 then (0, some b, img.2) else (3, none, img.2)

/-! ### What a switch changes: ownership (R369, R379, R380, R382) -/

/-- A stream whose record now names this node. -/
def ownNamed (s : State) (t st : Nat) (r : OwnRec) : State :=
  let fresh := if r.prev = 0 ∨ r.prev = ownId s then ownEntry s.time .owner r.epoch r.prev r.move else ownEntry s.time .awaiting r.epoch r.prev r.move
  match getOwn s t st with
  | none => putOwn s t st fresh
  | some o =>
    match o.state with
    | .owner => putOwn s t st { o with epoch := r.epoch, conflict := o.conflict && decide (r.epoch ≤ o.epoch) }
    | .stalled => putOwn s t st { o with conflict := o.conflict && decide (r.epoch ≤ o.epoch) }
    | .reclaimed => putOwn s t st (ownEntry s.time .owner r.epoch r.prev r.move)
    | .awaiting => putOwn (if r.epoch = o.epoch then s else dropHandover s t st) t st fresh
    | .handing => putOwn (endServing s o) t st fresh
    -- a tail that the node held when it entered SHADOW is held again (R369)
    | .none => putOwn s t st (if o.held && o.epoch == r.epoch then ownEntry s.time .owner r.epoch r.prev r.move else fresh)

/-- A stream whose record names another node. -/
def ownOther (s : State) (t st : Nat) (r : OwnRec) : State :=
  match getOwn s t st with
  | none => s
  | some o =>
    match o.state with
    | .owner | .reclaimed => startHandover s t st r
    | .handing => if r.owner = o.other ∧ r.epoch = o.epoch then s else startHandover (endServing s o) t st r
    | .awaiting => becomeNone s t st o
    | .stalled => s
    | .none => putOwn s t st { o with conflict := o.conflict && decide (r.epoch ≤ o.epoch) }

/-- A stream that no record names. -/
def ownUnnamed (s : State) (t st : Nat) : State :=
  match getOwn s t st with
  | none => s
  | some o => if o.state = .stalled ∨ o.state = .none then s else becomeNone s t st o

/-- The ownership of one stream after a switch from board `old`; `again` where the records govern anew. -/
def ownTransition (old : Option Board) (again : Bool) (s : State) (k : Nat × Nat) : State :=
  let r := recOf s k.1 k.2
  if !again ∧ r = old.bind (fun b => recIn b k.1 k.2) then s
  else match r with
    | some r => if namesMe s r then ownNamed s k.1 k.2 r else ownOther s k.1 k.2 r
    | none => ownUnnamed s k.1 k.2

/-- Kept offers that the new board accepts (R380 step 4). -/
def acceptKept (s : State) : State :=
  s.fab.offers.foldl (fun s x =>
    let m := tailMsgOf x.2.bytes
    if offerMatches s x.2.node m then acceptOffer { s with fab := { s.fab with offers := Tab.del s.fab.offers x.1 } } x.2.node m else s) s

/-- In the SHADOW role no record names the node: states, offers and hand-overs end, open migration offers with them, copies go on; the node remembers
the tails it held (R368, R369). -/
def enterShadow (s : State) : State :=
  let s1 := s.fab.own.foldl (fun s x => endServing s x.2) s
  let rest := fun (o : Own) => { o with state := .none, held := decide (o.state = .owner ∨ o.state = .stalled) || (o.held && decide (o.state = .none)),
                                        refusedAt := none, manifest := none }
  { s1 with fab := { s1.fab with own := s1.fab.own.mapVals (fun _ o => rest o), offers := [], handovers := s1.fab.handovers.filter (fun h => h.2.copy),
                                 proposals := s1.fab.proposals.filter (fun p => p.2.sent) } }

/-- Ownership after a switch. -/
def switchOwnership (s : State) (old : Option Board) (oldId oldRole : Nat) : State :=
  if effRole s = roleShadow then enterShadow s
  else
    let keys := dedup (s.fab.own.keys ++ ((s.fab.active.map Board.own).getD []).map (fun r => (r.tenant, r.stream)))
    acceptKept (keys.foldl (ownTransition old (decide (oldRole = roleShadow ∨ oldRole = roleUnplaced ∨ oldId ≠ ownId s))) s)

/-! ### What a switch changes: proposals (R179) -/

/-- Proposals whose target the board now names are confirmed (R179). -/
def confirmMigrations (s : State) : State :=
  s.fab.proposals.foldl (fun s p =>
    if p.2.sent ∧ recOwner s p.1.1 p.1.2 = p.2.target then
      bump { s with fab := { s.fab with proposals := Tab.del s.fab.proposals p.1 } } (.migrate 2)
    else s) s

/-! ### The switch (R343 to R345, R368) -/

/-- The role after a switch: ROLE_DEGRADED where the node takes DEGRADED_SERVE itself; an entry to it counts in the health (R368, R389). -/
def switchRole (s : State) (b : Board) (before : Nat) : State :=
  if effRole s ≠ roleDegraded then s
  else if b.role = roleServe then degradedCheck s before
  else if before = roleDegraded then s else addHealth s true 32768

/-- A board becomes active: the one before it is the previous for 2 ms, the staging buffer is empty, the node is placed; a changed
OWN_ID clears the transport's peers (R343 to R345). -/
def switchBoard (s : State) (b : Board) : State :=
  let old := s.fab.active
  let s1 := { s with fab := { s.fab with active := some b, prev := old, graceEnd := old.map (fun _ => s.time + 2000000), staging := [],
                                         switches := satAdd 32 s.fab.switches 1 },
                     boot := { s.boot with stage := 3 } }
  match old with
  | some o => if o.ownId ≠ b.ownId then clearPeers s1 else s1
  | none => s1

/-- Peer state with the writer of the board, on the way its frames came (R374). -/
def keepWriter (before s : State) (key : Nat) : State :=
  match getPeer before key, getPeer s key with
  | some p, none => (ensurePeer s key ⟨p.seat, p.mac, p.ip⟩).getD s
  | _, _ => s

/-- Everything that follows from a switch. -/
def boardSwitched (s : State) (b : Board) (seat node : Nat) : State :=
  let role := effRole s
  let s1 := flushEvents (keepWriter s (switchBoard s b) (peerKey node seat))
  let s2 := raiseSeatEvent (switchRole s1 b role) evBoardSwitched seat 0 node
  let s3 := switchOwnership s2 s.fab.active (ownId s) role
  confirmMigrations (allReplicas s3)

def boardCommitEffect (s : State) (seat node : Nat) (b : List Byte) : State :=
  let key := peerKey node seat
  if !boardHeard s node 2 b then s
  else if s.boot.stage < 2 ∨ boardBusy s then boardReply s key 4
  else
    let r := checkBoard { s with fab := { s.fab with commitAt := some s.time } } (boardMsgOf b).ver
    match r.2.1 with
    | some n => boardReply (boardSwitched r.2.2 n seat node) key 0
    | none => boardReply r.2.2 key r.1

/-- BOARD_COMMIT (R343, R344, R377, R380). -/
def execBoardCommit (seat node : Nat) (bytes : List Byte) (s : State) : Host.Outcome State Fault Refusal := .next (boardCommitEffect s seat node bytes)

def graceEndEffect (s : State) : State :=
  match s.fab.graceEnd with
  | none => s
  | some t => let s1 := reach s t; { s1 with fab := { s1.fab with prev := none, graceEnd := none } }

/-- BOARD_GRACE_END (R345). -/
def execBoardGraceEnd (s : State) : Host.Outcome State Fault Refusal := .next (graceEndEffect s)

end Sys2Proof.Machine
end

