-- ==== Sys2Proof/Machine/Forward.lean ====
section
/-! DEFINITION. Forwarding by the board (13 R338 to R340, R345, 14 R355, R356, R361). -/

namespace Sys2Proof.Machine
open Sys2Proof

/-! ### Choosing the next hop (R339) -/

/-- The previous table counts while its grace period runs (R345). -/
def graceRuns (s : State) : Bool := match s.fab.graceEnd with | some t => decide (s.time < t) | none => false

/-- The table of a frame stamped with a board version, and whether the frame is STALE (R339 step 2). -/
def forwardTable (s : State) (ver : Nat) : Option Board × Bool :=
  match s.fab.active, s.fab.prev with
  | some a, some p => if ver = p.ver ∧ graceRuns s then (some p, false) else (some a, decide (ver ≠ a.ver))
  | some a, none => (some a, decide (ver ≠ a.ver))
  | none, _ => (none, false)

/-- Where a frame goes: the next hop, or the position in FWD_STAT of what drops it (R339 steps 1 to 5). -/
def chooseHop (s : State) (seat : Nat) (h : THdr) : Except Nat Hop :=
  if h.hops = 0 then .error 3
  else match (forwardTable s h.boardVer).1 with
    | none => .error 4
    | some b =>
      match fwdEntry b h.dst with
      | none => .error 4
      | some e =>
        match entryHop s e with
        | none => .error 5
        | some hop => if hop.seat = seat ∧ !(getSeat s seat).partnerKind then .error 6 else .ok hop

/-! ### Rewriting (R327, R339 step 6) -/

/-- The checksum after words it covers have changed; zero, which is no checksum, stays (R339). -/
def updateSum (old : Nat) (before after : List Byte) : Nat :=
  if old = 0 then 0
  else
    let n := inetSum (beBytes 2 (65535 - old) ++ before.map (fun b => ~~~b) ++ after)
    if n = 0 then 65535 else n

/-- The transport header for the next hop: HOPS less one, VER 1.0 where the egress seat runs 1.0, the colour where COLOUR is negotiated
there and zero elsewhere (R327, R361). -/
def forwardHeader (s : State) (hop : Hop) (colour : Nat) (bs : List Byte) : List Byte :=
  let f := beAt bs 2 2
  let c := if seatFeature s hop.seat 1 then colour else 0
  let bs1 := patch (patch bs 12 (beBytes 1 (beAt bs 12 1 - 1))) 2 (beBytes 2 (f - fld f 7 6 * 64 + c * 64))
  if seatVersion s hop.seat = 2 then bs1 else patch bs1 0 [0x10]

/-- The frame for the next hop: addresses of the hop, PCP, DSCP and ECN kept, the checksum updated. An untagged frame that leaves on a
tagging seat takes the PCP of its class; an address of the other IP version takes a header of that version (DEDUCED, log 33). -/
def forwardBytes (s : State) (rx : Rx) (cls : Nat) (hop : Hop) (colour : Nat) (bs : List Byte) : List Byte :=
  let o := ipOffset bs
  let was4 := decide ((bs.getD o 0).toNat / 16 = 4)
  let u := o + (if was4 then 20 else 40)
  let v4 := isV4 hop.ip
  let own := seatIp s hop.seat
  let src := if isV4 own == v4 then own else linkLocal (seatMac hop.seat)
  let len := beAt bs (u + 4) 2
  let th := slice bs (u + 8) 48
  let th' := forwardHeader s hop colour th
  let osrc := if was4 then beAt bs (o + 12) 4 else beAt bs (o + 8) 16
  let odst := if was4 then beAt bs (o + 16) 4 else beAt bs (o + 24) 16
  let sum := updateSum (beAt bs (u + 6) 2) (pseudo was4 osrc odst len ++ th) (pseudo v4 src hop.ip len ++ th')
  let udp := slice bs u 6 ++ beBytes 2 sum ++ th' ++ bs.drop (u + 56)
  let tci := match rx.tci with | some t => t / 4096 * 4096 | none => classPrio s hop.seat cls * 8192
  let vid := ((s.fab.active.map Board.seatVids).getD []).getD hop.seat 0
  let eth := beBytes 6 hop.mac ++ beBytes 6 (seatMac hop.seat)
  let tag := if (getSeat s hop.seat).vlanEn then beBytes 2 0x8100 ++ beBytes 2 (tci + vid) else []
  if v4 then
    let h0 := beBytes 1 0x45 ++ beBytes 1 rx.tos ++ beBytes 2 (20 + udp.length) ++ beBytes 2 0 ++ beBytes 2 0x4000 ++ beBytes 1 64 ++ beBytes 1 17
    let ads := beBytes 4 src ++ beBytes 4 hop.ip
    eth ++ tag ++ beBytes 2 0x0800 ++ h0 ++ beBytes 2 (inetSum (h0 ++ ads)) ++ ads ++ udp
  else
    eth ++ tag ++ beBytes 2 0x86DD ++ beBytes 4 (0x60000000 + rx.tos * 2 ^ 20) ++ beBytes 2 udp.length ++ beBytes 1 17 ++ beBytes 1 64 ++
      beBytes 16 src ++ beBytes 16 hop.ip ++ udp

/-! ### Metering, limits, cut-through (R340, R355, R356, R361) -/

/-- The transit policer of the ingress seat meters a DATA frame (R358, R361). -/
def meterTransit (s : State) (rx : Rx) (colour : Nat) (bs : List Byte) : Verdict × State :=
  if rx.hdr.type ≠ ftData then (.pass colour, s)
  else
    let t := getST s rx.seat
    let r := police s t.transit (countedLen t.ovhMeter bs) colour (fun i => .transit rx.seat i)
    (r.1, putST r.2.2 rx.seat { (getST r.2.2 rx.seat) with transit := r.2.1 })

/-- The position in EGRESS_STAT of the limit that drops a forwarded frame of a class, colour and length, if one does (R356). -/
def limitDrop (s : State) (seat cls colour n : Nat) : Option Nat :=
  if !hasRoom s (seat, cls, commonQ) n then some 2
  else if colour = 1 ∧ (getST s seat).yellow * 1024 ≤ classOcc s seat cls then some 3
  else if colour = 2 ∧ (getST s seat).red * 1024 ≤ classOcc s seat cls then some 4
  else none

/-- A frame may cut through: the egress seat is no faster and its class queue is empty, neither paused nor held by its class shaper
(R340, R355). -/
def cutsThrough (s : State) (ingress egress cls : Nat) : Bool :=
  decide (seatRate s egress ≤ seatRate s ingress) && busyQueues s egress cls == [] && !classPaused s egress cls && classFree s egress cls

/-- The forwarded frame enters its common queue and is counted; a cut-through copy of a frame that fails its FCS or FEC leaves with an
inverted FCS (R339, R340). -/
def forwardOn (s : State) (rx : Rx) (f : Frame) (hop : Hop) (cls : Nat) : State :=
  let cut := cutsThrough s rx.seat hop.seat cls
  let stomp := !f.fcsOk || !f.fecOk
  let s0 := if (forwardTable s rx.hdr.boardVer).2 then bump s (.fwd 7) else s
  let m := meterTransit s0 rx (classify347 s rx.seat (rx.tci.map (· / 8192)) (rx.tos / 4) rx.hdr.colour).2 f.bytes
  let go := fun (s : State) (bytes : List Byte) (colour : Nat) =>
    match limitDrop s hop.seat cls colour (frameLen bytes) with
    | some i => bump s (.egress hop.seat cls i)
    | none =>
      let s1 := enqueue s hop.seat cls commonQ ⟨bytes, s.time, true, cut, false, stomp⟩
      let s2 := bump (bump s1 (.fwd 0)) (.fwd (if cut then 1 else 2))
      if stomp then bump s2 (.seatFec hop.seat 2) else s2
  match m.1 with
  | .drop => m.2
  | .pass k => go m.2 (forwardBytes s rx cls hop k f.bytes) k
  | .mark k => go m.2 (markCE (forwardBytes s rx cls hop k f.bytes)) k

/-- A DATA or ACK frame for another node, at a placed node (R338, R339). -/
def forwardable (s : State) (h : THdr) : Bool :=
  placed s && decide ((h.type = ftData ∨ h.type = ftAck) ∧ h.dst ≠ ownId s ∧ h.dst ≠ 0xFFFF)

/-- R339 for a frame that passed its checks. -/
def forwardGood (s : State) (rx : Rx) (f : Frame) : State :=
  if !forwardable s rx.hdr then s
  else match chooseHop s rx.seat rx.hdr with
    | .error n =>
      let s0 := if rx.hdr.hops ≠ 0 ∧ (forwardTable s rx.hdr.boardVer).2 then bump s (.fwd 7) else s
      bump s0 (.fwd n)
    | .ok hop => forwardOn s rx f hop (classify347 s rx.seat (rx.tci.map (· / 8192)) (rx.tos / 4) rx.hdr.colour).1

/-- The headers of a frame whose end is bad, read before its end has come: its FCS, its FEC and the checksum over its payload are not
known yet. -/
def headFrame (f : Frame) : Frame :=
  let o := ipOffset f.bytes
  { f with fcsOk := true, fecUncorr := 0, bytes := patch f.bytes (o + (if (f.bytes.getD o 0).toNat / 16 = 4 then 26 else 46)) [0, 0] }

/-- A frame that fails its FCS or FEC is dropped, unless it has begun to leave by cut-through (R316, R319, R340). -/
def forwardBad (s : State) (seat : Nat) (f : Frame) : State :=
  match checkFrame s seat (headFrame f) with
  | .error _ => s
  | .ok rx =>
    if (getSeat s seat).state ≠ seatUp ∨ !forwardable s rx.hdr then s
    else match chooseHop s seat rx.hdr with
      | .error _ => s
      | .ok hop =>
        let cls := (classify347 s seat (rx.tci.map (· / 8192)) (rx.tos / 4) rx.hdr.colour).1
        if cutsThrough s seat hop.seat cls then forwardOn s rx f hop cls else s

def forwardEffect (s : State) (seat : Nat) (f : Frame) : State :=
  if f.fcsOk && f.fecOk then
    let r := receive s seat f
    match r.2 with | some rx => forwardGood r.1 rx f | none => r.1
  else
    -- `receive` counts the frame under check 1, or as one that found the buffer full and goes nowhere (R321)
    let s1 := (receive s seat f).1
    if linkUp s seat ∧ !ingressFull (ingressDrain (arrive s seat f) seat) seat (frameLen f.bytes) then forwardBad s1 seat f else s1

/-- FORWARD_FRAME (R339, R340, R361). -/
def execForwardFrame (seat : Nat) (frame : Frame) (s : State) : Host.Outcome State Fault Refusal := .next (forwardEffect s seat frame)

end Sys2Proof.Machine
end

