-- ==== Sys2Proof/Machine/Seats.lean ====
section
/-! DEFINITION. Seats: training, link, hello, keepalive (13 R315 to R326, 15 R366, R367, 19 R482). -/

namespace Sys2Proof.Machine
open Sys2Proof

/-- A seat without a partner: what its hello brought and the exchange are forgotten. -/
def noPartner (x : Seat) : Seat :=
  { x with version := 0, features := 0, role := 0, nodeId := 0xFFFF, unitId := 0, partnerMac := 0, partnerIp := 0, nonce := none,
           helloDue := none, tsRecent := 0, retryAt := none, ingress := [], xoffSent := [], paused := [] }

/-- A seat goes to a state below UP; leaving UP raises SEAT_DOWN with a reason (R323, R346). -/
def seatTo (s : State) (seat st reason : Nat) : State :=
  let old := getSeat s seat
  let s1 := updSeat (settlePause s seat) seat (fun x => { (noPartner x) with state := st })
  if old.state = seatUp then raiseSeatEvent s1 evSeatDown seat reason old.nodeId else s1

/-- The reference that feeds a seat is present (R482). -/
def refPresent (s : State) (seat : Nat) : Bool := !s.mon.seatLost.contains (seat / 3)

/-- Training of a seat starts anew where the seat is enabled and its reference is present; otherwise the seat is DOWN (R317, R323). -/
def startTraining (s : State) (seat : Nat) : State :=
  if !(getSeat s seat).enable then seatTo s seat seatDown 3
  else if refPresent s seat then seatTo s seat seatTraining 1
  else seatTo s seat seatDown 1

/-- A seat enters UP: SEAT_UP, an owning host that appears takes the events that waited, and messages go on (R323, R366, R367). -/
def enterUp (s : State) (seat : Nat) : State :=
  let s1 := updSeat s seat (fun x => { x with state := seatUp, lastRx := s.time, helloDue := none })
  let s2 := if seat = s1.net.hostActive then flushEvents s1 else s1
  let s3 := raiseSeatEvent s2 evSeatUp seat 0 (getSeat s2 seat).nodeId
  pumpAll (if seat = s3.net.hostActive then hostAppears s3 else s3)

def seatEnableEffect (s : State) (seat : Nat) : State :=
  if started s ∧ seat < 6 then startTraining (updSeat s seat (fun x => { x with enable := true })) seat else s

/-- SEAT_ENABLE (R317, R323): the seat is enabled and its training starts. -/
def execSeatEnable (seat : Nat) (s : State) : Host.Outcome State Fault Refusal := .next (seatEnableEffect s seat)

/-- A training that runs, and is not waiting for its retry. -/
def inTraining (s : State) (seat : Nat) : Bool :=
  started s && decide (seat < 6 ∧ (getSeat s seat).state = seatTraining ∧ (getSeat s seat).retryAt = none)

def trainingCompleteEffect (s : State) (seat : Nat) : State :=
  if !inTraining s seat then s
  else if (getSeat s seat).partnerKind then enterUp s seat
  else
    let d := draw s
    updSeat d.2 seat (fun x => { x with state := seatHello, helloCount := 0, helloDue := some (s.time + d.1.toNat % 50000001) })

/-- TRAINING_COMPLETE (R323, R326): a SWITCH seat enters UP; a DIRECT seat enters HELLO, its first hello after 0 to 50 ms. -/
def execTrainingComplete (seat : Nat) (s : State) : Host.Outcome State Fault Refusal := .next (trainingCompleteEffect s seat)

def trainingFailedEffect (s : State) (seat : Nat) : State :=
  if inTraining s seat then updSeat s seat (fun x => { x with retryAt := some (s.time + 100000000) }) else s

/-- TRAINING_FAILED (R317). -/
def execTrainingFailed (seat : Nat) (s : State) : Host.Outcome State Fault Refusal := .next (trainingFailedEffect s seat)

def trainingRetryEffect (s : State) (seat : Nat) : State :=
  match (getSeat s seat).retryAt with
  | none => s
  | some t => if started s ∧ seat < 6 then startTraining (reach s t) seat else s

/-- TRAINING_RETRY (R317): 100 ms after the failure the seat trains again while it is enabled. -/
def execTrainingRetry (seat : Nat) (s : State) : Host.Outcome State Fault Refusal := .next (trainingRetryEffect s seat)

def linkLossEffect (s : State) (seat : Nat) : State :=
  if linkUp s seat ∧ seat < 6 then seatTo s seat seatDown 1 else s

/-- LINK_LOSS (R323). -/
def execLinkLoss (seat : Nat) (s : State) : Host.Outcome State Fault Refusal := .next (linkLossEffect s seat)

/-! ### Hello (R324 to R326) -/

/-- The node ID a hello announces (R324). -/
def helloId (s : State) : Nat := if placed s then ownId s else 0xFFFF

/-- VERSIONS a seat offers (R325). -/
def offerVersions (x : Seat) : Nat := if x.v11En then 3 else 1

/-- FEATURES a seat offers (R325). -/
def offerFeatures (x : Seat) : Nat :=
  packFields [(1, b2n x.jumboEn), (1, b2n x.v11En), (1, b2n x.v11En), (1, b2n (x.pfcAEn || x.pfcBEn)), (28, 0)]

/-- The 32-byte payload (R324). -/
def helloPayload (s : State) (seat kind nonce : Nat) : List Byte :=
  let x := getSeat s seat
  recordBytes [(8, kind), (3, seat), (5, 0), (4, effRole s), (12, 0), (16, helloId s), (16, 0), (32, boardVer s), (2, offerVersions x),
    (30, 0), (32, offerFeatures x), (32, nonce), (64, Config.unitId.toNat)]

/-- The MAC of ff02::1. -/
def allNodesMac : Nat := 0x333300000001

/-- The header of a link-local frame of a type: DST_NODE 0xFFFF, the partner's latest TSVAL; HOPS is 1 in a HELLO, 255 otherwise (R324, R327, R339). -/
def linkHdr (s : State) (seat type ver : Nat) : THdr :=
  { ver := ver, type := type, src := helloId s, dst := 0xFFFF, boardVer := boardVer s, hops := if type = ftHello then 1 else 255,
    tsecr := (getSeat s seat).tsRecent }

/-- Sends a HELLO frame, a hello or an answer (R324). -/
def sendHello (s : State) (seat kind nonce : Nat) : State :=
  originate s seat allNodesMac allNodes 7 commonQ (linkHdr s seat ftHello 0x10) (helloPayload s seat kind nonce)

/-- The interval before the next hello after `n` unanswered ones: 1 s, doubled after every eighth, at most 8 s (R326). -/
def helloInterval (n : Nat) : Nat := 1000000000 * Nat.min 8 (2 ^ (n / 8))

def helloTimerEffect (s : State) (seat : Nat) : State :=
  let x := getSeat s seat
  match x.helloDue with
  | none => s
  | some t =>
    if !linkUp s seat ∨ 6 ≤ seat ∨ x.partnerKind ∨ x.state ≠ seatHello then s
    else
      let d := draw (reach s t)
      let nonce := d.1.toNat % 2 ^ 32
      let s1 := updSeat d.2 seat (fun x => { x with nonce := some nonce, helloCount := x.helloCount + 1,
                                                     helloDue := some (d.2.time + helloInterval (x.helloCount + 1)) })
      sendHello s1 seat 0 nonce

/-- HELLO_TIMER (R326). -/
def execHelloTimer (seat : Nat) (s : State) : Host.Outcome State Fault Refusal := .next (helloTimerEffect s seat)

/-- What a hello tells of the partner: version, features, role, identity, addresses (R320, R324, R325). -/
def recordPartner (rx : Rx) (x : Seat) : Seat :=
  let p := rx.payload
  let common := offerVersions x &&& leAt p 12 4 % 4
  let feats := (offerFeatures x &&& leAt p 16 4) &&& (if 2 ≤ common then 0xF else 0x9)
  { x with version := if 2 ≤ common then 2 else 1, features := feats, role := fld (leAt p 0 4) 19 16, nodeId := leAt p 4 2,
           unitId := BitVec.ofNat 64 (leAt p 24 8), partnerMac := rx.srcMac, partnerIp := rx.srcIp }

/-- A hello or an answer received on a DIRECT seat (R325, R367). -/
def takeHello (s : State) (seat : Nat) (rx : Rx) : State :=
  let x := getSeat s seat
  let kind := leAt rx.payload 0 1
  let nonce := leAt rx.payload 20 4
  let wanted := kind = 0 ∨ (kind = 1 ∧ x.nonce = some nonce)
  if ¬wanted then s
  else if offerVersions x &&& leAt rx.payload 12 4 % 4 = 0 then bump s (.seatStat seat 14)
  else
    let s1 := updSeat s seat (recordPartner rx)
    let s2 := if kind = 0 then sendHello s1 seat 1 nonce
      else updSeat s1 seat (fun x => { x with nonce := none, helloCount := x.helloCount - 1 })
    if x.state = seatUp then (if seat = s2.net.hostActive then hostAppears s2 else s2) else enterUp s2 seat

def helloEffect (s : State) (seat : Nat) (f : Frame) : State :=
  let r := receive s seat f
  match r.2 with
  | none => r.1
  | some rx =>
    if rx.hdr.type = ftHello ∧ rx.hdr.dst = 0xFFFF ∧ rx.payload.length = 32 ∧ !(getSeat s seat).partnerKind then takeHello (noteSeen r.1 rx) seat rx
    else r.1

/-- HELLO (R325, R367). -/
def execHello (seat : Nat) (frame : Frame) (s : State) : Host.Outcome State Fault Refusal := .next (helloEffect s seat frame)

/-! ### Keepalive (R326) -/

/-- A DIRECT seat in UP. -/
def directUp (s : State) (seat : Nat) : Bool := running s && isUp s seat && !(getSeat s seat).partnerKind && decide (seat < 6)

def keepaliveTimerEffect (s : State) (seat : Nat) : State :=
  if !directUp s seat then s
  else
    let x := getSeat s seat
    let s1 := reach s (x.lastTx + 1000000)
    originate s1 seat x.partnerMac x.partnerIp 7 commonQ (linkHdr s1 seat ftKeepalive (seatVer s1 seat)) []

/-- KEEPALIVE_TIMER (R326). -/
def execKeepaliveTimer (seat : Nat) (s : State) : Host.Outcome State Fault Refusal := .next (keepaliveTimerEffect s seat)

def keepaliveEffect (s : State) (seat : Nat) (f : Frame) : State :=
  let r := receive s seat f
  match r.2 with | some rx => noteSeen r.1 rx | none => r.1

/-- KEEPALIVE (R326): the frame passes R319 and the seat has received something. -/
def execKeepalive (seat : Nat) (frame : Frame) (s : State) : Host.Outcome State Fault Refusal := .next (keepaliveEffect s seat frame)

def partnerLostEffect (s : State) (seat : Nat) : State :=
  if !directUp s seat then s
  else
    let s1 := seatTo (reach s ((getSeat s seat).lastRx + 8000000)) seat seatHello 2
    updSeat s1 seat (fun x => { x with helloDue := some (s1.time + helloInterval x.helloCount) })

/-- PARTNER_LOST (R326). -/
def execPartnerLost (seat : Nat) (s : State) : Host.Outcome State Fault Refusal := .next (partnerLostEffect s seat)

/-! ### Seat references (R482) -/

/-- The seats a reference feeds. -/
def fedSeats (ref : Nat) : List Nat := (List.range 6).filter (fun i => i / 3 == ref)

def seatRefclkLostEffect (s : State) (ref : Nat) : State :=
  if !s.boot.powered ∨ 2 ≤ ref ∨ s.mon.seatLost.contains ref then s
  else
    let s1 := { s with mon := { s.mon with seatLost := ref :: s.mon.seatLost } }
    (fedSeats ref).foldl (fun s i => if (getSeat s i).state = seatDown then s else seatTo s i seatDown 1) s1

/-- SEAT_REFCLK_LOST (R482). -/
def execSeatRefclkLost (ref : Nat) (s : State) : Host.Outcome State Fault Refusal := .next (seatRefclkLostEffect s ref)

def seatRefclkReturnEffect (s : State) (ref : Nat) : State :=
  if !s.boot.powered ∨ !s.mon.seatLost.contains ref then s
  else
    let s1 := { s with mon := { s.mon with seatLost := s.mon.seatLost.filter (· ≠ ref) } }
    if started s1 then (fedSeats ref).foldl (fun s i => if (getSeat s i).enable then startTraining s i else s) s1 else s1

/-- SEAT_REFCLK_RETURN (R482). -/
def execSeatRefclkReturn (ref : Nat) (s : State) : Host.Outcome State Fault Refusal := .next (seatRefclkReturnEffect s ref)

end Sys2Proof.Machine
end

