-- ==== Sys2Proof/Machine/Discovery.lean ====
section
/-! DEFINITION. Discovery: probes, assigned IDs, answers (15 R371 to R374). -/

namespace Sys2Proof.Machine
open Sys2Proof

/-- Nibble `i` of a list of seats (R372). -/
def seatNibble (bs : List Byte) (i : Nat) : Nat := ((bs.getD (i / 2) 0).toNat >>> (4 * (i % 2))) % 16

/-- A list of seats as nibbles, 128 bytes. -/
def nibbleBytes (l : List Nat) : List Byte := leBytes 128 (packFields (l.map (fun n => (4, n))))

/-- Fields of a DISCOVERY payload (R372). -/
structure Disc where
  op : Nat
  len : Nat
  index : Nat
  fmId : Nat
  assignId : Nat
  nonce : Nat
  route : List Nat
  back : List Nat
  deriving DecidableEq, Repr

def discOf (p : List Byte) : Disc :=
  ⟨leAt p 0 1, leAt p 1 1, leAt p 2 1, leAt p 4 2, leAt p 6 2, leAt p 8 4, (List.range 256).map (seatNibble (slice p 0x20 128)),
   (List.range 256).map (seatNibble (slice p 0xA0 128))⟩

/-- The SEATS part of an answer. -/
def discSeats (s : State) : List Byte :=
  ((List.range 6).map (fun i =>
    let x := getSeat s i
    recordBytes [(8, x.state), (2, x.mode), (1, b2n x.partnerKind), (5, 0), (16, x.nodeId), (32, 0), (64, x.unitId.toNat)])).flatten

/-- The payload of an answer or acknowledgement: back the way the frame came, the first hop taken (R373). -/
def discAnswer (s : State) (op : Nat) (d : Disc) : List Byte :=
  recordBytes [(8, op), (8, d.len + 1), (8, 1), (8, 0), (16, d.fmId), (16, s.fab.pendingId), (32, d.nonce), (8, s.boot.stage), (8, effRole s), (16, 0),
      (64, Config.unitId.toNat), (32, boardVer s), (32, 0)] ++
    nibbleBytes ((d.back.take (d.len + 1)).reverse) ++ zeros 128 ++ discSeats s

/-- Sends a DISCOVERY frame of the node's own on a seat (R372, R348). -/
def sendDisc (s : State) (seat : Nat) (payload : List Byte) : State :=
  originate s seat allNodesMac allNodes 7 commonQ { (linkHdr s seat ftDiscovery 0x10) with src := ownId s } payload

/-- The FABRIC message of OP NEIGHBOURS with the body of an answer (R373, R383, log 32). -/
def neighboursMessage (answer : List Byte) : List Byte := [1] ++ zeros 11 ++ answer.drop 12

/-- The target of a PROBE answers it; a placed node whose board leads to the fabric manager by a FABRIC message (R373). -/
def answerProbe (s : State) (seat : Nat) (d : Disc) : State :=
  let a := discAnswer s 2 d
  match s.fab.active with
  | some b => if (fwdEntry b d.fmId).isSome then sendMsg s d.fmId 7 0 7 (neighboursMessage a) else sendDisc s seat a
  | none => sendDisc s seat a

/-- The target of an ASSIGN takes the pending ID while it is unplaced, and acknowledges (R373, R374). -/
def takeAssign (s : State) (seat : Nat) (d : Disc) : State :=
  let s1 := if placed s then s else { s with fab := { s.fab with pendingId := d.assignId } }
  sendDisc s1 seat (discAnswer s1 4 d)

/-- At most 4,096 frames leave a seat in a second (R373). -/
def discRoom (s : State) (seat : Nat) : Bool := let x := getSeat s seat; decide (x.discSecond ≠ s.time / 1000000000 ∨ x.discCount < 4096)

def countDisc (s : State) (seat : Nat) : State :=
  let sec := s.time / 1000000000
  updSeat s seat (fun x => { x with discSecond := sec, discCount := if x.discSecond = sec then x.discCount + 1 else 1 })

/-- The header with which a DISCOVERY frame goes on: HOPS less one, VER and COLOUR as a seat of transport 1.0 has them (R327, R373). -/
def discHeader (s : State) (out : Nat) (h : THdr) : THdr :=
  let f := if seatFeature s out 1 then h.flags else h.flags - fld h.flags 7 6 * 64
  { h with ver := if seatVersion s out = 1 then 0x10 else h.ver, flags := f, hops := h.hops - 1 }

/-- A frame on its way: sent on the next seat of its route with its header, PCP, DSCP and ECN kept, in the common queue of its class, or dropped
(R347, R349, R350, R356, R373). -/
def forwardDisc (s : State) (rx : Rx) (d : Disc) (payload : List Byte) : State :=
  let out := d.route.getD d.index 15
  if 6 ≤ out ∨ rx.hdr.hops = 0 ∨ !linkUp s out ∨ !discRoom s out then bump s (.fabric 1)
  else
    let p := patch payload 2 [BitVec.ofNat 8 (d.index + 1)]
    let k := classify347 s rx.seat (rx.tci.map (· / 8192)) (rx.tos / 4) rx.hdr.colour
    let pcp := match rx.tci with | some t => t / 8192 | none => classPrio s out k.1
    let bytes := buildFrame s out allNodesMac allNodes pcp rx.tos rx.sport (discHeader s out rx.hdr) p
    match limitDrop s out k.1 k.2 (frameLen bytes) with
    | some i => bump s (.egress out k.1 i)
    | none => bump (enqueue (countDisc s out) out k.1 commonQ ⟨bytes, s.time, true, false, false, false⟩) (.fabric 0)

/-- R373: the ingress seat is recorded; a frame with hops left goes on, one at its end is taken by `target`. -/
def takeDisc (s : State) (rx : Rx) (target : State → Nat → Disc → State) : State :=
  let d0 := discOf rx.payload
  let b := 0xA0 + d0.index / 2
  let old := (rx.payload.getD b 0).toNat
  let new := if d0.index % 2 = 0 then old / 16 * 16 + rx.seat else old % 16 + 16 * rx.seat
  let p := patch rx.payload b [BitVec.ofNat 8 new]
  let d := discOf p
  if d.index < d.len then forwardDisc s rx d p
  else if d.index = d.len then target s rx.seat d
  else bump s (.fabric 1)

/-- Receives a DISCOVERY frame of some operations. -/
def discEffect (s : State) (seat : Nat) (f : Frame) (ops : List Nat) (target : State → Nat → Disc → State) : State :=
  let r := receive s seat f
  match r.2 with
  | none => r.1
  | some rx =>
    if rx.hdr.type = ftDiscovery ∧ rx.hdr.dst = 0xFFFF ∧ rx.payload.length = 384 ∧ ops.contains (leAt rx.payload 0 1) then takeDisc r.1 rx target
    else r.1

/-- DISCOVERY_PROBE (R373). -/
def execDiscoveryProbe (seat : Nat) (frame : Frame) (s : State) : Host.Outcome State Fault Refusal := .next (discEffect s seat frame [1] answerProbe)

/-- DISCOVERY_ASSIGN (R373, R374). -/
def execDiscoveryAssign (seat : Nat) (frame : Frame) (s : State) : Host.Outcome State Fault Refusal := .next (discEffect s seat frame [3] takeAssign)

/-- DISCOVERY_ANSWER (R373): answers and acknowledgements on their way to a fabric manager, which this node is not. -/
def execDiscoveryAnswer (seat : Nat) (frame : Frame) (s : State) : Host.Outcome State Fault Refusal :=
  .next (discEffect s seat frame [2, 4] (fun s _ _ => s))

end Sys2Proof.Machine
end

