-- ==== Sys2Proof/Machine/Deliver.lean ====
section
/-! DEFINITION. DATA frames for this node: policing, reassembly, and the consumer of each message (13 R328, R330, R334, 14 R358 to R360,
15 R366, R368, 16 R306). -/

namespace Sys2Proof.Machine
open Sys2Proof

/-- A TIER message (R375). -/
def takeTier (s : State) (node tenant : Nat) (b : List Byte) : State :=
  match leAt b 0 1 with
  | 1 => tierPutEffect s node (some tenant) b
  | 2 => tierPutAckEffect s node b
  | 3 => tierGetEffect s node (some tenant) b
  | 4 => tierDataEffect s node b
  | 5 => tierReleaseEffect s node (some tenant) b
  | _ => s

/-- A FABRIC message (R383); NEIGHBOURS is for a fabric manager. -/
def takeFabric (s : State) (node : Nat) (b : List Byte) : State :=
  match leAt b 0 1 with
  | 2 => migrationOfferEffect s node b
  | 3 => migrationAnswerEffect s node b
  | 4 => tailOfferEffect s node b
  | 5 => tailAckEffect s node b
  | 6 => tailAskEffect s node b
  | 7 => tailRefuseEffect s node b
  | 8 => copyAskEffect s node b
  | 9 => digestMessage s b
  | _ => s

/-- A BOARD message (R343). -/
def takeBoard (s : State) (seat node : Nat) (b : List Byte) : State :=
  match leAt b 0 1 with
  | 1 => boardWriteEffect s seat node b
  | 2 => boardCommitEffect s seat node b
  | 3 => boardAbortEffect s node b
  | _ => s

/-- The message comes from the owning host on the host seat (R366, R399). -/
def fromHost (s : State) (d : Delivered) : Bool :=
  d.seat == s.net.hostActive && (match owningHost s with | some (n, _) => keyNode d.key == n | none => false)

/-- A whole message reaches its consumer. An unplaced node takes BOARD messages, and SPDM on the host seat (R368). -/
def consume (s : State) (d : Delivered) : State :=
  let node := keyNode d.key
  let drop := bump s (.seatStat d.seat 12)
  if d.type = 8 then (if fromHost s d then spdmMessage s d.bytes else drop)
  else if d.type = 5 then takeBoard s d.seat node d.bytes
  else if effRole s = roleUnplaced then drop
  else match d.type with
    | 1 => programMessageEffect s d.seat node d.bytes
    | 6 => takeTier s node d.tenant d.bytes
    | 7 => takeFabric s node d.bytes
    | _ => s

/-- A tenant policer (R358). -/
def tenantPolicer (s : State) (die slot : Nat) : Policer := Tab.get s.tr.policers Policer.reset (die, slot)

/-- Whether the policers let a frame on to the transport: none where a tombstone or a policer drops it, else whether it was marked
(R358 to R360, R306). -/
def admitFrame (s : State) (rx : Rx) (bytes : List Byte) : Option Bool × State :=
  if rx.hdr.msgType ≠ 1 then (some false, s)
  else
    let t := rx.hdr.tenant
    if (getTenant s t).state = .tombstone then (none, dropTombstone (bump s (.prog 15)) t)
    else
      let die := seatDie rx.seat
      let k := (classify347 s rx.seat (rx.tci.map (· / 8192)) (rx.tos / 4) rx.hdr.colour).2
      let r := police s (tenantPolicer s die t) (countedLen (getST s rx.seat).ovhMeter bytes) k (fun i => .police die t i)
      let s1 := if (tenantPolicer s die t).enable then { r.2.2 with tr := { r.2.2.tr with policers := Tab.put r.2.2.tr.policers (die, t) r.2.1 } } else r.2.2
      match r.1 with
      | .drop => (none, s1)
      | .mark _ => (some true, s1)
      | .pass _ => (some false, s1)

/-- A DATA frame that is for this node (R338, R339, R374). -/
def forNode (s : State) (h : THdr) : Bool := decide (h.type = ftData ∧ (h.dst = ownId s ∨ h.dst = 0xFFFF))

/-- The frame is sequenced and reassembled; a message it completes reaches its consumer. -/
def takeData (s : State) (rx : Rx) (bytes : List Byte) : State :=
  if s.rst.ctlRunning then bump s (.seatStat rx.seat (chk 6))
  else
    let a := admitFrame s rx bytes
    match a.1 with
    | none => a.2
    | some marked =>
      let ecn := rx.tos % 4
      let ce := decide (ecn = 3) || (marked && decide (ecn ≠ 0))
      let r := recvData (piggyback (noteSeen a.2 rx) rx) rx ce
      match r.2 with
      | some d => consume r.1 d
      | none => r.1

def dataFrameEffect (s : State) (seat : Nat) (f : Frame) : State :=
  let r := receive s seat f
  match r.2 with
  | some rx => if forNode r.1 rx.hdr then takeData r.1 rx f.bytes else r.1
  | none => r.1

/-- DATA_FRAME (R330). -/
def execDataFrame (seat : Nat) (frame : Frame) (s : State) : Host.Outcome State Fault Refusal := .next (dataFrameEffect s seat frame)

end Sys2Proof.Machine
end

