-- ==== Sys2Proof/Machine/RegMap.lean ====
section
/-! DEFINITION. The register map: what each address names, and what its registers hold (18 R448 to R473, with the registers of R191, R195,
R362, R445 to R447). -/

namespace Sys2Proof.Machine
open Sys2Proof

/-- The registers of 18, each with its index where it has one. -/
inductive Reg where
  | id | unitId | macBase | isaVer | bootStatus | trustStat | nodeTime | debugTally
  | resetCtl | resetCause | alertStat | alertMask | avsCtl | avsStat | sagStat | throttleStat (c : Nat) | health | shadowCtl
  | shadowStat | fabricStat | ownStat | poolServe | canaryCtl | eventStat | eventStatOf (i : Nat) | canaryLog (i : Nat)
  | seatCtl (seat : Nat) | seatPfc (seat : Nat) | seatPartner (seat : Nat) | ecnThresh (i : Nat) | seatStat (seat : Nat)
  | seatFec (seat : Nat) | hostSeat | transportCtl | boardStat | transportStat | fwdStat
  | trfSel | tpSel | seatClass | trafficOvh | queueLimit | colourThresh | pcpMap | dscpMap | egressMap | classSched | classHwm
  | queueHwm | tenantShape | tenantWeight | origClass | tenantPolice | transitPolice | egressStat | policeStat | transitStat
  | dirFill (h : Nat) | dirShiftMax (h : Nat) | dirPf (h : Nat) | dirStat (h : Nat) | dirQuota | dirSel | dirRow
  | memEccStat (k : Nat) | memEccLast (k : Nat) | scrubLast (die : Nat) | tierFill (die : Nat) | weightReserve (die : Nat)
  | tierWmark (die : Nat) | tierStat | tierHoldMax | evictAge | migrateStat
  | nbSel | nbSeqStat | nbPoll | nbSat | nbShare (k : Nat) | nbStat (k : Nat) | nbRefresh (k : Nat)
  | spareMapOf (c : Nat) | spareCtl | coreSat
  | tenantSel | tenantState | tierQuota | tierPolicy | keyStat | reencRate (die : Nat) | reencStat
  | ledgerGen | ledgerHead (die : Nat) | ledgerSel | ledgerWin | ctxFill (die : Nat) | ctxQuota | progStat
  | monSel | monVal | monThresh
  | roWrites | sealReads | badAddr | regSeal | scanUnlock | dbgMemSel | dbgMem
  deriving DecidableEq, Repr

/-- A run of equal registers: first address, distance, how many, 64-bit parts or 32-bit ones, parts in each. -/
structure RegRun where
  base : Nat
  stride : Nat
  count : Nat
  wide : Bool
  parts : Nat
  reg : Nat → Reg

/-- One register of one part. -/
def one (base : Nat) (wide : Bool) (r : Reg) : RegRun := ⟨base, 4, 1, wide, 1, fun _ => r⟩
/-- One register of several parts. -/
def many (base : Nat) (wide : Bool) (parts : Nat) (r : Reg) : RegRun := ⟨base, 4, 1, wide, parts, fun _ => r⟩

/-- Blocks 0x0 and 0x1 (R445, R446, R459 to R461). -/
def runs01 : List RegRun :=
  [one 0x00000 false .id, one 0x00008 true .unitId, one 0x00010 true .macBase, one 0x00018 false .isaVer, one 0x00020 false .bootStatus,
   one 0x00028 true .trustStat, one 0x00030 true .nodeTime, one 0x00040 true .debugTally, one 0x10000 false .resetCtl,
   one 0x10004 false .resetCause, one 0x10020 false .alertStat, one 0x10024 false .alertMask, one 0x10040 false .avsCtl,
   one 0x10048 true .avsStat, one 0x10050 true .sagStat, ⟨0x10100, 8, 8, true, 1, .throttleStat⟩, one 0x10200 false .health,
   one 0x10208 true .shadowCtl, many 0x10210 true 4 .shadowStat, many 0x10240 true 4 .fabricStat, many 0x10280 true 7 .ownStat,
   one 0x102C0 true .poolServe, one 0x10300 true .canaryCtl, many 0x10500 true 3 .eventStat,
   ⟨0x10610, 16, 0x51, true, 2, fun i => .eventStatOf (i + 1)⟩, ⟨0x11000, 64, 64, true, 8, .canaryLog⟩]

/-- Block 0x2 (R462). -/
def runs2 : List RegRun :=
  [⟨0x20000, 0x1000, 6, false, 1, .seatCtl⟩, ⟨0x20010, 0x1000, 6, true, 1, .seatPfc⟩, ⟨0x20020, 0x1000, 6, true, 2, .seatPartner⟩,
   ⟨0x20100, 0x1000, 6, true, 15, .seatStat⟩, ⟨0x20200, 0x1000, 6, true, 3, .seatFec⟩, one 0x26000 false .hostSeat,
   one 0x26004 false .transportCtl, many 0x26010 true 2 .boardStat, many 0x26100 true 10 .transportStat, many 0x26200 true 8 .fwdStat] ++
  (List.range 6).map (fun s => ⟨0x20040 + 0x1000 * s, 4, 8, false, 1, fun c => .ecnThresh (8 * s + c)⟩)

/-- Block 0x3 (R464, R465). -/
def runs3 : List RegRun :=
  [one 0x30000 false .trfSel, one 0x30004 false .tpSel, one 0x30010 false .seatClass, one 0x30014 false .trafficOvh,
   one 0x30018 false .queueLimit, one 0x3001C false .colourThresh, many 0x30020 false 2 .pcpMap, many 0x30040 false 16 .dscpMap,
   one 0x30080 false .egressMap, many 0x30090 true 2 .classSched, one 0x300A0 true .classHwm, one 0x300A8 true .queueHwm,
   one 0x300B0 true .tenantShape, one 0x300B8 false .tenantWeight, one 0x300C0 false .origClass, many 0x30200 false 5 .tenantPolice,
   many 0x30220 false 5 .transitPolice, many 0x30100 true 7 .egressStat, many 0x30300 true 8 .policeStat, many 0x30380 true 8 .transitStat]

/-- Blocks 0x4 and 0x5 (R466, R467). -/
def runs45 : List RegRun :=
  [⟨0x40000, 0x100, 2, true, 2, .dirFill⟩, ⟨0x40010, 0x100, 2, false, 1, .dirShiftMax⟩, ⟨0x40020, 0x100, 2, true, 1, .dirPf⟩,
   ⟨0x40040, 0x100, 2, true, 6, .dirStat⟩, one 0x40200 true .dirQuota, one 0x40210 false .dirSel, many 0x40220 true 4 .dirRow,
   ⟨0x50000, 0x400, 12, true, 4, .memEccStat⟩, ⟨0x50040, 0x400, 12, true, 4, .memEccLast⟩, ⟨0x53000, 0x40, 2, true, 8, .scrubLast⟩,
   ⟨0x53100, 0x10, 2, false, 4, .tierFill⟩, ⟨0x53140, 0x10, 2, true, 2, .weightReserve⟩, ⟨0x53180, 0x10, 2, true, 1, .tierWmark⟩,
   many 0x53200 true 12 .tierStat, one 0x53280 true .tierHoldMax, one 0x53288 true .evictAge, many 0x532C0 true 3 .migrateStat]

/-- Blocks 0x6 to 0xB (R447, R468 to R473). -/
def runs6B : List RegRun :=
  [one 0x60000 false .nbSel, one 0x60008 true .nbSeqStat, one 0x60010 false .nbPoll, one 0x60018 true .nbSat,
   ⟨0x61000, 0x100, 12, false, 1, .nbShare⟩, ⟨0x61040, 0x100, 12, true, 7, .nbStat⟩, ⟨0x61080, 0x100, 12, true, 4, .nbRefresh⟩,
   ⟨0x70000, 8, 8, true, 1, .spareMapOf⟩, one 0x70040 false .spareCtl, one 0x70080 true .coreSat,
   one 0x80000 false .tenantSel, many 0x80020 true 4 .tenantState, many 0x80040 true 3 .tierQuota, one 0x80060 false .tierPolicy,
   many 0x80100 true 5 .keyStat, ⟨0x80200, 4, 2, false, 1, .reencRate⟩, many 0x80240 true 3 .reencStat,
   one 0x90000 true .ledgerGen, ⟨0x90010, 0x10, 2, true, 2, .ledgerHead⟩, one 0x90040 false .ledgerSel, many 0x90080 true 8 .ledgerWin,
   ⟨0x90100, 0x10, 2, true, 2, .ctxFill⟩, one 0x90140 false .ctxQuota, many 0x90200 true 17 .progStat,
   one 0xA0000 false .monSel, one 0xA0008 false .monVal, one 0xA0010 true .monThresh,
   one 0xB0000 true .roWrites, one 0xB0008 true .sealReads, one 0xB0010 true .badAddr, one 0xB0020 false .regSeal,
   one 0xB0030 false .scanUnlock, one 0xB0040 true .dbgMemSel, many 0xB0080 true 9 .dbgMem]

/-- What an address names in a run. -/
def RegRun.names (e : RegRun) (a : Nat) : Option (Reg × Nat × Bool) :=
  let w := if e.wide then 8 else 4
  let off := a - e.base
  let st := Nat.max e.stride (w * e.parts)
  let i := off / st
  let r := off % st
  if e.base ≤ a ∧ i < e.count ∧ r % w = 0 ∧ r / w < e.parts then some (e.reg i, r / w, e.wide) else none

/-- The runs of a block. -/
def runsOf (block : Nat) : List RegRun :=
  match block with
  | 0 | 1 => runs01
  | 2 => runs2
  | 3 => runs3
  | 4 | 5 => runs45
  | _ => runs6B

/-- The register, part and width that an address names (R448, R452). -/
def regAt (a : Nat) : Option (Reg × Nat × Bool) := (runsOf (a / 0x10000)).findSome? (fun e => e.names a)

/-! ### Paths and selectors (R449, R455) -/

def getPath (s : State) (p : Path) : PathState := Tab.get s.acc.paths PathState.reset p
def updPath (s : State) (p : Path) (f : PathState → PathState) : State :=
  { s with acc := { s.acc with paths := Tab.put s.acc.paths p (f (getPath s p)) } }

/-- A path's copy of a selector. -/
def selOf (s : State) (p : Path) (addr : Nat) : Nat := Tab.get (getPath s p).sels 0 addr

def aTrf : Nat := 0x30000
def aTp : Nat := 0x30004
def aDir : Nat := 0x40210
def aNb : Nat := 0x60000
def aTenant : Nat := 0x80000
def aLedger : Nat := 0x90040
def aMon : Nat := 0xA0000
def aDbg : Nat := 0xB0040

/-- A selector register: its address and the bits its fields take. -/
def selectorOf (r : Reg) : Option (Nat × Nat) :=
  match r with
  | .trfSel => some (aTrf, 0x1FFF77)
  | .tpSel => some (aTp, 0x10FFF)
  | .dirSel => some (aDir, 0x1FFFF)
  | .nbSel => some (aNb, 0x1F0F)
  | .tenantSel => some (aTenant, 0xFFF)
  | .ledgerSel => some (aLedger, 0x17FFF)
  | .monSel => some (aMon, 0xFF03)
  | .dbgMemSel => some (aDbg, 0x77FFFFFFF)
  | _ => none

/-- The selector of a selected register (R464 to R473). -/
def selectedBy (r : Reg) : Option Nat :=
  match r with
  | .seatClass | .trafficOvh | .queueLimit | .colourThresh | .pcpMap | .dscpMap | .egressMap | .classSched | .classHwm | .queueHwm
  | .tenantShape | .tenantWeight | .transitPolice | .egressStat | .transitStat => some aTrf
  | .tenantPolice | .policeStat => some aTp
  | .dirRow => some aDir
  | .nbSeqStat => some aNb
  | .dirQuota | .tenantState | .tierQuota | .tierPolicy | .ctxQuota => some aTenant
  | .ledgerWin => some aLedger
  | .monVal | .monThresh => some aMon
  | .dbgMem => some aDbg
  | _ => none

/-- What the selectors of a path name. -/
def trfSeat (s : State) (p : Path) : Nat := fld (selOf s p aTrf) 2 0
def trfClass (s : State) (p : Path) : Nat := fld (selOf s p aTrf) 6 4
def trfQueue (s : State) (p : Path) : Nat := fld (selOf s p aTrf) 20 8
def tpKey (s : State) (p : Path) : Nat × Nat := (fld (selOf s p aTp) 16 16, fld (selOf s p aTp) 11 0)
def selTenant (s : State) (p : Path) : Nat := selOf s p aTenant
def monKey (s : State) (p : Path) : MonId := (fld (selOf s p aMon) 1 0, fld (selOf s p aMon) 15 8)
def dbgBlock (s : State) (p : Path) : Nat :=
  let v := selOf s p aDbg
  blockNo (fld v 3 0) (fld v 30 4) (fld v 34 32)

/-- The selector names a unit (R455, R465). -/
def namesUnit (s : State) (p : Path) (r : Reg) : Bool :=
  match r with
  | .seatClass | .trafficOvh | .queueLimit | .colourThresh | .pcpMap | .dscpMap | .egressMap | .classSched | .classHwm
  | .transitPolice | .egressStat | .transitStat => decide (trfSeat s p < 6)
  | .queueHwm => decide (trfSeat s p < 6 ∧ trfQueue s p ≤ commonQ)
  | .tenantShape => decide (trfSeat s p < 6 ∧ trfQueue s p < commonQ)
  | .tenantWeight => decide (trfQueue s p < commonQ)
  | .nbSeqStat => decide (fld (selOf s p aNb) 3 0 < 12)
  | .monVal | .monThresh => decide ((monKey s p).2 < monCount (monKey s p).1)
  | .dbgMem => decide (fld (selOf s p aDbg) 3 0 < 12)
  | _ => true

/-! ### Counter lists (R456) -/

/-- The counter that a part of a register is, if it is one. -/
def ctrOf (s : State) (p : Path) (r : Reg) (part : Nat) : Option Ctr :=
  let after := fun (n : Nat) (c : Nat → Ctr) => if n ≤ part then some (c (part - n)) else none
  match r with
  | .ownStat => some (.own part)
  | .shadowStat => after 1 .shadow
  | .fabricStat => after 1 .fabric
  | .eventStat => after 1 .evtAll
  | .eventStatOf c => some (.evtCode c part)
  | .seatStat i => some (.seatStat i part)
  | .seatFec i => some (.seatFec i part)
  | .transportStat => some (.transport part)
  | .fwdStat => some (.fwd part)
  | .egressStat => some (.egress (trfSeat s p) (trfClass s p) part)
  | .policeStat => some (.police (tpKey s p).1 (tpKey s p).2 part)
  | .transitStat => some (.transit (trfSeat s p) part)
  | .dirPf h => some (.dirPf h)
  | .dirStat h => some (.dirStat h part)
  | .memEccStat k => some (.mem k part)
  | .tierStat => some (.tier part)
  | .migrateStat => some (.migrate part)
  | .nbSat => some .nbSat
  | .nbStat k => some (.nbStat k part)
  | .nbRefresh k => some (.nbRefresh k part)
  | .coreSat => some .coreSat
  | .keyStat => some (.keyStat part)
  | .reencStat => some (.reenc part)
  | .progStat => some (.prog part)
  | .roWrites => some .roWrites
  | .sealReads => some .sealReads
  | .badAddr => some .badAddr
  | _ => none

/-! ### Images -/

/-- The image of a directory row (R134). -/
def rowImage (r : Row) : Nat :=
  packFields [(32, r.low), (32, r.high), (32, r.stream), (12, r.tenant), (8, r.tag),
    (2, match r.state with | .staged => 1 | .valid => 2 | .pending => 3), (1, b2n r.remove), (1, b2n r.shadow), (8, 0),
    (32, r.result), (10, r.ctx), (22, 0), (32, r.shadowHigh), (32, r.shadowResult)]

def SeqState.code (st : SeqState) (final : Nat) : Nat :=
  match st with | .waiting => 0 | .queued => 1 | .running => 2 | .yielded => 3 | .preempted => 4 | .final => final

/-- The status word of a sequence (R195). -/
def Seq.word (q : Seq) : Nat :=
  packFields [(3, q.state.code q.finalState), (1, 0), (12, q.tag), (16, q.status), (16, Nat.min q.blocks 65535), (4, Nat.min q.corrected 15),
    (4, Nat.min q.uncorr 15), (2, q.owed), (1, b2n q.wasPreempted), (5, 0)]

/-- A unit's current or most recent sequence: one that has begun, else the first that waits, else the last final one (R195). -/
def Unit'.shown (u : Unit') : Option Seq :=
  match u.seqs.find? Seq.active with
  | some q => some q
  | none => match u.seqs with | q :: _ => some q | [] => u.last

/-- The 64 bytes of a block that granules hold whose bytes are `bs`. -/
def blockIn (place : List Gran) (bs : List Byte) (n : Nat) : List Byte :=
  fitBytes 64 (slice bs (512 * place.findIdx (· == ((blockStack n, blockGranule n) : Gran)) + 64 * blockIdx n) 64)

/-- The block of a header or a body. -/
def imageBlock (hdr : Nat) (body : List Gran) (im : List Byte × List Byte) (n : Nat) : List Byte := if n = hdr then im.1 else blockIn body im.2 n

/-- The ciphertext of a block of the master copy, the moments and the gradient area of a matrix: the part whose granules hold it (R126, log 8). -/
def partsBlock (s : State) (tenant rows cols : Nat) (place : List Gran) (view : Nat → Option PartView) (n : Nat) : Option (List Byte) :=
  let i := place.findIdx (· == ((blockStack n, blockGranule n) : Gran))
  let part := if auxFirst rows cols 4 ≤ i then 4 else if auxFirst rows cols 3 ≤ i then 3 else if auxFirst rows cols 2 ≤ i then 2 else 1
  ((view part).bind (fun v => v.image s tenant)).map (fun bs => blockIn (place.drop (auxFirst rows cols part)) bs n)

/-- The ciphertext of a block of a weight set (R406, R417). -/
def weightBlock (s : State) (k : SetKey) (mat n : Nat) : Option (List Byte) :=
  (getSet s k).bind (fun w => (Tab.find w.mats mat).bind (fun m =>
    let g : Gran := (blockStack n, blockGranule n)
    if m.place.contains g then ((m.view 0).bind (fun v => v.image s k.1)).map (fun bs => blockIn m.place bs n)
    else if m.auxPlace.contains g then partsBlock s k.1 m.rows w.dModel m.auxPlace m.view n
    else m.load.bind (fun l =>
      let a := matGranules l.fmt l.rows l.dModel l.bias
      if (l.place.take a).contains g then ((l.view 0).bind (fun v => v.image s k.1)).map (fun bs => blockIn l.place bs n)
      else partsBlock s k.1 l.rows l.dModel (l.place.drop a) l.view n)))

/-- The block of what a program has only prepared or of an object kept for another node (R376, R417). -/
def otherBlock (s : State) (n : Nat) : Option (List Byte) :=
  let g : Gran := (blockStack n, blockGranule n)
  let staged := ((allProgs s).map (fun p => (p.tiles.filter (fun t => t.isNew || t.rewrite)).map StagedTile.tile)).flatten
  match staged.find? (fun t => t.hdr == n || t.body.contains g) with
  | some t => (tileImage s t).map (fun i => imageBlock t.hdr t.body i n)
  | none => (s.fab.poolObjs.vals.find? (fun o => o.1.contains g)).map (fun o =>
      fitBytes 64 (slice ((storedPieces o.2).getD (o.1.findIdx (· == g)) []) (64 * blockIdx n) 64))

/-- The raw bytes of a block of a stack (R417, R473): an object's ciphertext or its header, the ledger mirror, a stored object, or what nobody
fixes (logs 26 and 95), with the errors the block has. -/
def rawBlock (s : State) (n : Nat) : Blk × State :=
  let pick := fun (hdr : Nat) (body : List Gran) (im : Option (List Byte × List Byte)) => im.map (fun i => imageBlock hdr body i n)
  let known : Option (List Byte) :=
    match ownerOf s n with
    | .tile i => match getTile s i with | some t => pick t.hdr t.body (tileImage s t) | none => none
    | .grad k => match Tab.find s.mem.grads k with
      | some c => match c.pending, c.committed with
        | some x, _ => pick c.hdr c.body (gradImage s k x)
        | none, some x => pick c.hdr c.body (gradImage s k x)
        | none, none => none
      | none => none
    | .mirror d k => some (match Tab.find s.pg.mirror (d, k) with | some r => ledgerBytes r | none => zeros 64)
    | .lse k => ((Tab.find s.mem.lse k).bind (fun l => (lseCipher s k l).map (fun x => blockIn l.place x.2 n)))
    | .weight k mat _ | .loading k mat => weightBlock s k mat n
    | .other => otherBlock s n
    | _ => none
  let r := match known with | some b => (b, s) | none => drawBytes s 64
  let data := BitVec.ofNat 512 (leNat (fitBytes 64 r.1))
  let e := ErrTab.read s.mem.err n
  (⟨data ^^^ e.data, eccCheck data ^^^ e.check⟩, r.2)

/-- The control complex of a die is halted, or its watchdog has tripped (R253). -/
def complexStopped (s : State) (die : Nat) : Bool :=
  s.boot.halted.any (fun c => c / 8 == die) || (match s.rst.wdog with | some w => w.die == die | none => false)

/-- The record that LEDGER_WIN shows (R253); an EMPTY one is zero. -/
def windowRecord (s : State) (k : Nat × Nat) : List Byte :=
  let r := if complexStopped s k.1 then (if s.mem.mirrorLost.contains k then none else Tab.find s.pg.mirror k) else Tab.find s.pg.ring k
  match r with | some x => ledgerBytes x | none => zeros 64

/-- Part `i` of bytes as 64-bit words. -/
def words64 (bs : List Byte) (n : Nat) : List Nat := (List.range n).map (fun i => leAt bs (8 * i) 8)
/-- A number as `n` parts of `w` bits. -/
def partsOf (w n v : Nat) : List Nat := (List.range n).map (fun i => (v >>> (w * i)) % 2 ^ w)

def policerWords (p : Policer) : List Nat :=
  [packFields [(1, b2n p.enable), (1, b2n p.aware), (2, p.yellowAct), (2, p.redAct), (1, b2n p.err), (25, 0)], p.cir, p.pir, p.cbs, p.pbs]

def getPolicer (s : State) (k : Nat × Nat) : Policer := Tab.get s.tr.policers Policer.reset k

/-- The bytes a die's weight sets take (R467 USE). -/
def reserveUse (s : State) (die : Nat) : Nat := 512 * onDie die (weightGrans s)

/-- The counts that a die has handed out and whose records it still holds: the oldest (R467 OLDEST). -/
def oldestCount (s : State) (die : Nat) : Nat :=
  (s.pg.ring.foldl (fun (m : Option Nat) r =>
    if r.1.1 = die then some (match m with | some x => Nat.min x (r.2.lsn / 2) | none => r.2.lsn / 2) else m) none).getD (nextCountOf s die)

/-- Rows of a half in a state. -/
def rowsIn (s : State) (h : Nat) (st : RowState) : Nat := ((getHalf s h).rows.filter (fun r => r.2.state == st)).length

/-- The two words of an entry of MEM_ECC_LAST (R467). -/
def eccLastWords (e : Option EccLast) : List Nat :=
  match e with
  | some x => [packFields [(27, blockGranule x.block), (3, blockIdx x.block), (2, x.outcome), (32, 0)], x.at']
  | none => [0, 0]

/-- The time of a cluster at half rate in ns up to now (R421, R461). -/
def halfNs (s : State) (c : Nat) : Nat :=
  Tab.get s.mon.halfNs 0 c + (match Tab.find s.mon.halfSince c with | some t => s.time - t | none => 0)

/-- The time under sag throttle in ns up to now (R461). -/
def sagNs (s : State) : Nat := s.supply.throttleNs + (if s.supply.sagActive then s.time - s.supply.sagSince else 0)

/-- The part of a millisecond or a microsecond that a read does not return stays in the counter (R4). -/
def sagRest (s : State) : Nat := sagNs s % 1000000
def halfRest (s : State) (c : Nat) : Nat := halfNs s c % 1000

/-! ### The values in effect -/

/-- The parts of the registers of blocks 0x0 and 0x1 but counters. -/
def words01 (s : State) (r : Reg) : List Nat :=
  match r with
  | .id => [0xB1A716]
  | .unitId => [Config.unitId.toNat]
  | .macBase => [Config.macBase.toNat]
  | .isaVer => [packFields [(8, 2), (8, 1), (2, 3), (14, 0)]]
  | .bootStatus =>
    let b := s.boot
    [packFields [(3, b.stage), (1, b2n b.slot), (1, b2n b.aFail), (1, b2n b.bFail), (4, b.cause), (1, b2n b.cfgDefault), (6, b.svn), (15, 0)]]
  | .trustStat =>
    [packFields [(32, s.boot.bootIndex), (21, 2 ^ 20 - s.boot.flashEvidence), (1, b2n s.boot.sigValid), (4, s.boot.selfTest), (6, 0)]]
  | .nodeTime => [s.time % 2 ^ 64]
  | .debugTally => [s.boot.debugTally % 2 ^ 64]
  | .resetCtl => [s.rst.wdogHold * 65536]
  | .resetCause => [packFields [(8, s.rst.lastCtl), (8, s.rst.lastNode), (16, s.rst.ctlCount)]]
  | .alertStat => [s.rst.alertStat.toNat]
  | .alertMask => [s.rst.alertMask.toNat]
  | .avsCtl => [s.supply.offset.toNat]
  | .avsStat => [packFields [(16, s.supply.target), (16, Config.avsFused), (16, s.supply.avsStatus), (1, b2n s.supply.changing), (15, 0)]]
  | .sagStat => [packFields [(24, s.supply.warnings), (12, Nat.min s.supply.min0 0xFFF), (12, Nat.min s.supply.min1 0xFFF),
      (16, Nat.min (sagNs s / 1000000) 0xFFFF)]]
  | .throttleStat c => [packFields [(1, b2n s.supply.sagActive), (1, b2n (thermalThrottle s c)), (30, 0),
      (32, Nat.min (halfNs s c / 1000) (2 ^ 32 - 1))]]
  | .health => [healthWord s]
  | .shadowCtl => [packFields [(16, s.fab.shPeer), (1, b2n s.fab.shEnable), (15, 0), (16, s.fab.shSample), (16, s.fab.shWindow)]]
  | .shadowStat => [packFields [(16, Nat.min s.fab.shRun 65535), (1, b2n s.fab.promotable)]]
  | .fabricStat => [packFields [(3, s.boot.stage), (13, 0), (16, s.fab.pendingId)]]
  | .poolServe => [packFields [(16, s.fab.poolLimit), (16, 0), (32, sumBy (fun o => o.2.length) s.fab.poolObjs.vals / 2 ^ 20)]]
  | .canaryCtl => [packFields [(12, s.cores.period), (4, s.cores.retireCount), (16, s.cores.retireWindow), (6, s.cores.head)]]
  | .eventStat => [s.ev.nextSeq]
  | .canaryLog i => words64 (fitBytes 64 (Tab.get s.cores.log [] i)) 8
  | _ => []

/-- SEAT_CTL (13). -/
def seatCtlWord (x : Seat) : Nat :=
  packFields [(2, x.mode), (1, b2n x.enable), (1, b2n x.partnerKind), (1, 0), (1, b2n x.vlanEn), (12, 0), (3, x.pfcPrioA), (1, b2n x.pfcAEn),
    (3, x.pfcPrioB), (1, b2n x.pfcBEn), (1, b2n x.jumboEn), (1, b2n x.v11En), (4, 0)]

/-- Blocks 0x2 and 0x3. -/
def words23 (s : State) (p : Path) (r : Reg) : List Nat :=
  let seat := trfSeat s p
  let t := getST s seat
  let cc := getCC s seat (trfClass s p)
  let byteMap := fun (f : Nat → Nat × Nat) (n : Nat) =>
    partsOf 32 (n / 4) (leNat ((List.range n).map (fun i => BitVec.ofNat 8 ((f i).1 + 8 * (f i).2))))
  match r with
  | .seatCtl i => [seatCtlWord (getSeat s i)]
  | .seatPfc i => let x := getSeat s i; [packFields [(12, x.xoff), (4, 0), (12, x.xon), (4, 0), (16, x.pfcTx), (16, x.pfcRx)]]
  | .seatPartner i =>
    let x := getSeat s i
    [packFields [(2, x.state), (2, x.version), (4, x.features), (4, x.role), (4, 0), (16, x.nodeId), (32, 0)], x.unitId.toNat]
  | .ecnThresh i => [(getCC s (i / 8) (i % 8)).ecn]
  | .hostSeat => [packFields [(3, s.net.hostSeat), (1, 0), (3, s.net.hostActive), (1, 0), (1, b2n s.net.fallback), (23, 0)]]
  | .transportCtl => [s.net.port]
  | .boardStat =>
    [boardVer s + 2 ^ 32 * ((s.fab.prev.map Board.ver).getD 0),
     packFields [(12, (s.fab.graceEnd.getD 0 - s.time) / 1000), (4, 0), (8, s.fab.lastReply), (8, 0), (32, s.fab.switches)]]
  | .seatClass => [b2n t.srcTag]
  | .trafficOvh => [packFields [(7, t.ovhEgress.toNat), (1, 0), (7, t.ovhMeter.toNat), (17, 0)]]
  | .queueLimit => [packFields [(16, t.limTenant), (16, t.limCommon)]]
  | .colourThresh => [packFields [(16, t.yellow), (16, t.red)]]
  | .pcpMap => byteMap (pcpEntry t) 8
  | .dscpMap => byteMap (dscpEntry t) 64
  | .egressMap => [packFields [(3, cc.pcp), (5, 0), (6, cc.dscp), (18, 0)]]
  | .classSched => [packFields [(24, cc.quantum), (8, cc.commonWeight), (24, cc.rate), (8, 0)], cc.burst]
  | .classHwm => [packFields [(32, cc.hwmOcc), (32, Nat.min cc.hwmSojourn (2 ^ 32 - 1))]]
  | .queueHwm => let q := getQ s (seat, trfClass s p, trfQueue s p); [packFields [(32, q.hwmOcc), (32, Nat.min q.hwmSojourn (2 ^ 32 - 1))]]
  | .tenantShape => let x := getShaper s seat (trfQueue s p); [packFields [(24, x.rate), (8, 0), (24, x.burst), (8, 0)]]
  | .tenantWeight => [Tab.get s.tr.weights 16 (trfQueue s p)]
  | .origClass => [packFields [(3, s.tr.origEvent), (1, 0), (3, s.tr.origDemand), (1, 0), (3, s.tr.origPrefetch), (1, 0), (3, s.tr.origCopy),
      (1, 0), (3, s.tr.origServe), (13, 0)]]
  | .tenantPolice => policerWords (getPolicer s (tpKey s p))
  | .transitPolice => policerWords t.transit
  | _ => []

/-- Blocks 0x4 and 0x5; a FREE row reads as zero in every field (DESIGN CHOICE, log 77). -/
def words45 (s : State) (p : Path) (r : Reg) : List Nat :=
  match r with
  | .dirFill h =>
    let n := (getHalf s h).rows.length
    [packFields [(17, rowCount - n), (15, 0), (17, rowsIn s h .staged), (15, 0)],
     packFields [(17, rowsIn s h .valid), (15, 0), (17, rowsIn s h .pending), (15, 0)]]
  | .dirShiftMax h => [(getHalf s h).shiftMax]
  | .dirQuota => [packFields [(18, (getTenant s (selTenant s p)).dirQuota), (14, 0), (18, dirUsed s (selTenant s p)), (14, 0)]]
  | .dirRow =>
    let v := selOf s p aDir
    match Tab.find (getHalf s (fld v 16 16)).rows (fld v 15 0) with
    | some x => partsOf 64 4 (rowImage x)
    | none => [0, 0, 0, 0]
  | .memEccLast k => eccLastWords (Tab.find s.mem.lastCorr k) ++ eccLastWords (Tab.find s.mem.lastUncorr k)
  | .scrubLast d => words64 (fitBytes 64 (Tab.get s.mem.scrubLast [] d)) 8
  | .tierFill d => [freePool s d, tileFill s d, reserveOf s d / 512, 4194304]
  | .weightReserve d => [reserveOf s d, reserveUse s d]
  | .tierWmark d => [Tab.get s.mem.wmLow 6112 d + 2 ^ 32 * Tab.get s.mem.wmHigh 12224 d]
  | .tierHoldMax => [s.mem.holdMax % 2 ^ 64]
  | .evictAge => [s.mem.evictAge % 2 ^ 64]
  | _ => []

/-- Blocks 0x6 to 0xB but DBG_MEM. -/
def words6B (s : State) (p : Path) (r : Reg) : List Nat :=
  let t := selTenant s p
  match r with
  | .nbSeqStat =>
    let v := selOf s p aNb
    [match (Tab.find s.nb.units (fld v 3 0, fld v 12 8)).bind Unit'.shown with | some q => q.word | none => 0]
  | .nbPoll => [s.nb.poll]
  | .nbShare k => [Tab.get s.nb.share 1 k]
  | .spareMapOf c =>
    let m := spareMap s c
    [packFields ((List.range 8).map (fun i => (4, m.map.getD i 15)) ++ [(9, m.retired.toNat), (4, m.spare), (3, 0), (4, activeCores m), (12, 0)])]
  | .spareCtl => [packFields [(3, s.cores.ctlCluster), (4, s.cores.ctlPcore), (25, 0)]]
  | .tenantState => words64 (slotRecord s t) 4
  | .tierQuota => [(getTenant s t).tierQuota, tenantCharge s t, tenantT2 s t]
  | .tierPolicy => [(getTenant s t).policy]
  | .reencRate d => [Tab.get s.trust.reencRate 20 d]
  | .ledgerGen => [ledgerGenWord s]
  | .ledgerHead d => [nextCountOf s d, oldestCount s d]
  | .ledgerWin => let v := selOf s p aLedger; words64 (windowRecord s (fld v 16 16, fld v 14 0)) 8
  | .ctxFill d =>
    [packFields [(11, (s.pg.ctxs.vals.filter (fun x => x.die == d)).length), (5, 0), (12, (s.pg.queue.filter (fun x => x.die == d)).length), (36, 0)],
     packFields [(20, ceilDiv (dieData s d) 1024), (12, 0), (20, dieScratch s d / 1024), (12, 0)]]
  | .ctxQuota => [packFields [(11, (getTenant s t).ctxQuota), (5, 0), (11, ctxHeld s t), (5, 0)]]
  | .monVal => [(monVal s (monKey s p).1 (monKey s p).2).toNat]
  | .monThresh =>
    let l := limitOf s (monKey s p)
    [packFields [(16, l.low.toNat), (16, l.high.toNat), (1, b2n l.lowEn), (1, b2n l.highEn), (30, 0)]]
  | .regSeal => [s.acc.sealedBlocks.toNat]
  | .scanUnlock => [packFields [(16, 0), (1, b2n s.boot.unlocked), (15, 0)]]
  | _ => []

/-- The parts of a register that are in effect; a counter part stands as 0 here. -/
def regWords (s : State) (p : Path) (r : Reg) : List Nat × State :=
  match selectorOf r with
  | some (a, _) => ([selOf s p a], s)
  | none =>
    if r = .dbgMem then
      let b := rawBlock s (dbgBlock s p)
      (partsOf 64 8 b.1.data.toNat ++ [b.1.check.toNat], b.2)
    else (words01 s r ++ words23 s p r ++ words45 s p r ++ words6B s p r, s)

end Sys2Proof.Machine
end

