-- ==== Sys2Proof/Machine/Registers.lean ====
section
/-! DEFINITION. Register access: rights, staging, latching, read-clear, ranges, and what each write does (00 R4, 18 R449 to R458). -/

namespace Sys2Proof.Machine
open Sys2Proof

/-- How an access ends: a value (0 for a write), unmapped or misaligned, not answering, or refused with a completion. -/
inductive Ans where
  | ok (v : Nat)
  | bad
  | silent
  | refused (r : Compl)
  deriving DecidableEq, Repr

/-- A path answers for a block (R449). -/
def answers (s : State) (p : Path) (block : Nat) : Bool :=
  match p with
  | .ctx c => serving s && (getCtx s c).isSome
  | _ => s.boot.powered && (started s || block == 0 || block == 0xB)

/-- A write that a control reset drops (R449). -/
def resetDrops (s : State) (p : Path) (block : Nat) : Bool :=
  match p with
  | .ctx _ => false
  | _ => s.rst.ctlRunning && !([0, 1, 0xB].contains block)

/-! ### Reads -/

/-- Times that run are brought up to the read. -/
def beforeRead (s : State) (p : Path) (r : Reg) : State :=
  match r with
  | .egressStat => settlePause s (trfSeat s p)
  | .throttleStat c => refreshHalfOf s c
  | _ => s

/-- The present lowest voltage reading of a die; 0xFFF where none has been taken (R461). -/
def presentMin (s : State) (die : Nat) : Nat :=
  (s.mon.vals.filter (fun v => v.1.1 == 1 && v.1.2 / 24 == die)).foldl (fun m v => Nat.min m v.2.toNat) 0xFFF

/-- What a read clears or restarts (R4, R363, R456, R461). -/
def afterRead (s : State) (p : Path) (r : Reg) (part : Nat) : State :=
  match r with
  | .sagStat => { s with supply := { s.supply with warnings := 0, min0 := presentMin s 0, min1 := presentMin s 1, throttleNs := sagRest s, sagSince := s.time } }
  | .throttleStat c =>
    { s with mon := { s.mon with halfNs := Tab.put s.mon.halfNs c (halfRest s c),
                                 halfSince := if (Tab.find s.mon.halfSince c).isSome then Tab.put s.mon.halfSince c s.time else s.mon.halfSince } }
  | .seatPfc i => updSeat s i (fun x => { x with pfcTx := 0, pfcRx := 0 })
  | .boardStat => if part = 1 then { s with fab := { s.fab with switches := 0 } } else s
  | .classHwm =>
    let seat := trfSeat s p
    let c := trfClass s p
    putCC s seat c { (getCC s seat c) with hwmOcc := classOcc s seat c, hwmSojourn := 0 }
  | .queueHwm =>
    let q : QId := (trfSeat s p, trfClass s p, trfQueue s p)
    putQ s q { (getQ s q) with hwmOcc := qBytes (getQ s q), hwmSojourn := 0 }
  | .dirShiftMax h => putHalf s h { (getHalf s h) with shiftMax := 0 }
  | .tierHoldMax => { s with mem := { s.mem with holdMax := 0 } }
  | _ => s

/-- The unit that a wide register which can be written in parts is selected for: a seat, a seat and class, or a policer (R455, R464). -/
def stagedUnit (s : State) (p : Path) (r : Reg) : Nat :=
  match r with
  | .pcpMap | .dscpMap | .transitPolice => trfSeat s p
  | .classSched => 8 * trfSeat s p + trfClass s p
  | .tenantPolice => 4096 * (tpKey s p).1 + (tpKey s p).2
  | _ => 0

/-- The key of a part that a path has staged: the register's address for the unit it is selected for (DEDUCED, log 82). -/
def partKey (s : State) (p : Path) (r : Reg) (addr : Nat) : Nat := stagedUnit s p r * 2 ^ 32 + addr

/-- Reads the part of a register that is no counter: part 0 latches the others, whatever is selected later (R453). -/
def readPart (s : State) (p : Path) (r : Reg) (part base : Nat) : Nat × State :=
  let s0 := beforeRead s p r
  let w := regWords s0 p r
  let v := w.1.getD part 0
  if w.1.length ≤ 1 then (v, afterRead w.2 p r part)
  else if part = 0 then
    (v, afterRead (updPath w.2 p (fun x => { x with latched := Tab.put x.latched base w.1 })) p r part)
  else
    let l := (Tab.get (getPath s0 p).latched w.1 base).getD part 0
    -- SWITCHES is a read-clear field and exempt
    (if r = .boardStat then l % 2 ^ 32 + v / 2 ^ 32 * 2 ^ 32 else l, afterRead s0 p r part)

/-- A read over a path (R449, R452 to R456). -/
def readReg (s : State) (p : Path) (addr : Nat) (wide : Bool) : Ans × State :=
  match regAt addr with
  | none => (.bad, bump s .badAddr)
  | some (r, part, w) =>
    if w ≠ wide then (.bad, bump s .badAddr)
    else if !answers s p (addr / 0x10000) then (.silent, s)
    else if !namesUnit s p r then (.ok 0, bump s .badAddr)
    else
      match ctrOf s p r part with
      | some c => let s1 := beforeRead s p r; (.ok (getCtr s1 c), clearCtr s1 c)
      | none => let v := readPart s p r part (addr - part * (if w then 8 else 4)); (.ok v.1, v.2)

/-! ### Writes -/

/-- A block is sealed (R458). -/
def isSealedBlock (s : State) (b : Nat) : Bool := s.acc.sealedBlocks.toNat.testBit b

/-- A register, or the part of a wide one, holds a field that is writable now (R4). -/
def writable (s : State) (r : Reg) (part : Nat) : Bool :=
  match r with
  | .alertStat | .alertMask | .resetCtl | .avsCtl | .shadowCtl | .poolServe | .seatCtl _ | .seatPfc _ | .ecnThresh _ | .seatClass
  | .trafficOvh | .queueLimit | .colourThresh | .pcpMap | .dscpMap | .egressMap | .classSched | .tenantShape | .tenantWeight | .origClass
  | .tenantPolice | .transitPolice | .dirQuota | .tierWmark _ | .nbPoll | .nbShare _ | .spareCtl | .tierPolicy | .reencRate _
  | .ctxQuota | .monThresh | .regSeal | .scanUnlock => true
  | .weightReserve _ | .tierQuota => part == 0
  | .canaryCtl => !isSealedBlock s 1
  | .hostSeat | .transportCtl => !isSealedBlock s 2
  | r => (selectorOf r).isSome

/-- What a write comes to: it takes effect, it is out of range (R457), or it is refused (R171). -/
inductive Applied where
  | took (s : State)
  | outside
  | refused (r : Compl)

/-- Accepts a write where its values lie in range (R457). -/
def within (ok : Bool) (s : State) : Applied := if ok then .took s else .outside

/-- R445: RESET_CTL. -/
def writeResetCtl (s : State) (v : Nat) : State :=
  if fld v 15 8 ≠ 0x5A then s
  else
    let s1 := { s with rst := { s.rst with wdogHold := Nat.min 10000 (fld v 31 16) } }
    if bitN v 1 then resetFor s1 3 else if bitN v 0 then controlReset s1 0x21 else s1

/-- R446: writing 1 clears; a bit whose condition persists is set again at once (R444). -/
def writeAlertStat (s : State) (v : Nat) : State :=
  let s1 := { s with rst := { s.rst with alertStat := s.rst.alertStat &&& ~~~(BitVec.ofNat 10 v) } }
  let again := [(alSag, s.supply.sagActive), (alThermal, decide (s.mon.above ≠ [])), (alMonitor, decide (s.mon.outside ≠ [])),
    (alWatchdog, s.rst.wdog.isSome), (alBoot, s.boot.failed || s.boot.cfgDefault)]
  again.foldl (fun t a => if a.2 && s.rst.alertStat.toNat.testBit a.1 then setAlert t a.1 else t) s1

/-- The settings of SEAT_CTL that take effect by retraining. -/
def retrainSettings (x : Seat) : List Nat :=
  x.mode :: [x.enable, x.partnerKind, x.vlanEn, x.pfcAEn, x.pfcBEn, x.jumboEn, x.v11En].map b2n

/-- SEAT_CTL (R317, R322, R323 and the field table of 13). -/
def writeSeatCtl (s : State) (i v : Nat) : Applied :=
  if fld v 1 0 = 3 then .outside
  else
    let x := getSeat s i
    let keep := decide (fld v 1 0 = 0 ∧ i = s.net.hostActive)
    let y := { x with mode := if keep then x.mode else fld v 1 0, enable := bitN v 2, partnerKind := bitN v 3, vlanEn := bitN v 5,
                      pfcPrioA := fld v 20 18, pfcAEn := bitN v 21, pfcPrioB := fld v 24 22, pfcBEn := bitN v 25, jumboEn := bitN v 26,
                      v11En := bitN v 27 }
    let s1 := putSeat (if keep then bump s (.seatStat i 13) else s) i y
    let train := decide (retrainSettings x ≠ retrainSettings y) || bitN v 4 || decide (x.state < seatHello)
    .took (if train then startTraining s1 i else s1)

/-- A policer after a write (R359, R362): the new rates count from now on, buckets above their size are clamped, and both are full where it
is enabled anew; an enabling write that is not valid leaves ENABLE 0 and sets ERR. -/
def writePolicer (now : Nat) (transit : Bool) (p : Policer) (d : Nat → Nat) : Policer :=
  let f := if p.enable then Policer.fill now p else p
  let q := { f with aware := bitN (d 0) 1, yellowAct := fld (d 0) 3 2, redAct := fld (d 0) 5 4, cir := d 1 % 2 ^ 24, pir := d 2 % 2 ^ 24,
                    cbs := d 3 % 2 ^ 24, pbs := d 4 % 2 ^ 24 }
  if !bitN (d 0) 0 then { q with enable := false }
  else if !policerValid transit q then { q with enable := false, err := true }
  else if p.enable then { q with err := false, tc := Bucket.clamp q.cbs q.tc, tp := Bucket.clamp q.pbs q.tp }
  else { q with enable := true, err := false, tc := ⟨((q.cbs * 1000000000 : Nat) : Int), now⟩, tp := ⟨((q.pbs * 1000000000 : Nat) : Int), now⟩ }

/-- The action codes of a policer's word are none that R362 calls invalid; a write with ENABLE = 1 is judged by R362 instead (R457). -/
def policerCodes (transit : Bool) (w : Nat) : Bool :=
  bitN w 0 || (decide (fld w 3 2 ≠ 3 ∧ fld w 5 4 ≠ 3) && (transit || decide (fld w 5 4 ≠ 0)))

/-- A shaper's bucket after a write of rate and burst (R352): full where the shaper was disabled, else clamped. -/
def writeBucket (now oldRate oldBurst rate burst : Nat) (b : Bucket) : Bucket :=
  if oldRate = 0 ∧ rate ≠ 0 then ⟨((burst * 1000000000 : Nat) : Int), now⟩ else Bucket.clamp burst (Bucket.fill oldRate oldBurst now b)

/-- Entries of PCP_MAP or DSCP_MAP from parts of four bytes. -/
def mapEntries (n : Nat) (d : Nat → Nat) : Tab Nat (Nat × Nat) :=
  (List.range n).map (fun i => let b := d (i / 4) >>> (8 * (i % 4)); (i, (fld b 2 0, fld b 4 3)))

/-- WEIGHT_RESERVE (R171, R467). -/
def writeReserve (s : State) (die v : Nat) : Applied :=
  if v % 512 ≠ 0 ∨ 128 * 2 ^ 30 < v then .outside
  else if v < reserveUse s die then .refused (refusedWith scReserveFull)
  else .took { s with mem := { s.mem with reserve := Tab.put s.mem.reserve die v } }

/-- SPARE_CTL (R437, R440, R447). -/
def writeSpareCtl (s : State) (v : Nat) : State :=
  let c := fld v 2 0
  let p := fld v 6 3
  let s1 := { s with cores := { s.cores with ctlCluster := c, ctlPcore := p }, boot := { s.boot with clearList := s.boot.clearList || bitN v 8 } }
  if bitN v 7 then retireCore s1 c p 3 else s1

/-- Changes a tenant's settings, which a tombstone's cannot be (R470). -/
def setTenant (s : State) (t : Nat) (ok : Bool) (f : Tenant → Tenant) : Applied :=
  if slotIs s t .tombstone then .outside else within ok (putTenant s t (f (getTenant s t)))

/-- Writes to blocks 0x1 and 0x2. -/
def apply12 (s : State) (r : Reg) (v : Nat) : Option Applied :=
  match r with
  | .resetCtl => some (.took (writeResetCtl s v))
  | .alertStat => some (.took (writeAlertStat s v))
  | .alertMask => some (.took { s with rst := { s.rst with alertMask := BitVec.ofNat 10 v } })
  | .avsCtl =>
    let o := BitVec.ofNat 5 v
    some (within (decide (-10 ≤ o.toInt ∧ o.toInt ≤ 10)) { s with supply := { s.supply with offset := o } })
  | .shadowCtl =>
    let f := { s.fab with shPeer := fld v 15 0, shEnable := bitN v 16, shSample := fld v 47 32, shWindow := Nat.max 1 (fld v 63 48) }
    some (.took { s with fab := f })
  | .poolServe => some (.took { s with fab := { s.fab with poolLimit := fld v 15 0 } })
  | .canaryCtl =>
    let p := fld v 11 0
    let n := fld v 15 12
    let w := fld v 31 16
    some (within (decide (1 ≤ p ∧ p ≤ 3600 ∧ 1 ≤ n ∧ 1 ≤ w)) { s with cores := { s.cores with period := p, retireCount := n, retireWindow := w } })
  | .seatCtl i => some (writeSeatCtl s i v)
  | .seatPfc i =>
    let a := fld v 11 0
    let b := fld v 27 16
    some (within (decide (1 ≤ a ∧ a ≤ 2048 ∧ b < a)) (updSeat s i (fun x => { x with xoff := a, xon := b })))
  | .ecnThresh i => some (.took (putCC s (i / 8) (i % 8) { (getCC s (i / 8) (i % 8)) with ecn := fld v 23 0 }))
  | .hostSeat => some (within (decide (fld v 2 0 < 6)) { s with net := { s.net with hostSeat := fld v 2 0 } })
  | .transportCtl => some (within (decide (1 ≤ fld v 15 0)) { s with net := { s.net with port := fld v 15 0 } })
  | _ => none

/-- Writes to block 0x3. -/
def apply3 (s : State) (p : Path) (r : Reg) (d : Nat → Nat) : Option Applied :=
  let seat := trfSeat s p
  let cls := trfClass s p
  let slot := trfQueue s p
  let t := getST s seat
  let cc := getCC s seat cls
  let v := d 0
  match r with
  | .seatClass => some (.took (putST s seat { t with srcTag := bitN v 0 }))
  | .trafficOvh =>
    let e := BitVec.ofNat 7 (fld v 6 0)
    let m := BitVec.ofNat 7 (fld v 14 8)
    some (within (decide (-32 ≤ e.toInt ∧ -32 ≤ m.toInt)) (putST s seat { t with ovhEgress := e, ovhMeter := m }))
  | .queueLimit =>
    let a := fld v 15 0
    let b := fld v 31 16
    some (within (decide (1 ≤ a ∧ a ≤ 4096 ∧ 1 ≤ b ∧ b ≤ 4096)) (putST s seat { t with limTenant := a, limCommon := b }))
  | .colourThresh => some (.took (putST s seat { t with yellow := fld v 15 0, red := fld v 31 16 }))
  | .pcpMap => some (.took (putST s seat { t with pcpMap := mapEntries 8 d }))
  | .dscpMap => some (.took (putST s seat { t with dscpMap := mapEntries 64 d }))
  | .egressMap => some (.took (putCC (settlePause s seat) seat cls { cc with pcp := fld v 2 0, dscp := fld v 13 8 }))
  | .classSched =>
    let q := fld v 23 0
    let w := fld v 31 24
    let rate := fld v 55 32
    let burst := d 1 % 2 ^ 24
    let b := writeBucket s.time cc.rate cc.burst rate burst cc.bucket
    some (within (decide (1024 ≤ q ∧ 1 ≤ w)) (putCC s seat cls { cc with quantum := q, commonWeight := w, rate := rate, burst := burst, bucket := b }))
  | .tenantShape =>
    let x := getShaper s seat slot
    let rate := fld v 23 0
    let burst := fld v 55 32
    some (.took (putShaper s seat slot ⟨rate, burst, writeBucket s.time x.rate x.burst rate burst x.bucket⟩))
  | .tenantWeight =>
    some (within (decide (1 ≤ fld v 7 0)) { s with tr := { s.tr with weights := Tab.put s.tr.weights slot (fld v 7 0) } })
  | .origClass =>
    let u := { s.tr with origEvent := fld v 2 0, origDemand := fld v 6 4, origPrefetch := fld v 10 8, origCopy := fld v 14 12,
                         origServe := fld v 18 16 }
    some (.took { s with tr := u })
  | .tenantPolice =>
    let k := tpKey s p
    some (within (policerCodes false v)
      { s with tr := { s.tr with policers := Tab.put s.tr.policers k (writePolicer s.time false (getPolicer s k) d) } })
  | .transitPolice => some (within (policerCodes true v) (putST s seat { t with transit := writePolicer s.time true t.transit d }))
  | _ => none

/-- Writes to blocks 0x4 to 0xB. -/
def apply4B (s : State) (p : Path) (r : Reg) (v : Nat) : Option Applied :=
  let t := selTenant s p
  match r with
  | .dirQuota => some (setTenant s t (decide (fld v 17 0 ≤ 131072)) (fun x => { x with dirQuota := fld v 17 0 }))
  | .weightReserve die => some (writeReserve s die v)
  | .tierWmark die =>
    let lo := fld v 19 0
    let hi := fld v 51 32
    some (within (decide (lo ≤ hi)) { s with mem := { s.mem with wmLow := Tab.put s.mem.wmLow die lo, wmHigh := Tab.put s.mem.wmHigh die hi } })
  | .nbPoll => some (.took { s with nb := { s.nb with poll := Nat.max 250 (fld v 15 0) } })
  | .nbShare k => some (.took { s with nb := { s.nb with share := Tab.put s.nb.share k (Nat.max 1 (Nat.min 8 (fld v 3 0))) } })
  | .spareCtl => some (.took (writeSpareCtl s v))
  | .tierQuota => some (setTenant s t (decide (v ≤ 0xBF00000000)) (fun x => { x with tierQuota := v }))
  | .tierPolicy => some (setTenant s t (decide (fld v 1 0 ≠ 3)) (fun x => { x with policy := fld v 1 0 }))
  | .reencRate die =>
    let g := fld v 7 0
    some (within (decide (1 ≤ g ∧ g ≤ 200)) { s with trust := { s.trust with reencRate := Tab.put s.trust.reencRate die g } })
  | .ctxQuota =>
    let q := fld v 10 0
    some (within (decide (q ≤ 1024)) (putTenant s t { (getTenant s t) with ctxQuota := q }))
  | .monThresh =>
    let l : MonLimit := ⟨BitVec.ofNat 16 (fld v 15 0), BitVec.ofNat 16 (fld v 31 16), bitN v 32, bitN v 33⟩
    some (.took { s with mon := { s.mon with limits := Tab.put s.mon.limits (monKey s p) l } })
  | .regSeal => some (.took { s with acc := { s.acc with sealedBlocks := s.acc.sealedBlocks ||| BitVec.ofNat 12 (fld v 27 16) } })
  | .scanUnlock => some (.took (if bitN v 0 ∧ fld v 15 8 = 0xA5 then resetFor s 9 else s))
  | _ => none

/-- What a write of part 0 does with the parts that take effect with it (R453, R457). -/
def applyReg (s : State) (p : Path) (r : Reg) (d : Nat → Nat) : Applied :=
  match apply12 s r (d 0) with
  | some a => a
  | none => match apply3 s p r d with
    | some a => a
    | none => (apply4B s p r (d 0)).getD .outside

/-- A debug write to a stack or the directory (R417). -/
def debugWrite (r : Reg) : Bool := r == .dbgMem || r == .dirRow

/-- Writes a mapped register that answers and is writable. -/
def writePart (s : State) (p : Path) (r : Reg) (part base addr bytes v : Nat) : Ans × State :=
  match selectorOf r with
  | some (a, m) => (.ok 0, updPath s p (fun x => { x with sels := Tab.put x.sels a (v &&& m) }))
  | none =>
    if part ≠ 0 then (.ok 0, updPath s p (fun x => { x with staged := Tab.put x.staged (partKey s p r addr) v }))
    else
      let w := (regWords s p r).1
      let keys := (List.range w.length).map (fun i => partKey s p r (base + bytes * i))
      let held := (getPath s p).staged
      let d := fun (i : Nat) => if i = 0 then v else (Tab.find held (keys.getD i 0)).getD (w.getD i 0)
      let s1 := if held = [] then s else updPath s p (fun x => { x with staged := x.staged.filter (fun e => !keys.contains e.1) })
      match applyReg s1 p r d with
      | .took s2 => (.ok 0, s2)
      | .outside => (.ok 0, bump s .roWrites)
      | .refused c => (.refused c, bump s .roWrites)

/-- A write over a path (R4, R449, R452 to R458). -/
def writeReg (s : State) (p : Path) (addr : Nat) (wide : Bool) (v : Nat) : Ans × State :=
  match regAt addr with
  | none => (.bad, bump s .badAddr)
  | some (r, part, w) =>
    if w ≠ wide then (.bad, bump s .badAddr)
    else if !answers s p (addr / 0x10000) then (.silent, s)
    else if resetDrops s p (addr / 0x10000) then (.ok 0, bump s .roWrites)
    else if !namesUnit s p r then (.ok 0, bump s .badAddr)
    else if !writable s r part then (.ok 0, bump (if debugWrite r then bump s .sealReads else s) .roWrites)
    else
      let n := if w then 8 else 4
      writePart s p r part (addr - part * n) addr n (v % 2 ^ (8 * n))

/-! ### Commands -/

def ctlResetWriteEffect (s : State) (p : Path) : State :=
  (writeReg s p 0x10000 false (s.rst.wdogHold * 65536 + 0x5A01)).2

/-- CTL_RESET_WRITE (R445). -/
def execCtlResetWrite (path : Path) (s : State) : Host.Outcome State Fault Refusal := .next (ctlResetWriteEffect s path)

def nodeResetWriteEffect (s : State) (p : Path) : State :=
  (writeReg s p 0x10000 false (s.rst.wdogHold * 65536 + 0x5A02)).2

/-- NODE_RESET_WRITE (R445). -/
def execNodeResetWrite (path : Path) (s : State) : Host.Outcome State Fault Refusal := .next (nodeResetWriteEffect s path)

def scanUnlockEffect (s : State) (p : Path) : State := (writeReg s p 0xB0030 false 0xA501).2

/-- SCAN_UNLOCK (R473). -/
def execScanUnlock (path : Path) (s : State) : Host.Outcome State Fault Refusal := .next (scanUnlockEffect s path)

def regSealEffect (s : State) (p : Path) (blocks : BitVec 12) : State := (writeReg s p 0xB0020 false (blocks.toNat * 65536)).2

/-- REG_SEAL (R458). -/
def execRegSeal (path : Path) (blocks : BitVec 12) (s : State) : Host.Outcome State Fault Refusal := .next (regSealEffect s path blocks)

def spareRetireEffect (s : State) (p : Path) (c core : Nat) : State :=
  (writeReg s p 0x70040 false (packFields [(3, c), (4, core), (1, 1), (24, 0)])).2

/-- SPARE_RETIRE (R437, R447). -/
def execSpareRetire (path : Path) (cluster pcore : Nat) (s : State) : Host.Outcome State Fault Refusal :=
  .next (spareRetireEffect s path cluster pcore)

def spareClearListEffect (s : State) (p : Path) : State :=
  (writeReg s p 0x70040 false (packFields [(3, s.cores.ctlCluster), (4, s.cores.ctlPcore), (1, 0), (1, 1), (23, 0)])).2

/-- SPARE_CLEAR_LIST (R440). -/
def execSpareClearList (path : Path) (s : State) : Host.Outcome State Fault Refusal := .next (spareClearListEffect s path)

def seatRetrainEffect (s : State) (p : Path) (seat : Nat) : State :=
  if seat < 6 then (writeReg s p (0x20000 + 0x1000 * seat) false (seatCtlWord (getSeat s seat) + 16)).2 else s

/-- SEAT_RETRAIN (R317). -/
def execSeatRetrain (path : Path) (seat : Nat) (s : State) : Host.Outcome State Fault Refusal := .next (seatRetrainEffect s path seat)

def policerEnableEffect (s : State) (p : Path) (transit : Bool) (word : W32) : State :=
  (writeReg s p (if transit then 0x30220 else 0x30200) false (word.toNat ||| 1)).2

/-- POLICER_ENABLE_WRITE (R362): part 0 with ENABLE = 1. -/
def execPolicerEnableWrite (path : Path) (transit : Bool) (word : W32) (s : State) : Host.Outcome State Fault Refusal :=
  .next (policerEnableEffect s path transit word)

def weightReserveWriteEffect (s : State) (p : Path) (die : Nat) (bytes : W64) : State :=
  if die < 2 then (writeReg s p (0x53140 + 0x10 * die) true bytes.toNat).2 else s

/-- WEIGHT_RESERVE_WRITE (R171). -/
def execWeightReserveWrite (path : Path) (die : Nat) (bytes : W64) (s : State) : Host.Outcome State Fault Refusal :=
  .next (weightReserveWriteEffect s path die bytes)

/-- The width that an address names; 64 bits where it names none. -/
def widthAt (addr : Nat) : Bool := match regAt addr with | some (_, _, w) => w | none => true

def rcReadEffect (s : State) (p : Path) (addr : Nat) : State := (readReg s p addr (widthAt addr)).2

/-- RC_READ (R4). -/
def execRcRead (path : Path) (addr : Nat) (s : State) : Host.Outcome State Fault Refusal := .next (rcReadEffect s path addr)

def registerWriteEffect (s : State) (p : Path) (addr : Nat) (wide : Bool) (data : W64) : State := (writeReg s p addr wide data.toNat).2

/-- REGISTER_WRITE (R4, R453, R457). -/
def execRegisterWrite (path : Path) (addr : Nat) (wide : Bool) (data : W64) (s : State) : Host.Outcome State Fault Refusal :=
  .next (registerWriteEffect s path addr wide data)

end Sys2Proof.Machine
end

