-- ==== Sys2Proof/Machine/Mgmt.lean ====
section
/-! DEFINITION. The management ports: SMBus and I3C, the JTAG TAP (18 R449 to R451, 16 R417, R418). -/

namespace Sys2Proof.Machine
open Sys2Proof

/-! ### SMBus and I3C (R450) -/

/-- The SMBus address: 0x58 and the value of the straps as sampled at power good (R450, R483). -/
def smbusAddr (s : State) : Nat := 0x58 + s.acc.straps.toNat

/-- A transaction to a 7-bit address is for this node: its SMBus address, or the dynamic address that an I3C controller gave it (R450). -/
def smbusMine (s : State) (target : Nat) : Bool := s.boot.powered && (decide (target = smbusAddr s) || s.acc.i3c == some target)

/-- A transaction that the node discards (R450). -/
def smbusBad (s : State) : State := bump s .badAddr

def smbusWriteEffect (s : State) (x : Xfer) (b : List Byte) : State :=
  if !smbusMine s x.target then s
  else if !x.pecOk ∨ (b.length ≠ 8 ∧ b.length ≠ 12) then smbusBad s
  else (writeReg s .smbus (leAt b 0 4) (decide (b.length = 12)) (leNat (b.drop 4))).2

/-- SMBUS_REGISTER_WRITE (R450): the bytes after the count are an address and 4 or 8 bytes of data. -/
def execSmbusRegisterWrite (x : Xfer) (bytes : List Byte) (s : State) : Host.Outcome State Fault Refusal := .next (smbusWriteEffect s x bytes)

def smbusRequestEffect (s : State) (x : Xfer) (b : List Byte) : State :=
  let w := leAt b 4 1
  if !smbusMine s x.target then s
  else if !x.pecOk ∨ b.length ≠ 5 ∨ (w ≠ 4 ∧ w ≠ 8) then smbusBad s
  else { s with acc := { s.acc with smbRead := some (leAt b 0 4, w) } }

/-- SMBUS_READ_REQUEST (R450). -/
def execSmbusReadRequest (x : Xfer) (bytes : List Byte) (s : State) : Host.Outcome State Fault Refusal := .next (smbusRequestEffect s x bytes)

/-- What a Block Read returns: a status, then data of the width asked for (R450). -/
def smbusOut (s : State) (status v w : Nat) : State :=
  { s with acc := { s.acc with smbRead := none, smbOut := BitVec.ofNat 8 status :: leBytes w v } }

def smbusResultEffect (s : State) : State :=
  if !s.boot.powered then s
  else match s.acc.smbRead with
    | none => smbusOut s 1 0 4
    | some (addr, w) =>
      let r := readReg s .smbus addr (decide (w = 8))
      match r.1 with
      | .ok v => smbusOut r.2 0 v w
      | .bad | .refused _ => smbusOut r.2 1 0 w
      | .silent => smbusOut r.2 2 0 w

/-- SMBUS_READ_RESULT (R450), at an address of the node (log 59): the read that was asked for is made now. -/
def execSmbusReadResult (s : State) : Host.Outcome State Fault Refusal := .next (smbusResultEffect s)

def i3cEffect (s : State) (addr : Nat) : State :=
  if s.boot.powered then { s with acc := { s.acc with i3c := some (addr % 128) } } else s

/-- I3C_DYNAMIC_ADDRESS (R450). -/
def execI3cDynamicAddress (addr : Nat) (s : State) : Host.Outcome State Fault Refusal := .next (i3cEffect s addr)

/-! ### The flash lands (R483, R484) -/

/-- The regions of the boot flash: offset and size in bytes; what lies above them is reserved (R484). -/
def flashRegions : List (Nat × Nat) :=
  [(0x0000000, 0x1000000), (0x1000000, 0x1000000), (0x2000000, 0x100000), (0x2100000, 0x800000), (0x2900000, 0x10000)]

/-- FL_RESET_N is driven low, and every other flash land is high impedance: while PWRGD or RESET_N is low (R484). -/
def flashReleased (s : State) : Bool := !s.boot.powered || s.boot.resetLow

/-! ### JTAG (R451) -/

/-- The bits of a register, first shifted out first. -/
def bitsOf (w v : Nat) : List Bool := (List.range w).map (fun i => v.testBit i)

/-- An instruction is in the instruction register, and these bits have been shifted out of its data register. -/
def jtagScanned (s : State) (ir : Nat) (out : List Bool) : State := { s with acc := { s.acc with jtagIr := ir, tdo := out } }

/-- A one-bit bypass: what goes in comes out a bit later (R451). -/
def bypassOut (bits : List Bool) : List Bool := false :: bits.dropLast

/-- IDCODE's register (R451). -/
def idcode : Nat := 0x1A7165AB

def jtagIdcodeEffect (s : State) : State := if s.boot.powered then jtagScanned s 0x01 (bitsOf 32 idcode) else s

/-- JTAG_IDCODE (R451). -/
def execJtagIdcode (s : State) : Host.Outcome State Fault Refusal := .next (jtagIdcodeEffect s)

/-- The boundary register captures the lands, which is a free value (log 24), and takes the bits shifted in. -/
def boundaryScan (s : State) (ir : Nat) (bits : List Bool) : State :=
  if !s.boot.powered then s
  else
    let s1 := jtagScanned { s with freeIdx := s.freeIdx + 1 } ir (Config.boundaryCapture s.freeIdx)
    { s1 with acc := { s1.acc with boundary := bits } }

/-- JTAG_SAMPLE_PRELOAD (R451). -/
def execJtagSamplePreload (bits : List Bool) (s : State) : Host.Outcome State Fault Refusal := .next (boundaryScan s 0x02 bits)

def jtagExtestEffect (s : State) (bits : List Bool) : State := boundaryScan s 0x03 bits

/-- JTAG_EXTEST (R451): the bits drive the lands while the instruction register holds EXTEST. -/
def execJtagExtest (bits : List Bool) (s : State) : Host.Outcome State Fault Refusal := .next (jtagExtestEffect s bits)

/-- The data register of REG_ACCESS after an access: DONE, ERR, ADDR, DATA. -/
def accessDr (err : Bool) (addr v : Nat) : BitVec 98 := BitVec.ofNat 98 (packFields [(1, 1), (1, b2n err), (32, addr), (64, v)])

/-- The access that Update-DR starts: its answer in the register for the next Capture-DR. -/
def jtagAccess (s : State) (dr : BitVec 98) : State :=
  let v := dr.toNat
  let wide := bitN v 1
  let addr := fld v 33 2
  let r := if bitN v 0 then writeReg s .jtag addr wide (fld v 97 34) else readReg s .jtag addr wide
  let out := match r.1 with
    | .ok x => accessDr false addr (if bitN v 0 then 0 else x)
    | .bad | .refused _ => accessDr true addr 0
    | .silent => accessDr false addr 0
  { r.2 with acc := { r.2.acc with jtagDr := out } }

def jtagRegEffect (s : State) (dr : BitVec 98) : State :=
  if !s.boot.powered then s else jtagAccess (jtagScanned s 0x20 (bitsOf 98 s.acc.jtagDr.toNat)) dr

/-- JTAG_REG_ACCESS (R451). -/
def execJtagRegAccess (dr : BitVec 98) (s : State) : Host.Outcome State Fault Refusal := .next (jtagRegEffect s dr)

/-! ### Control cores (R416 to R418) -/

/-- A word of bytes. -/
def wordAt (bs : List Byte) (i : Nat) : Nat := leAt bs (8 * i) 8

/-- The metadata that an address of a control core names, in the clear (R417; where each lies DESIGN CHOICE, log 95). -/
def metaWord (s : State) (x : DebugPlace) : Option Nat :=
  match x with
  | .desc d i => (getDesc s d).map (fun r => wordAt (descBytes r (Config.tileMap d)) i)
  | .ledger die slot i => if slot < 32768 then some (match Tab.find s.pg.ring (die, slot) with | some r => wordAt (ledgerBytes r) i | none => 0) else none
  | .weightRecord k mat part group i =>
    (((getSet s k).bind (fun w => Tab.find w.mats mat)).bind (fun m => (m.view part).bind (fun v => v.record s k mat part group))).map (fun b => wordAt b i)
  | .lseRecord k i => ((Tab.find s.mem.lse k).bind (lseCipher s k)).map (fun x => wordAt x.1 i)
  | _ => none

/-- What CORE_DEBUG reads at an address: zeros of a sealed memory, which counts; metadata; what has been written of the core's own memory; else
what nobody fixes (R416, R417, log 22). -/
def debugRead (s : State) (core a : Nat) : W64 × State :=
  let x := Config.debugPlace core a
  match x with
  | .isSealed => (0, bump s .sealReads)
  | _ =>
    match (metaWord s x).map (BitVec.ofNat 64) with
    | some w => (w, s)
    | none => match if x = .own then Tab.find s.boot.coreMem (core, a) else none with
      | some w => (w, s)
      | none => draw s

/-- What CORE_DEBUG writes: of the core's own state and memory, which DEBUG_TALLY counts; a write to SRAM is dropped, and SEAL_READS counts it
(R417, R418). -/
def debugStore (s : State) (core a : Nat) (v : W64) : State :=
  if Config.debugPlace core a = .own then
    { s with boot := { s.boot with debugTally := s.boot.debugTally + 1, coreMem := Tab.put s.boot.coreMem (core, a) v } }
  else bump s .sealReads

/-- Control cores are numbered 8 × die + core; a halt counts where the core ran (R417, R418, log 22). -/
def coreDebugEffect (s : State) (core : Nat) (op : CoreDebug) : State :=
  if !s.boot.powered ∨ 16 ≤ core then s
  else
    let tally := fun (s : State) => { s with boot := { s.boot with debugTally := s.boot.debugTally + 1 } }
    let s1 := { s with acc := { s.acc with jtagIr := 0x21 } }
    match op with
    | .halt => if s.boot.halted.contains core then s1 else tally { s1 with boot := { s1.boot with halted := core :: s1.boot.halted } }
    | .resume => { s1 with boot := { s1.boot with halted := s1.boot.halted.filter (· ≠ core) } }
    | .step => s1
    | .read a => let r := debugRead s1 core a; jtagScanned r.2 0x21 (bitsOf 64 r.1.toNat)
    | .write a v => debugStore s1 core a v

/-- JTAG_CORE_DEBUG (R417). -/
def execJtagCoreDebug (core : Nat) (op : CoreDebug) (s : State) : Host.Outcome State Fault Refusal := .next (coreDebugEffect s core op)

def jtagScanEffect (s : State) (bits : List Bool) : State :=
  if !s.boot.powered then s
  else if s.boot.unlocked then jtagScanned { s with freeIdx := s.freeIdx + 1 } 0x30 (Config.scanOut s.freeIdx bits)
  else jtagScanned s 0x30 (bypassOut bits)

/-- JTAG_SCAN (R451, R417): the internal chains once unlocked, which shift out free values (log 23), else a one-bit bypass. -/
def execJtagScan (bits : List Bool) (s : State) : Host.Outcome State Fault Refusal := .next (jtagScanEffect s bits)

def jtagBypassEffect (s : State) (bits : List Bool) : State := if s.boot.powered then jtagScanned s 0xFF (bypassOut bits) else s

/-- JTAG_BYPASS (R451). -/
def execJtagBypass (bits : List Bool) (s : State) : Host.Outcome State Fault Refusal := .next (jtagBypassEffect s bits)

end Sys2Proof.Machine
end

