-- ==== Sys2Proof/Machine/RegInstr.lean ====
section
/-! DEFINITION. REG.RD, REG.WR and CANARY (12 R309 to R312). -/

namespace Sys2Proof.Machine
open Sys2Proof

/-- W64 of REG.RD and REG.WR (R284). -/
def w64Of (w : Nat) : Bool := fbit w 0

/-- The address of a register instruction (R309). -/
def regAddr (p : Prog) (w : Nat) : Nat := if bitN w 68 then (p.scalar (fld w 67 64)).toNat % 2 ^ 32 else fld w 63 32

/-- The address names a register or part of the width (R310, R452). -/
def regMapped (a : Nat) (wide : Bool) : Bool := match regAt a with | some (_, _, w) => w == wide | none => false

/-- The completion of an access that the register block has answered. -/
def ansCompl (a : Ans) : Compl :=
  match a with
  | .bad => refusedWith scRegAddr
  | .refused r => r
  | _ => (stOk, 0)

def regRdEffect (s : State) (c : Nat) : State :=
  issueStep s c (isOp .regRd) (fun s p w k =>
    let a := regAddr p w
    if !p.owner && regMapped a (w64Of w) && decide (0x10000 ≤ a) then finishStep s c k (refusedWith scNotPrivileged)
    else
      let r := readReg s (.ctx c) a (w64Of w)
      match r.1 with
      | .ok v => finishStep (updCtx r.2 c (fun p => p.setScalar (fld w 75 72) (BitVec.ofNat 64 v))) c k (stOk, 0)
      | x => finishStep r.2 c k (ansCompl x))

/-- REG_RD (R309, R310): the address is checked first, then the privilege. -/
def execRegRd (c : Nat) (s : State) : Host.Outcome State Fault Refusal := .next (regRdEffect s c)

/-- The data of a REG.WR (R309). -/
def regData (p : Prog) (w : Nat) : Nat :=
  if bitN w 76 then fld w 127 96 else let v := (p.scalar (fld w 75 72)).toNat; if w64Of w then v else v % 2 ^ 32

def regWrEffect (s : State) (c : Nat) : State :=
  issueStep s c (isOp .regWr) (fun s p w k =>
    let a := regAddr p w
    if !regMapped a (w64Of w) then finishStep (writeReg s (.ctx c) a (w64Of w) 0).2 c k (refusedWith scRegAddr)
    else
      match firstOf (generalChecks s p w) with
      | some r => finishStep s c k r
      | none =>
        let r := writeReg s (.ctx c) a (w64Of w) (regData p w)
        finishStep r.2 c k (ansCompl r.1))

/-- REG_WR (R309, R310): a write that starts a reset ends its own program with it. -/
def execRegWr (c : Nat) (s : State) : Host.Outcome State Fault Refusal := .next (regWrEffect s c)

/-- The cores a CANARY names: one, or every core that is not retired, by cluster and number (R311, R437). -/
def canaryCores (s : State) (w : Nat) : List CoreId :=
  if fbit w 0 then
    ((List.range 8).map (fun c => (List.range 9).map (fun p => (c, p)))).flatten.filter (fun x => !isRetired s x.1 x.2)
  else [(fld w 37 35, fld w 41 38)]

/-- The firmware holds a suite; suite 0 it always holds, since it runs at every start and in every period (R370, R435). -/
def suiteHeld (n : Nat) : Bool := n == 0 || Config.hasSuite n

/-- The run that the command brings for a core; a core it brings none for computes what nobody knows. -/
def runFor (s : State) (runs : List CanaryRun) (x : CoreId) : CanaryRun × State :=
  match runs.find? (fun r => r.cluster == x.1 && r.pcore == x.2) with
  | some r => (r, s)
  | none => let d := draw s; (⟨x.1, x.2, true, d.1, 40000, 0⟩, d.2)

/-- The runs on the cores, each with its record, and the completion; CANARY is of the PLY class, so its records have an instruction digest (R284, R311,
R312, R385). -/
def canaryRuns (s : State) (c k w : Nat) (runs : List CanaryRun) : State :=
  let r := (canaryCores s w).foldl (fun (a : List (List Byte) × State) x =>
    let n := runFor a.2 runs x
    let o := canaryRun n.2 n.1 (fld w 55 48)
    (a.1 ++ [o.1], o.2)) ([], s)
  finishStep (placeRecords r.2 c (fld w 34 32) r.1 (fun s rs => emitPly s c k false (((canaryCores s w).head?.map Prod.fst).getD 0) rs)) c k (stOk, 0)

/-- A ply is on a core that the instruction names: the runs wait for the ply boundary (R311). -/
def canaryWaits (s : State) (w : Nat) : Bool := (canaryCores s w).any (fun x => (busyCores s).contains (9 * x.1 + x.2))

/-- The step of a CANARY that waits for its cores. -/
def waitingCanary (s : State) (c : Nat) : Option (Nat × Nat) :=
  (getCtx s c).bind (fun p => if p.state = .running then
    ((List.range p.words.length).find? (fun k => isOp .canary (p.word k) && decide ((p.step k).phase = .running))).map (fun k => (k, p.word k)) else none)

/-- The issue of CANARY; BUFFER_SHORT stands before CORE_UNAVAILABLE (DESIGN CHOICE, log 75). -/
def canaryIssue (s : State) (c : Nat) (runs : List CanaryRun) : State :=
  issueStep s c (isOp .canary) (fun s p w k =>
    let b := fld w 34 32
    let suite := fld w 55 48
    let cores := canaryCores s w
    let absent := !fbit w 0 && cores.any (fun x => decide (9 ≤ x.2) || isRetired s x.1 x.2)
    let checks := [(outShort p b (64 * (if fbit w 0 then 72 else 1)), refusedWith scBufferShort),
      (absent || !suiteHeld suite, refusedWith scCoreUnavailable)]
    match firstOf (generalChecks s p w ++ checks) with
    | some r => finishStep s c k r
    | none => if canaryWaits s w then s else canaryRuns s c k w runs)

def canaryEffect (s : State) (c : Nat) (runs : List CanaryRun) : State :=
  match waitingCanary s c with
  | some (k, w) => if serving s && !canaryWaits s w then canaryRuns s c k w runs else s
  | none => canaryIssue s c runs

/-- CANARY (R311, R312): the instruction issues; where a ply is on one of its cores, the command that follows the ply boundary brings the runs. -/
def execCanary (c : Nat) (runs : List CanaryRun) (s : State) : Host.Outcome State Fault Refusal := .next (canaryEffect s c runs)

end Sys2Proof.Machine
end

