-- ==== Sys2Proof/Machine/Dispatch.lean ====
section
/-! DEFINITION. One arm for each command: a direct call of its meaning, or a rejection by name. -/

namespace Sys2Proof.Machine
open Sys2Proof

def exec (i : Instr) (s : State) : Host.Outcome State Fault Refusal :=
  match i with
  | .powerGood resetNLow => Sys2Proof.Machine.execPowerGood resetNLow s
  | .pwrgdLow => Sys2Proof.Machine.execPwrgdLow s
  | .resetNAssert => Sys2Proof.Machine.execResetNAssert s
  | .firmwareVerified check => Sys2Proof.Machine.execFirmwareVerified check s
  | .memoryTrainingDone => Sys2Proof.Machine.execMemoryTrainingDone s
  | .nodePlaceable runs => Sys2Proof.Machine.execNodePlaceable runs s
  | .nodeReset cause => Sys2Proof.Machine.execNodeReset cause s
  | .controlReset cause => Sys2Proof.Machine.execControlReset cause s
  | .controlResetDone => Sys2Proof.Machine.execControlResetDone s
  | .sagWarning index value durationNs => Sys2Proof.Machine.execSagWarning index value durationNs s
  | .sagRelease => Sys2Proof.Machine.execSagRelease s
  | .sagReset r => Sys2Proof.Machine.execSagReset r s
  | .avsTargetChange => Sys2Proof.Machine.execAvsTargetChange s
  | .avsTargetSettled => Sys2Proof.Machine.execAvsTargetSettled s
  | .avsFault status => Sys2Proof.Machine.execAvsFault status s
  | .monitorSample kind index value => Sys2Proof.Machine.execMonitorSample kind index value s
  | .thermalThrottleEnd kind index => Sys2Proof.Machine.execThermalThrottleEnd kind index s
  | .watchdogTrip die core => Sys2Proof.Machine.execWatchdogTrip die core s
  | .wdogHoldExpiry => Sys2Proof.Machine.execWdogHoldExpiry s
  | .dieLinkLost => Sys2Proof.Machine.execDieLinkLost s
  | .refclkSysLost => Sys2Proof.Machine.execRefclkSysLost s
  | .refclkHoldExpiry => Sys2Proof.Machine.execRefclkHoldExpiry s
  | .seatRefclkLost ref => Sys2Proof.Machine.execSeatRefclkLost ref s
  | .trustEpochDisagree => Sys2Proof.Machine.execTrustEpochDisagree s
  | .canaryScheduled run => Sys2Proof.Machine.execCanaryScheduled run s
  | .canaryFastPeriodEnd cluster pcore => Sys2Proof.Machine.execCanaryFastPeriodEnd cluster pcore s
  | .spareSubstitution cluster pcore switchNs => Sys2Proof.Machine.execSpareSubstitution cluster pcore switchNs s
  | .coreDrainDegrade cluster pcore => Sys2Proof.Machine.execCoreDrainDegrade cluster pcore s
  | .healthDecay => Sys2Proof.Machine.execHealthDecay s
  | .programMessage seat node bytes => Sys2Proof.Machine.execProgramMessage seat node bytes s
  | .contextTake die => Sys2Proof.Machine.execContextTake die s
  | .deadlinePasses lsn => Sys2Proof.Machine.execDeadlinePasses lsn s
  | .commitStart ctx => Sys2Proof.Machine.execCommitStart ctx s
  | .commitPoint ctx => Sys2Proof.Machine.execCommitPoint ctx s
  | .commitApplyEnd ctx => Sys2Proof.Machine.execCommitApplyEnd ctx s
  | .fence ctx => Sys2Proof.Machine.execFence ctx s
  | .wait ctx => Sys2Proof.Machine.execWait ctx s
  | .emit ctx => Sys2Proof.Machine.execEmit ctx s
  | .ledgerRd ctx => Sys2Proof.Machine.execLedgerRd ctx s
  | .tileAppend ctx => Sys2Proof.Machine.execTileAppend ctx s
  | .tileSeal ctx => Sys2Proof.Machine.execTileSeal ctx s
  | .runSplice ctx => Sys2Proof.Machine.execRunSplice ctx s
  | .runDrop ctx => Sys2Proof.Machine.execRunDrop ctx s
  | .moveWload ctx => Sys2Proof.Machine.execMoveWload ctx s
  | .moveWfetch ctx => Sys2Proof.Machine.execMoveWfetch ctx s
  | .moveWdrop ctx => Sys2Proof.Machine.execMoveWdrop ctx s
  | .prefetch ctx => Sys2Proof.Machine.execPrefetch ctx s
  | .keyAdmit ctx => Sys2Proof.Machine.execKeyAdmit ctx s
  | .keyRotate ctx => Sys2Proof.Machine.execKeyRotate ctx s
  | .keyStageAck ctx step => Sys2Proof.Machine.execKeyStageAck ctx step s
  | .keyRemove ctx => Sys2Proof.Machine.execKeyRemove ctx s
  | .keyStatus ctx => Sys2Proof.Machine.execKeyStatus ctx s
  | .tenantReclaim slot => Sys2Proof.Machine.execTenantReclaim slot s
  | .reencObject slot die flips => Sys2Proof.Machine.execReencObject slot die flips s
  | .keyRetire slot => Sys2Proof.Machine.execKeyRetire slot s
  | .regRd ctx => Sys2Proof.Machine.execRegRd ctx s
  | .regWr ctx => Sys2Proof.Machine.execRegWr ctx s
  | .canary ctx runs => Sys2Proof.Machine.execCanary ctx runs s
  | .scrub ctx => Sys2Proof.Machine.execScrub ctx s
  | .scrubPassStart die flips => Sys2Proof.Machine.execScrubPassStart die flips s
  | .scrubPassEnd die => Sys2Proof.Machine.execScrubPassEnd die s
  | .attDec ctx => Sys2Proof.Machine.execAttDec ctx s
  | .attPre ctx => Sys2Proof.Machine.execAttPre ctx s
  | .attBwd ctx => Sys2Proof.Machine.execAttBwd ctx s
  | .attMerge ctx => Sys2Proof.Machine.execAttMerge ctx s
  | .projKv ctx => Sys2Proof.Machine.execProjKv ctx s
  | .projKvGradient ctx => Sys2Proof.Machine.execProjKvGradient ctx s
  | .mm ctx => Sys2Proof.Machine.execMm ctx s
  | .nbEw ctx => Sys2Proof.Machine.execNbEw ctx s
  | .nbRope ctx => Sys2Proof.Machine.execNbRope ctx s
  | .nbQuant ctx => Sys2Proof.Machine.execNbQuant ctx s
  | .nbAdam ctx => Sys2Proof.Machine.execNbAdam ctx s
  | .plyIssue ply cores flips => Sys2Proof.Machine.execPlyIssue ply cores flips s
  | .plyComplete ply => Sys2Proof.Machine.execPlyComplete ply s
  | .prefetchProtectExpiry obj => Sys2Proof.Machine.execPrefetchProtectExpiry obj s
  | .dirLookup half req tenant stream low high => Sys2Proof.Machine.execDirLookup half req tenant stream low high s
  | .dirLookupRepeat half req => Sys2Proof.Machine.execDirLookupRepeat half req s
  | .dirStagingRequest half => Sys2Proof.Machine.execDirStagingRequest half s
  | .dirStage half => Sys2Proof.Machine.execDirStage half s
  | .dirSpreadingPass half => Sys2Proof.Machine.execDirSpreadingPass half s
  | .readsDrained drain => Sys2Proof.Machine.execReadsDrained drain s
  | .t2CopyStart tile => Sys2Proof.Machine.execT2CopyStart tile s
  | .t2CopyTimeout tile target => Sys2Proof.Machine.execT2CopyTimeout tile target s
  | .eviction die => Sys2Proof.Machine.execEviction die s
  | .interDieMove tile => Sys2Proof.Machine.execInterDieMove tile s
  | .fetchAttemptTimeout obj => Sys2Proof.Machine.execFetchAttemptTimeout obj s
  | .fetchRetryRound obj => Sys2Proof.Machine.execFetchRetryRound obj s
  | .migrationCondition reason tenant stream target => Sys2Proof.Machine.execMigrationCondition reason tenant stream target s
  | .migrationAnswerTimeout tenant stream => Sys2Proof.Machine.execMigrationAnswerTimeout tenant stream s
  | .migrationWithdraw tenant stream => Sys2Proof.Machine.execMigrationWithdraw tenant stream s
  | .nbSeqStart stack unit => Sys2Proof.Machine.execNbSeqStart stack unit s
  | .nbRowStepEnd stack unit domains flips => Sys2Proof.Machine.execNbRowStepEnd stack unit domains flips s
  | .refreshDue stack unit => Sys2Proof.Machine.execRefreshDue stack unit s
  | .pass1End stack unit => Sys2Proof.Machine.execPass1End stack unit s
  | .refreshComplete stack unit => Sys2Proof.Machine.execRefreshComplete stack unit s
  | .nbSeqFinal stack unit => Sys2Proof.Machine.execNbSeqFinal stack unit s
  | .nbPollRead => Sys2Proof.Machine.execNbPollRead s
  | .eccEventIntervalEnd => Sys2Proof.Machine.execEccEventIntervalEnd s
  | .sramUncorrectable place => Sys2Proof.Machine.execSramUncorrectable place s
  | .seatEnable seat => Sys2Proof.Machine.execSeatEnable seat s
  | .trainingComplete seat => Sys2Proof.Machine.execTrainingComplete seat s
  | .trainingRetry seat => Sys2Proof.Machine.execTrainingRetry seat s
  | .linkLoss seat => Sys2Proof.Machine.execLinkLoss seat s
  | .helloTimer seat => Sys2Proof.Machine.execHelloTimer seat s
  | .hello seat frame => Sys2Proof.Machine.execHello seat frame s
  | .keepaliveTimer seat => Sys2Proof.Machine.execKeepaliveTimer seat s
  | .keepalive seat frame => Sys2Proof.Machine.execKeepalive seat frame s
  | .partnerLost seat => Sys2Proof.Machine.execPartnerLost seat s
  | .pfcFrame seat frame => Sys2Proof.Machine.execPfcFrame seat frame s
  | .dataFrame seat frame => Sys2Proof.Machine.execDataFrame seat frame s
  | .ackFrame seat frame => Sys2Proof.Machine.execAckFrame seat frame s
  | .ackTimer peer => Sys2Proof.Machine.execAckTimer peer s
  | .rtoExpiry peer => Sys2Proof.Machine.execRtoExpiry peer s
  | .peerUnreachable peer => Sys2Proof.Machine.execPeerUnreachable peer s
  | .rateIncrease peer => Sys2Proof.Machine.execRateIncrease peer s
  | .forwardFrame seat frame => Sys2Proof.Machine.execForwardFrame seat frame s
  | .egressFrameStart seat => Sys2Proof.Machine.execEgressFrameStart seat s
  | .boardWrite seat node bytes => Sys2Proof.Machine.execBoardWrite seat node bytes s
  | .boardCommit seat node bytes => Sys2Proof.Machine.execBoardCommit seat node bytes s
  | .boardAbort seat node bytes => Sys2Proof.Machine.execBoardAbort seat node bytes s
  | .boardGraceEnd => Sys2Proof.Machine.execBoardGraceEnd s
  | .discoveryProbe seat frame => Sys2Proof.Machine.execDiscoveryProbe seat frame s
  | .discoveryAssign seat frame => Sys2Proof.Machine.execDiscoveryAssign seat frame s
  | .tierPut node bytes => Sys2Proof.Machine.execTierPut node bytes s
  | .tierPutAck node bytes => Sys2Proof.Machine.execTierPutAck node bytes s
  | .tierGet node bytes => Sys2Proof.Machine.execTierGet node bytes s
  | .tierData node bytes => Sys2Proof.Machine.execTierData node bytes s
  | .tierRelease node bytes => Sys2Proof.Machine.execTierRelease node bytes s
  | .tierReleaseAck node bytes => Sys2Proof.Machine.execTierReleaseAck node bytes s
  | .migrationOffer node bytes => Sys2Proof.Machine.execMigrationOffer node bytes s
  | .migrationAnswer node bytes => Sys2Proof.Machine.execMigrationAnswer node bytes s
  | .tailOffer node bytes => Sys2Proof.Machine.execTailOffer node bytes s
  | .tailOfferKeepExpiry tenant stream => Sys2Proof.Machine.execTailOfferKeepExpiry tenant stream s
  | .handoverFetchDone tenant stream => Sys2Proof.Machine.execHandoverFetchDone tenant stream s
  | .tailAck node bytes => Sys2Proof.Machine.execTailAck node bytes s
  | .tailAsk node bytes => Sys2Proof.Machine.execTailAsk node bytes s
  | .tailRefuse node bytes => Sys2Proof.Machine.execTailRefuse node bytes s
  | .awaitingTimeout tenant stream => Sys2Proof.Machine.execAwaitingTimeout tenant stream s
  | .stallEnd tenant stream => Sys2Proof.Machine.execStallEnd tenant stream s
  | .reclaimTimeout tenant stream => Sys2Proof.Machine.execReclaimTimeout tenant stream s
  | .copyAsk node bytes => Sys2Proof.Machine.execCopyAsk node bytes s
  | .digestSend => Sys2Proof.Machine.execDigestSend s
  | .digest node bytes => Sys2Proof.Machine.execDigest node bytes s
  | .digestUnpairedExpiry tenant program step => Sys2Proof.Machine.execDigestUnpairedExpiry tenant program step s
  | .spdmGetVersion bytes => Sys2Proof.Machine.execSpdmGetVersion bytes s
  | .spdmGetCapabilities bytes => Sys2Proof.Machine.execSpdmGetCapabilities bytes s
  | .spdmNegotiateAlgorithms bytes => Sys2Proof.Machine.execSpdmNegotiateAlgorithms bytes s
  | .spdmGetMeasurements bytes => Sys2Proof.Machine.execSpdmGetMeasurements bytes s
  | .spdmUnsupported bytes => Sys2Proof.Machine.execSpdmUnsupported bytes s
  | .ctlResetWrite path => Sys2Proof.Machine.execCtlResetWrite path s
  | .nodeResetWrite path => Sys2Proof.Machine.execNodeResetWrite path s
  | .scanUnlock path => Sys2Proof.Machine.execScanUnlock path s
  | .regSeal path blocks => Sys2Proof.Machine.execRegSeal path blocks s
  | .spareRetire path cluster pcore => Sys2Proof.Machine.execSpareRetire path cluster pcore s
  | .spareClearList path => Sys2Proof.Machine.execSpareClearList path s
  | .seatRetrain path seat => Sys2Proof.Machine.execSeatRetrain path seat s
  | .policerEnableWrite path transit word => Sys2Proof.Machine.execPolicerEnableWrite path transit word s
  | .weightReserveWrite path die bytes => Sys2Proof.Machine.execWeightReserveWrite path die bytes s
  | .rcRead path addr => Sys2Proof.Machine.execRcRead path addr s
  | .registerWrite path addr wide data => Sys2Proof.Machine.execRegisterWrite path addr wide data s
  | .smbusRegisterWrite x bytes => Sys2Proof.Machine.execSmbusRegisterWrite x bytes s
  | .smbusReadRequest x bytes => Sys2Proof.Machine.execSmbusReadRequest x bytes s
  | .smbusReadResult => Sys2Proof.Machine.execSmbusReadResult s
  | .jtagIdcode => Sys2Proof.Machine.execJtagIdcode s
  | .jtagSamplePreload bits => Sys2Proof.Machine.execJtagSamplePreload bits s
  | .jtagExtest bits => Sys2Proof.Machine.execJtagExtest bits s
  | .jtagRegAccess dr => Sys2Proof.Machine.execJtagRegAccess dr s
  | .jtagCoreDebug core op => Sys2Proof.Machine.execJtagCoreDebug core op s
  | .jtagScan bits => Sys2Proof.Machine.execJtagScan bits s
  | .jtagBypass bits => Sys2Proof.Machine.execJtagBypass bits s
  | .trainingFailed seat => Sys2Proof.Machine.execTrainingFailed seat s
  | .resetNDeassert => Sys2Proof.Machine.execResetNDeassert s
  | .nodeResetRelease => Sys2Proof.Machine.execNodeResetRelease s
  | .refclkSysReturn => Sys2Proof.Machine.execRefclkSysReturn s
  | .seatRefclkReturn ref => Sys2Proof.Machine.execSeatRefclkReturn ref s
  | .discoveryAnswer seat frame => Sys2Proof.Machine.execDiscoveryAnswer seat frame s
  | .dirQuietWindowEnd half tenant stream => Sys2Proof.Machine.execDirQuietWindowEnd half tenant stream s
  | .i3cDynamicAddress addr => Sys2Proof.Machine.execI3cDynamicAddress addr s

end Sys2Proof.Machine
end

