-- ==== Sys2Proof/Safety.lean ====
section
/-! DEFINITION. The terms in which claims about the node are stated: a command that answers a next state, what a node reset leaves, an
event raised, a program's instruction that issues, and the invariant that every step keeps. -/

namespace Sys2Proof.Safety
open Sys2Proof Sys2Proof.Machine

/-- The command answers a next state, of which `P` holds. -/
def Answers (c : Instr) (s : State) (P : State → Prop) : Prop := ∃ t, exec c s = .next t ∧ P t

/-- What every node reset leaves (R431): the registers, tables and objects at their reset values with the cause in RESET_CAUSE; the fuses, the
boot flash but for LEDGER_GEN, the frames that have left and the commands that wait stay. Objects are numbered from `obj` on (R19). -/
def Cleared (s t : State) (cause obj : Nat) : Prop :=
  t.time = 0 ∧ t.boot.stage = 0 ∧ t.rst = Rst.reset cause ∧ t.supply = Supply.reset ∧ t.health = Health.reset ∧ t.cores = Cores.reset ∧
  t.ev = Events.reset ∧ t.ctr = [] ∧ t.seats = [] ∧ t.tr = Traffic.reset ∧ t.net = { Transport.reset with wire := s.net.wire } ∧
  t.fab = Fabric.reset ∧ t.dir = [] ∧ t.mem = { Memory.reset with nextObj := obj } ∧ t.nb = NearBank.reset ∧
  t.pg = Programs.reset ∧ t.trust = Trust.reset ∧ t.boot.flashEvidence = s.boot.flashEvidence ∧
  t.boot.thermometer = s.boot.thermometer ∧ t.pending = s.pending

/-- LEDGER_GEN has advanced by one, or could not be advanced and kept its value, which FLASH_GEN's failure shows (R254). -/
def LedgerGenAdvances (s t : State) : Prop :=
  t.boot.ledgerGen = (if t.boot.genUnsure then s.boot.ledgerGen else s.boot.ledgerGen + 1)

/-- A node reset of a powered node: `Cleared`, with the objects' numbers going on, and LEDGER_GEN advanced (R254, R431). -/
def NodeResetLeaves (s t : State) (cause : Nat) : Prop := Cleared s t cause s.mem.nextObj ∧ LedgerGenAdvances s t

/-- An event has been raised between `s` and `t` (R366, R441): it took the next number, and while no owning host can be sent to it waits at the end of a
queue that had room. -/
def Raised (s t : State) (code : Nat) (payload : List Byte) : Prop :=
  t.ev.nextSeq = (s.ev.nextSeq + 1) % 2 ^ 32 ∧
  (hostLink s = none → s.ev.queue.length < 256 → t.ev.queue = s.ev.queue ++ [⟨code, s.ev.nextSeq, s.time, payload⟩])

/-- A bit of ALERT_STAT is set (R446). -/
def AlertSet (t : State) (bit : Nat) : Prop := t.rst.alertStat.getLsbD bit = true

/-- The part of the invariant that does not speak of boot: the table of differing blocks is in its canonical form, the core-rail target and
its predecessor lie within 600 to 850 mV (R419), at most 256 events wait (R366), SEQ is a 32-bit number (R346), CTL_COUNT a 16-bit one (R446). -/
def Sound (s : State) : Prop :=
  ErrTab.wf s.mem.err = true ∧ 600 ≤ s.supply.target ∧ s.supply.target ≤ 850 ∧ 600 ≤ s.supply.prevTarget ∧ s.supply.prevTarget ≤ 850 ∧
  s.ev.queue.length ≤ 256 ∧ s.ev.nextSeq < 2 ^ 32 ∧ s.rst.ctlCount < 65536

/-- The rows of a half stand in ascending row numbers below 65,536, in the order of their keys (R140). -/
def RowsOrdered (rows : List (Nat × Row)) : Prop :=
  rows.Pairwise (fun a b => a.1 < b.1 ∧ a.2.key ≤ b.2.key) ∧ ∀ x ∈ rows, x.1 < 65536

/-- The rows of both halves are in order, and each carries the tag of its tenant and stream (R137, R140). -/
def RowsSound (s : State) : Prop :=
  ∀ h, RowsOrdered (getHalf s h).rows ∧ ∀ x ∈ (getHalf s h).rows, x.2.tag = dirTag x.2.tenant x.2.stream

/-- The invariant: `Sound`, a boot stage of R370, a stage other than 0 only in a node that is powered and not held in reset, and the directory's
rows in order under their tags. -/
def Inv (s : State) : Prop :=
  Sound s ∧ s.boot.stage ≤ 3 ∧ (s.boot.stage ≠ 0 → running s = true) ∧ RowsSound s

/-- Nothing has changed between `s` and `t` but what goes out of the node and what it counts: bits of ALERT_STAT, the events, the counters,
the seats, the traffic, the transport, and how many free values have been drawn. -/
structure Outward (s t : State) : Prop where
  time : t.time = s.time
  boot : t.boot = s.boot
  rst : t.rst = { s.rst with alertStat := t.rst.alertStat }
  supply : t.supply = s.supply
  mon : t.mon = s.mon
  health : t.health = s.health
  cores : t.cores = s.cores
  fab : t.fab = s.fab
  dir : t.dir = s.dir
  mem : t.mem = s.mem
  nb : t.nb = s.nb
  pg : t.pg = s.pg
  trust : t.trust = s.trust
  acc : t.acc = s.acc
  pending : t.pending = s.pending

/-- Nothing has changed between `s` and `t` of what surrounds the node's data: the clock, boot, the resets but for bits of ALERT_STAT, the
supply, the monitors, the register paths, the commands that wait. -/
structure Inward (s t : State) : Prop where
  time : t.time = s.time
  boot : t.boot = s.boot
  rst : t.rst = { s.rst with alertStat := t.rst.alertStat }
  supply : t.supply = s.supply
  mon : t.mon = s.mon
  acc : t.acc = s.acc
  pending : t.pending = s.pending

/-! ### Instructions of programs -/

/-- The program `p` in context `c` issues its next instruction now: one that `is` describes, by R235, before the deadline (R242), its operands in
the working area without errors (R214, R228). -/
abbrev MayIssue (s : State) (c : Nat) (p : Prog) (is : Nat → Bool) : Prop :=
  getCtx s c = some p ∧ serving s = true ∧ p.state = .running ∧ is (p.word p.next) = true ∧ p.mayIssue = true ∧ deadlinePassed s p = false ∧
    p.next < p.steps.length ∧ sectionClean s p (p.word p.next) = true

/-- The program with its next step issued (R235, R369, R288). -/
def issuedProg (s : State) (p : Prog) : Prog :=
  { p with next := p.next + 1,
           steps := p.steps.set p.next ⟨.running, 0, 0, s.time, decide (effRole s = roleShadow), isBank (p.word p.next) && p.polled p.next, 0, 0, [],
             p.scratch, none⟩ }

/-- The state as the instruction finds it. -/
def afterIssue (s : State) (c : Nat) (p : Prog) : State := ledgerProgress (putCtx s c (issuedProg s p)) (issuedProg s p)

/-- No check of the instruction refuses it: neither those that come first in every entry nor its own (R285, R368, R492). -/
abbrev Passes (s : State) (c : Nat) (p : Prog) (own : State → Prog → Nat → List (Bool × Compl)) : Prop :=
  firstOf (generalChecks (afterIssue s c p) (issuedProg s p) (p.word p.next) ++ own (afterIssue s c p) (issuedProg s p) (p.word p.next)) = none

/-- Step `k` of the program in context `c` has completed with a status and a detail (R238). -/
def StepDone (t : State) (c k status detail : Nat) : Prop :=
  ∃ q, getCtx t c = some q ∧ (q.step k).phase = .done ∧ (q.step k).status = status ∧ (q.step k).detail = detail

/-- Step `k` of the program in context `c` has issued and waits for what completes it. -/
def StepRuns (t : State) (c k : Nat) : Prop := ∃ q, getCtx t c = some q ∧ (q.step k).phase = .running

/-- Nothing has changed but the program in context `c`, ledger records with their mirrors, and what goes out. -/
structure StepFrame (s t : State) (c : Nat) : Prop where
  out : Outward { s with pg := t.pg, mem := { s.mem with err := t.mem.err, seenPoison := t.mem.seenPoison, mirrorLost := t.mem.mirrorLost } } t
  others : ∀ d, d ≠ c → getCtx t d = getCtx s d
  queue : t.pg.queue = s.pg.queue
  plies : t.pg.plies = s.pg.plies

/-- A ply being formed holds `count` members of step `step` of a program, for a kind and a layer (R94). -/
def InPly (t : State) (p : Prog) (step count : Nat) (kind : PlyKind) (layer : Nat) : Prop :=
  ∃ i x m, Tab.find t.pg.plies i = some x ∧ x.issued = none ∧ x.key.kind = kind ∧ x.key.tenant = p.tenant ∧ x.key.layer = layer ∧
    m ∈ x.members ∧ m.lsn = p.lsn ∧ m.step = step ∧ m.count = count

/-- A unit holds a sequence of step `step` of a program that is queued, or waits for its turn to be queued (R193). -/
def SeqQueued (t : State) (p : Prog) (step : Nat) : Prop :=
  ∃ u q, q ∈ (getUnit t u).seqs ∧ q.lsn = p.lsn ∧ q.step = step ∧ q.tenant = p.tenant ∧ (q.state = .queued ∨ q.state = .waiting)

/-- Of the programs, only the one in context `c`, the plies and ledger records have changed. -/
structure PlyFrame (s t : State) (c : Nat) : Prop where
  others : ∀ d, d ≠ c → getCtx t d = getCtx s d
  queue : t.pg.queue = s.pg.queue

/-! ### Seats and peers -/

/-- Nothing has changed but one seat, and what goes out. -/
structure SeatFrame (s t : State) (i : Nat) : Prop where
  out : Outward s t
  others : ∀ j, j ≠ i → getSeat t j = getSeat s j

/-- Nothing has changed but one peer and the frames on their way, with their counters and the free values drawn. -/
structure PeerFrame (s t : State) (k : Nat) : Prop where
  out : Outward s t
  seats : t.seats = s.seats
  ev : t.ev = s.ev
  others : ∀ j, j ≠ k → getPeer t j = getPeer s j

/-- What a DISCOVERY payload that came in on seat `i` says, once that seat is recorded in RETURN at INDEX (R372, R373). -/
def DiscTaken (i : Nat) (pl : List Byte) (d : Disc) : Prop :=
  d.op = leAt pl 0 1 ∧ d.len = leAt pl 1 1 ∧ d.index = leAt pl 2 1 ∧ d.fmId = leAt pl 4 2 ∧ d.assignId = leAt pl 6 2 ∧ d.nonce = leAt pl 8 4 ∧
  d.route = (List.range 256).map (seatNibble (slice pl 0x20 128)) ∧
  d.back = ((List.range 256).map (seatNibble (slice pl 0xA0 128))).set d.index i

/-- The DISCOVERY payload as it goes on: the ingress seat in RETURN at INDEX, INDEX one more, all else as it came (R373). -/
def DiscPassed (i : Nat) (pl p : List Byte) : Prop :=
  p.length = 384 ∧ leAt p 2 1 = leAt pl 2 1 + 1 ∧ (∀ j, j ≠ 2 → j ≠ 0xA0 + leAt pl 2 1 / 2 → p.getD j 0 = pl.getD j 0) ∧
  (∀ j, j < 256 → seatNibble (slice p 0xA0 128) j = if j = leAt pl 2 1 then i else seatNibble (slice pl 0xA0 128) j)

/-! ### Blocks -/

/-- A stored block with one bit flipped: 0 to 511 of the data, from 512 on of the check word. -/
def flipBit (b : Blk) (i : Nat) : Blk :=
  if i < 512 then { b with data := b.data ^^^ BitVec.ofNat 512 (2 ^ i) } else { b with check := b.check ^^^ BitVec.ofNat 64 (2 ^ (i - 512)) }

/-- The exclusive or of `n` bits. -/
def xorBits (n : Nat) (f : Nat → Bool) : Bool := (List.range n).foldl (fun x i => x != f i) false

/-- The bit of the data at a row and a column (R206). -/
def cell (row col : Nat) : Nat := 32 * row + col

end Sys2Proof.Safety
end

