-- ==== Sys2Proof/Certificates/Slice0/Obligations.lean ====
section
/-! DEFINITION. The statements for the provers: what the commands do, what they leave unchanged, and what every step keeps. -/

open Sys2Proof Sys2Proof.Machine Sys2Proof.Safety

/-! ### Resets, power, boot, supply, monitors, canaries (15, 16, 17, 19) -/

/-- The state right after power good: NODE_TIME zero, stage 0, cause 0x01, ALERT_STAT.RESET set, ALERT_MASK all ones, no tenant, no board, no
program, no run, every seat as reset describes it, no command waiting (R19, R370, R431, R446, R478). -/
def Obligations.ResetStateIsAfterPowerGood : Prop :=
  State.reset.time = 0 ∧ State.reset.boot.stage = 0 ∧ State.reset.boot.powered = true ∧ State.reset.rst.lastNode = 1 ∧
  State.reset.rst.lastCtl = 0 ∧ State.reset.rst.alertStat = 0x080 ∧ State.reset.rst.alertMask = 0x3FF ∧
  (∀ n, (getTenant State.reset n).state = .empty) ∧ effRole State.reset = roleUnplaced ∧ State.reset.pg.queue = [] ∧
  State.reset.pg.ctxs = [] ∧ (∀ h, (getHalf State.reset h).rows = []) ∧ State.reset.mem.tiles = [] ∧
  (∀ i, (getSeat State.reset i).mode = 1 ∧ (getSeat State.reset i).enable = true ∧ (getSeat State.reset i).state = seatDown) ∧
  (∀ c, activeCores (spareMap State.reset c) = 8) ∧ State.reset.supply.target = 750 ∧ State.reset.pending = []

/-- Every cause of a node reset leaves what R431 says, with its code of R432 in RESET_CAUSE: power good, RESET_N, a register write or the
firmware's own request, a supply below the reset threshold (0.88 × the target) or below the absolute floor of 550 mV, each within 5 mV, with the
floor alone at targets of 625 mV or less, the trust blocks' disagreement, the die-to-die link, the end of the reference hold. What held the node
before holds it on (the model's own reading, log 37). -/
def Obligations.NodeResetCommandsClearTheNode : Prop :=
  (∀ s b, s.boot.powered = false →
    Answers (.powerGood b) s fun t => Cleared s t 1 1 ∧ LedgerGenAdvances s t ∧ t.boot.powered = true ∧ t.boot.hold = .free ∧ t.boot.resetLow = b) ∧
  (∀ s, Answers .pwrgdLow s fun t => Cleared s t 1 1 ∧ t.boot.powered = false ∧ t.boot.ledgerGen = s.boot.ledgerGen) ∧
  (∀ s, s.boot.powered = true → Answers .resetNAssert s fun t => NodeResetLeaves s t 2 ∧ t.boot.resetLow = true ∧
    t.boot.hold = s.boot.hold) ∧
  (∀ s cause, s.boot.powered = true → 2 ≤ cause → cause ≤ 9 →
    Answers (.nodeReset cause) s fun t => NodeResetLeaves s t cause ∧ t.boot.powered = true ∧ (t.boot.unlocked = true ↔ cause = 9) ∧
      (t.boot.hold.supply = true ↔ s.boot.hold.supply = true ∨ cause = 4 ∨ cause = 5) ∧
      (t.boot.hold.heat = true ↔ s.boot.hold.heat = true ∨ cause = 6) ∧
      (t.boot.hold.reference = true ↔ s.boot.hold.reference = true ∨ (cause = 8 ∧ s.mon.sysLost ≠ none))) ∧
  (∀ s i v, s.boot.powered = true → i < 48 → underFloor i v = true →
    Answers (.sagReset ⟨i, v⟩) s fun t => NodeResetLeaves s t 5 ∧ t.boot.hold.supply = true) ∧
  (∀ s i v, s.boot.powered = true → i < 48 → underFloor i v = false → 625 < s.supply.compared → belowThreshold s.supply 1 88 i v = true →
    Answers (.sagReset ⟨i, v⟩) s fun t => NodeResetLeaves s t 4 ∧ t.boot.hold.supply = true) ∧
  (∀ s i v, underFloor i v = false → s.supply.compared ≤ 625 ∨ belowThreshold s.supply 1 88 i v = false → exec (.sagReset ⟨i, v⟩) s = .next s) ∧
  (∀ i v, (v < 545 → underFloor i v = true) ∧ (555 ≤ v → underFloor i v = false)) ∧
  (∀ u k pct i v, (100 * v + 500 < pct * Supply.compared u → belowThreshold u k pct i v = true) ∧
    (pct * Supply.compared u + 500 ≤ 100 * v → belowThreshold u k pct i v = false)) ∧
  (∀ s, started s = true → Answers .trustEpochDisagree s fun t => NodeResetLeaves s t 7) ∧
  (∀ s, running s = true → Answers .dieLinkLost s fun t => NodeResetLeaves s t 8) ∧
  (∀ s t0, s.boot.powered = true → s.boot.hold.reference = false → s.mon.sysLost = some t0 →
    Answers .refclkHoldExpiry s fun t => NodeResetLeaves s t 8 ∧ t.boot.hold.reference = true)

/-- A node held in reset starts again when what holds it ends: RESET_N rises; every voltage monitor has been sampled since the reset and its latest
sample is 705 mV or more; the reference has returned; 1 s has passed and every temperature reads below 85 °C (R423, R428, R478, R482). Nothing
else changes. That NODE_TIME runs meanwhile and that the command names no reason are the model's readings (logs 3, 55). -/
def Obligations.HeldNodeStartsAgain : Prop :=
  (∀ s, exec .resetNDeassert s = .next { s with boot := { s.boot with resetLow := false } }) ∧
  (∀ s, (s.boot.hold.supply = true → ∀ i, i < 48 → ∃ v, Tab.find s.mon.vals (1, i) = some v ∧ 705 ≤ v.toNat) →
    (s.boot.hold.reference = true → s.mon.sysLost = none) →
    (s.boot.hold.heat = true → 1000000000 ≤ s.time ∧ (∀ i, i < 96 → ∃ v, Tab.find s.mon.vals (0, i) = some v ∧ v.toInt < 1360) ∧
      ∀ i, i < 12 → ∃ v, Tab.find s.mon.vals (3, i) = some v ∧ v.toInt < 1360) →
    exec .nodeResetRelease s = .next { s with boot := { s.boot with hold := .free } }) ∧
  (∀ s i, s.boot.hold.supply = true → i < 48 → (∀ v, Tab.find s.mon.vals (1, i) = some v → v.toNat < 705) →
    Answers .nodeResetRelease s fun t => t.boot.hold.supply = true ∧ t = { s with boot := { s.boot with hold := t.boot.hold } }) ∧
  (∀ s, s.boot.hold.reference = true → s.mon.sysLost ≠ none →
    Answers .nodeResetRelease s fun t => t.boot.hold.reference = true ∧ t = { s with boot := { s.boot with hold := t.boot.hold } }) ∧
  (∀ s k i, s.boot.hold.heat = true →
    s.time < 1000000000 ∨ (k = 0 ∧ i < 96 ∨ k = 3 ∧ i < 12) ∧ (∀ v, Tab.find s.mon.vals (k, i) = some v → 1360 ≤ v.toInt) →
    Answers .nodeResetRelease s fun t => t.boot.hold.heat = true ∧ t = { s with boot := { s.boot with hold := t.boot.hold } })

/-- The core rail and REFCLK_SYS: the target is the fused value plus 5 mV times OFFSET within 600 to 850 mV, the comparators use the lower of the
old and the new one until it has settled, a regulator fault sets AVS_FAULT and sends its word without a reset, the sag throttle ends when every
voltage monitor reads 0.96 × the target or more, the loss and return of the reference are noted (R419, R420, R422, R424, R482). -/
def Obligations.SupplyAndReferenceCommands : Prop :=
  (∀ s, started s = true → s.supply.sagActive = false → avsTarget s ≠ s.supply.target →
    exec .avsTargetChange s = .next { s with supply := { s.supply with prevTarget := s.supply.compared, target := avsTarget s, changing := true, settling := true } }) ∧
  (∀ s, 600 ≤ avsTarget s ∧ avsTarget s ≤ 850 ∧
    (avsTarget s : Int) = max 600 (min 850 ((Config.avsFused : Int) + 5 * s.supply.offset.toInt))) ∧
  (∀ s : State, s.supply.compared = if s.supply.settling then Nat.min s.supply.prevTarget s.supply.target else s.supply.target) ∧
  (∀ s, exec .avsTargetSettled s = .next { s with supply := { s.supply with prevTarget := s.supply.target, changing := false, settling := false } }) ∧
  (∀ s status, started s = true → status < 65536 →
    Answers (.avsFault status) s fun t =>
      t.supply.avsStatus = status ∧ AlertSet t alAvs ∧ Raised s t evAvsFault (monitorPayload 0 0 status 1 0) ∧
      t.boot = s.boot ∧ t.mem = s.mem ∧ t.pg = s.pg ∧ t.supply.target = s.supply.target) ∧
  (∀ s, s.supply.sagActive = true → (∀ i, i < 48 → ∃ v, Tab.find s.mon.vals (1, i) = some v ∧ 96 * s.supply.compared ≤ 100 * v.toNat) →
    Answers .sagRelease s fun t =>
      t.supply = { s.supply with sagActive := false, throttleNs := s.supply.throttleNs + (s.time - s.supply.sagSince) } ∧
      t.boot = s.boot ∧ t.rst = s.rst ∧ t.ev = s.ev ∧ t.mem = s.mem ∧ t.pg = s.pg) ∧
  (∀ s i, i < 48 → (∀ v, Tab.find s.mon.vals (1, i) = some v → 100 * v.toNat < 96 * s.supply.compared) → exec .sagRelease s = .next s) ∧
  (∀ s, s.boot.powered = true → s.mon.sysLost = none →
    exec .refclkSysLost s = .next { s with mon := { s.mon with sysLost := some s.time } }) ∧
  (∀ s, exec .refclkSysReturn s = .next { s with mon := { s.mon with sysLost := none } })

/-- Boot: where both slots fail, nothing runs and BOOT is alerted; the image of slot A runs where it verifies, slot B's where slot A fails;
its SVN, digests and seats take effect and new evidence stands, under the leaf that the leaves used before give (log 39); which CAUSE stands where two hold is the model's reading (log 38). Then memory training, and the end of power-on self-test, which makes the
node placeable with the directory and memory empty, as they are in stage 1 (R370, R395 to R397, R440). -/
def Obligations.BootCommands : Prop :=
  (∀ s c, running s = true → s.boot.stage = 0 → s.boot.failed = false → slotCause s c.selfTest c.slotA ≠ 0 → slotCause s c.selfTest c.slotB ≠ 0 →
    exec (.firmwareVerified c) s = .next (setAlert { s with boot := { s.boot with
      failed := true, aFail := true, bFail := true, cause := slotCause s c.selfTest c.slotB, selfTest := c.selfTest % 16 } } alBoot)) ∧
  (∀ s c, running s = true → s.boot.stage = 0 → s.boot.failed = false →
    (slotCause s c.selfTest c.slotA = 0 ∨ slotCause s c.selfTest c.slotB = 0) →
    Answers (.firmwareVerified c) s fun t =>
      let b := decide (slotCause s c.selfTest c.slotA ≠ 0)
      let img := if b then c.slotB else c.slotA
      t.boot.stage = 1 ∧ t.boot.slot = b ∧ t.boot.aFail = b ∧ t.boot.svn = img.svn % 64 ∧ t.boot.fwDigest = img.digest ∧
      t.boot.thermometer = Nat.max s.boot.thermometer (img.svn % 64) ∧ t.boot.selfTest = c.selfTest % 16 ∧
      t.boot.kemGen = s.boot.kemGen + 1 ∧ t.boot.bootIndex = s.boot.flashEvidence ∧
      (defaultConfig c = false → ∀ cfg, c.cfg = some cfg → t.boot.cfgDigest = cfg.digest ∧ t.boot.cfgSeats = cfg.seats) ∧
      (∀ i, i < 6 → (getSeat t i).state = if (getSeat t i).enable ∧ i / 3 ∉ s.mon.seatLost then seatTraining else seatDown) ∧
      Outward { s with boot := t.boot, supply := t.supply, trust := t.trust } t ∧ t.trust.tenants = s.trust.tenants) ∧
  (∀ s, started s = true → exec .memoryTrainingDone s = .next { s with boot := { s.boot with memTrained := true } }) ∧
  (∀ s runs, running s = true → s.boot.stage = 1 → s.boot.memTrained = true → s.dir = [] → s.mem.tiles = [] → s.mem.grads = [] → s.mem.weights = [] →
    s.mem.lse = [] →
    Answers (.nodePlaceable runs) s fun t =>
      t.boot.stage = 2 ∧ t.boot.ledgerGen = s.boot.ledgerGen ∧ t.dir = [] ∧ t.mem.tiles = [] ∧ t.mem.grads = [] ∧ t.mem.weights = [] ∧ t.mem.lse = [] ∧
      t.fab = s.fab ∧ t.mem = s.mem ∧ t.pg = s.pg ∧ t.trust = s.trust ∧ t.supply = s.supply ∧ t.mon = s.mon ∧ t.acc = s.acc ∧
      t.time = s.time)

/-- A control reset (R431 to R434): programs, tiles, weights, the directory, the tenants' keys and the debug and watchdog settings go, the board
and the boot stage stay; one that arrives during another is only counted; that WEIGHT_RESERVE and SCRUB_LAST stay is the model's reading (log 37). Its end brings new evidence, RESET in ALERT_STAT, and nothing else. The
watchdog's trip sends its word and, after the hold, ends in the control reset of cause 0x22 (R430). -/
def Obligations.ControlResetCommands : Prop :=
  (∀ s cause, started s = true → 0x21 ≤ cause → cause ≤ 0x25 → s.rst.ctlRunning = false →
    Answers (.controlReset cause) s fun t =>
      t.rst.lastCtl = cause ∧ t.rst.ctlCount = satAdd 16 s.rst.ctlCount 1 ∧ t.rst.ctlRunning = true ∧ t.rst.wdogHold = 100 ∧ t.rst.wdog = none ∧
      t.pg = Programs.reset ∧ t.dir = [] ∧ t.mem.tiles = [] ∧ t.mem.weights = [] ∧ t.mem.grads = [] ∧ t.mem.lse = [] ∧ t.trust.tenants = [] ∧
      t.boot.halted = [] ∧ t.boot.stage = s.boot.stage ∧ t.fab.active = s.fab.active ∧ t.mem.reserve = s.mem.reserve ∧
      t.mem.scrubLast = s.mem.scrubLast ∧ t.supply.target = s.supply.target ∧ t.time = s.time ∧ LedgerGenAdvances s t) ∧
  (∀ s cause, started s = true → 0x21 ≤ cause → cause ≤ 0x25 → s.rst.ctlRunning = true →
    exec (.controlReset cause) s = .next { s with rst := { s.rst with ctlCount := satAdd 16 s.rst.ctlCount 1 } }) ∧
  (∀ s, running s = true → s.rst.ctlRunning = true →
    Answers .controlResetDone s fun t =>
      t.rst.ctlRunning = false ∧ AlertSet t alReset ∧ t.boot.kemGen = s.boot.kemGen + 1 ∧ t.boot.stage = s.boot.stage ∧
      Outward { s with boot := t.boot, trust := t.trust, rst := { s.rst with ctlRunning := false } } t) ∧
  (∀ s die core, started s = true → s.rst.ctlRunning = false → s.rst.wdog = none → die < 2 → core < 8 → (8 * die + core) ∉ s.boot.halted →
    Answers (.watchdogTrip die core) s fun t =>
      AlertSet t alWatchdog ∧ Raised s t evWatchdog (recordBytes [(1, die), (3, core), (28, 0), (32, s.rst.wdogHold), (64, 0)]) ∧
      Outward { s with rst := { s.rst with wdog := some ⟨die, core, s.time⟩ } } t) ∧
  (∀ s w, s.rst.wdog = some w → s.rst.ctlRunning = false →
    Answers .wdogHoldExpiry s fun t =>
      t.rst.lastCtl = 0x22 ∧ t.rst.ctlRunning = true ∧ t.rst.wdog = none ∧ t.pg = Programs.reset ∧ t.mem.tiles = [] ∧ t.dir = [] ∧
      t.time = (reach s (w.at' + s.rst.wdogHold * 1000000)).time ∧ t.fab.active = s.fab.active)

/-- Sag, heat and the health score (R389, R420 to R422, R425 to R429): a reading below the warning threshold, 0.94 × the target within 5 mV, counts,
throttles and alerts, and one at or above it does nothing (the model's own reading, log 13); a sample is stored, raises the lowest voltage and the throttle; the second sample at 105 °C in a row resets the node;
a throttle ends below 90 °C; each second ages both deficits. -/
def Obligations.SagMonitorAndHealthCommands : Prop :=
  (∀ s i v d, running s = true → i < 48 → belowThreshold s.supply 0 94 i v = true →
    Answers (.sagWarning i v d) s fun t =>
      t.supply.sagActive = true ∧ t.supply.warnings = satAdd 24 s.supply.warnings 1 ∧ t.supply.target = s.supply.target ∧
      t.supply.prevTarget = s.supply.prevTarget ∧ AlertSet t alSag ∧ t.health = (addHealth s false 1024).health ∧
      (s.supply.sagLastEvt = none → Raised (addHealth s false 1024) t evSagWarning (monitorPayload 1 i v (s.supply.sagCount + 1) d)) ∧
      Outward { s with supply := t.supply, health := t.health, mon := t.mon } t) ∧
  (∀ s i v d, belowThreshold s.supply 0 94 i v = false →
    exec (.sagWarning i v d) s = .next s) ∧
  (∀ s k i v, s.boot.powered = true → s.boot.hold ≠ .free ∨ s.boot.resetLow = true → i < monCount k →
    exec (.monitorSample k i v) s = .next { s with mon := { s.mon with vals := Tab.put s.mon.vals (k, i) (BitVec.ofNat 16 v) } }) ∧
  (∀ s k i v, running s = true → i < monCount k → k ≠ 0 → k ≠ 3 →
    Answers (.monitorSample k i v) s fun t =>
      Tab.find t.mon.vals (k, i) = some (BitVec.ofNat 16 v) ∧ Outward { s with mon := t.mon, supply := t.supply } t ∧
      t.supply.target = s.supply.target ∧ (k = 1 → i < 24 → t.supply.min0 = Nat.min s.supply.min0 (v % 65536)) ∧
      (k = 1 → 24 ≤ i → t.supply.min1 = Nat.min s.supply.min1 (v % 65536)) ∧
      (outsideLimit (limitOf s (k, i)) k (BitVec.ofNat 16 v) = true → AlertSet t alMonitor)) ∧
  (∀ s k i v, running s = true → i < monCount k → k = 0 ∨ k = 3 → (BitVec.ofNat 16 v).toInt < 1680 →
    Answers (.monitorSample k i v) s fun t =>
      Tab.find t.mon.vals (k, i) = some (BitVec.ofNat 16 v) ∧ (k, i) ∉ t.mon.hot ∧ Outward { s with mon := t.mon } t ∧
      (1520 ≤ (BitVec.ofNat 16 v).toInt → AlertSet t alThermal ∧ (k = 0 → (k, i) ∈ t.mon.throttling))) ∧
  (∀ s k i v, running s = true → i < monCount k → k = 0 ∨ k = 3 → 1680 ≤ (BitVec.ofNat 16 v).toInt → (k, i) ∈ s.mon.hot →
    Answers (.monitorSample k i v) s fun t =>
      t.rst = Rst.reset 6 ∧ t.boot.hold = ⟨false, false, true⟩ ∧ t.boot.stage = 0 ∧ t.pg = Programs.reset ∧ t.dir = [] ∧ t.mem.tiles = [] ∧ t.time = 0 ∧
      t.fab = Fabric.reset) ∧
  (∀ s k i, (k, i) ∈ s.mon.throttling → (Tab.get s.mon.vals 0 (k, i)).toInt < 1440 →
    Answers (.thermalThrottleEnd k i) s fun t =>
      t.mon.throttling = s.mon.throttling.filter (· != (k, i)) ∧ t.mon.vals = s.mon.vals ∧ Outward { s with mon := t.mon } t) ∧
  (∀ s, running s = true → allBelow s 1520 = true →
    Answers .healthDecay s fun t =>
      t.health.d = ageDeficit s.health.d ∧ t.health.dh = ageDeficit s.health.dh ∧ Outward { s with health := t.health } t)

/-- Canaries, spares and degraded clusters (R311, R312, R435 to R439): a run that takes its core within 10 ms sets the instant of the next one a period
on, one that cannot is tried again 1 s later (the schedule's readings: log 81); one that matches changes nothing else, a mismatch logs, alerts,
costs health and begins the fast period, which ends by itself; at the ply boundary a spare takes the place of a retired core; without a spare the cluster goes on with
one core less. -/
def Obligations.CanaryAndSpareCommands : Prop :=
  (∀ s r, started s = true → r.cluster < 8 → r.pcore < 9 → isRetired s r.cluster r.pcore = false → canaryTakes s r = true →
    r.digest = Config.goldenDigest 0 →
    let core : CoreId := (r.cluster, r.pcore)
    let s1 := reach s (canaryStart s core)
    exec (.canaryScheduled r) s = .next { s1 with cores := { s.cores with
      runEnd := Tab.put s.cores.runEnd r.cluster (s1.time + r.runNs), nextRun := Tab.put s.cores.nextRun core (canaryDue s core + canaryPeriod s core),
      due := s.cores.due.filter (· != core) } }) ∧
  (∀ s core, canaryPeriod s core = if (Tab.find s.cores.fast core).isSome then 1000000000 else s.cores.period * 1000000000) ∧
  (∀ s r, canaryTakes s r = true ↔ r.taken = true ∧ 9 * r.cluster + r.pcore ∉ busyCores s ∧
    canaryStart s (r.cluster, r.pcore) ≤ Nat.max s.time (canaryDue s (r.cluster, r.pcore)) + 10000000) ∧
  (∀ s r, started s = true → r.cluster < 8 → r.pcore < 9 → isRetired s r.cluster r.pcore = false → canaryTakes s r = false →
    let core : CoreId := (r.cluster, r.pcore)
    let s1 := reach s (canaryDue s core + 10000000)
    exec (.canaryScheduled r) s = .next { s1 with cores := { s.cores with
      nextRun := Tab.put s.cores.nextRun core (s1.time + 1000000000), due := s.cores.due.filter (· != core) } }) ∧
  (∀ s r, started s = true → r.cluster < 8 → r.pcore < 9 → isRetired s r.cluster r.pcore = false → canaryTakes s r = true →
    r.digest ≠ Config.goldenDigest 0 →
    Answers (.canaryScheduled r) s fun t =>
      let core : CoreId := (r.cluster, r.pcore)
      let s1 := reach s (canaryStart s core)
      AlertSet t alCanary ∧ Tab.find t.cores.fast core = some (s1.time + 600000000000) ∧
      Tab.find t.cores.nextRun core = some (canaryDue s core + 1000000000) ∧
      t.health = (addHealth s1 true 8192).health ∧ t.cores.head = (s.cores.head + 1) % 64 ∧ t.time = s1.time ∧
      t.supply = s.supply ∧ t.mon = s.mon ∧ t.fab = s.fab ∧ t.dir = s.dir ∧ t.mem = s.mem ∧ t.nb = s.nb ∧ t.pg = s.pg ∧
      t.trust = s.trust ∧ t.acc = s.acc) ∧
  (∀ s c p e, Tab.find s.cores.fast (c, p) = some e →
    exec (.canaryFastPeriodEnd c p) s = .next { (reach s e) with cores := { s.cores with fast := Tab.del s.cores.fast (c, p) } }) ∧
  (∀ s c p ns r i, pendingReason s (c, p) = some r → lindexOf (spareMap s c) p = some i → (spareMap s c).spare ≠ 15 →
    9 * c + p ∉ busyCores s →
    Answers (.spareSubstitution c p ns) s fun t =>
      let m := { spareMap s c with map := (spareMap s c).map.set i (spareMap s c).spare, spare := 15 }
      let s1 := { s with cores := { s.cores with spares := Tab.put s.cores.spares c m, pending := Tab.del s.cores.pending (c, p) } }
      spareMap t c = m ∧ AlertSet t alCore ∧ t.health = (addHealth s true 16384).health ∧
      Raised (addHealth s1 true 16384) t evSpare (corePayload c p i (logicalCount (putSpare s c m)) r ns) ∧
      Outward { s1 with health := t.health } t) ∧
  (∀ s c p r i, pendingReason s (c, p) = some r → lindexOf (spareMap s c) p = some i → (spareMap s c).spare = 15 →
    9 * c + p ∉ busyCores s →
    Answers (.coreDrainDegrade c p) s fun t =>
      let m := { spareMap s c with map := (spareMap s c).map.set i 15 }
      spareMap t c = m ∧ AlertSet t alCore ∧
      Outward { s with health := t.health, cores := { s.cores with
        spares := Tab.put s.cores.spares c m, pending := Tab.del s.cores.pending (c, p) } } t)

/-- An event takes the next number; where no event can be sent (there is no owning host, or the node that has one is not placed: that its events
wait is the model's reading, log 51) it waits while fewer than 256 do, and is lost and counted after that; where one can it never waits, and beyond
10,000 in a second it is lost (R366, R441, R446). -/
def Obligations.EventsAreNumberedKeptOrLost : Prop :=
  (∀ s code pl, hostLink s = none → s.ev.queue.length < 256 →
    raiseEvent s code pl = { s with ev := { s.ev with nextSeq := (s.ev.nextSeq + 1) % 2 ^ 32, queue := s.ev.queue ++ [⟨code, s.ev.nextSeq, s.time, pl⟩] } }) ∧
  (∀ s code pl, hostLink s = none → 256 ≤ s.ev.queue.length →
    (raiseEvent s code pl).ev = { s.ev with nextSeq := (s.ev.nextSeq + 1) % 2 ^ 32 } ∧ AlertSet (raiseEvent s code pl) alEventsLost ∧
    getCtr (raiseEvent s code pl) (.evtCode code 1) = satAdd 64 (getCtr s (.evtCode code 1)) 1 ∧
    getCtr (raiseEvent s code pl) (.evtAll 1) = satAdd 64 (getCtr s (.evtAll 1)) 1 ∧
    getCtr (raiseEvent s code pl) (.fabric 2) = satAdd 64 (getCtr s (.fabric 2)) 1) ∧
  (∀ s code pl, (hostLink s).isSome = true →
    (raiseEvent s code pl).ev.nextSeq = (s.ev.nextSeq + 1) % 2 ^ 32 ∧ (raiseEvent s code pl).ev.queue = s.ev.queue ∧
    (s.ev.second = s.time / 1000000000 → 10000 ≤ s.ev.sentInSecond →
      AlertSet (raiseEvent s code pl) alEventsLost ∧ (raiseEvent s code pl).net = s.net)) ∧
  (∀ s code pl, Outward s (raiseEvent s code pl))

/-! ### Programs (10, 12) -/

/-- A program message (R232, R251): too short, it is counted; naming a tombstone, it is dropped and counted; with no failing check it is accepted
under the next LSN with its ledger record; with the ID of a live program of its tenant it leaves no record; with another failure its record is
final. -/
def Obligations.ProgramMessageIsAcceptedOrRefused : Prop :=
  (∀ s seat node m, serving s = true → effRole s ≠ roleUnplaced → m.length < 64 →
    exec (.programMessage seat node m) s = .next (bump s (.prog 16))) ∧
  (∀ s seat node m, serving s = true → effRole s ≠ roleUnplaced → 64 ≤ m.length → (getTenant s (pheadOf m).tenant).state = .tombstone →
    exec (.programMessage seat node m) s = .next (dropTombstone (bump s (.prog 15)) (pheadOf m).tenant)) ∧
  (∀ s seat node m, serving s = true → effRole s ≠ roleUnplaced → 64 ≤ m.length → (getTenant s (pheadOf m).tenant).state ≠ .tombstone →
    admitCheck s (progOf s seat node m 0) m seat node = none →
    Answers (.programMessage seat node m) s fun t =>
      let lsn := (takeLsn s (seatDie seat)).1
      t.pg.queue = s.pg.queue ++ [progOf s seat node m lsn] ∧
      Tab.find t.pg.ring (ledgerSlot lsn) = some (ledgerOf (progOf s seat node m lsn) 1 s.time) ∧
      Tab.find t.pg.mirror (ledgerSlot lsn) = some (ledgerOf (progOf s seat node m lsn) 1 s.time) ∧
      getCtr t (.prog 0) = satAdd 64 (getCtr s (.prog 0)) 1 ∧ t.pg.ctxs = s.pg.ctxs ∧ t.pg.plies = s.pg.plies ∧
      Outward { s with pg := t.pg, mem := { s.mem with err := t.mem.err, seenPoison := t.mem.seenPoison, mirrorLost := t.mem.mirrorLost } } t) ∧
  (∀ s seat node m, serving s = true → effRole s ≠ roleUnplaced → 64 ≤ m.length → (getTenant s (pheadOf m).tenant).state ≠ .tombstone →
    admitCheck s (progOf s seat node m 0) m seat node = some (refusedWith scProgramIdLive) →
    Answers (.programMessage seat node m) s fun t => getCtr t (.prog 3) = satAdd 64 (getCtr s (.prog 3)) 1 ∧ Outward s t) ∧
  (∀ s seat node m r, serving s = true → effRole s ≠ roleUnplaced → 64 ≤ m.length → (getTenant s (pheadOf m).tenant).state ≠ .tombstone →
    admitCheck s (progOf s seat node m 0) m seat node = some r → r ≠ refusedWith scProgramIdLive →
    Answers (.programMessage seat node m) s fun t =>
      (∃ l, Tab.find t.pg.ring (ledgerSlot (takeLsn s (seatDie seat)).1) = some l ∧ l.state = 5 ∧ l.status = r.1 ∧ l.detail = r.2) ∧
      t.pg.queue = s.pg.queue ∧ t.pg.ctxs = s.pg.ctxs ∧ t.pg.plies = s.pg.plies)

/-- The queued program of the highest class, the earliest among equals, takes a context (R228, R233): it leaves the queue and runs there with scratch
space of the size it asked for, its sections in die SRAM or, where that has no room for them, in the working area (which of the two is the model's
choice, log 89); at its deadline a running program leaves its context, a queued one the queue (R242). -/
def Obligations.ContextsAreTakenAndLeft : Prop :=
  (∀ s p, bestQueued s = some p → serving s = true →
    Answers (.contextTake p.die) s fun t =>
      (∃ c q, getCtx t c = some q ∧ q.lsn = p.lsn ∧ q.state = .running ∧ q.words = p.words ∧ q.next = p.next ∧
        q.scratch.length = p.scratchKib * 1024 ∧ q.place = placeSections s p) ∧
      t.pg.queue = s.pg.queue.filter (fun q => q.lsn != p.lsn) ∧ t.pg.plies = s.pg.plies ∧ t.dir = s.dir ∧ t.mem.tiles = s.mem.tiles ∧
      t.nb = s.nb ∧ t.fab = s.fab ∧ t.boot = s.boot ∧ t.supply = s.supply) ∧
  (∀ s lsn c p d, ctxOf s lsn = some c → getCtx s c = some p → p.deadline = some d → p.state = .running → p.allDone = false →
    Answers (.deadlinePasses lsn) s fun t =>
      getCtx t c = none ∧ t.pg.queue = s.pg.queue ∧ t.time = (reach s d).time ∧ t.fab = s.fab ∧ t.boot = s.boot ∧ t.supply = s.supply) ∧
  (∀ s lsn p d, ctxOf s lsn = none → s.pg.queue.find? (fun q => q.lsn == lsn) = some p → p.deadline = some d →
    Answers (.deadlinePasses lsn) s fun t =>
      t.pg.queue = s.pg.queue.filter (fun q => q.lsn != p.lsn) ∧ t.pg.ctxs = s.pg.ctxs ∧ t.time = (reach s d).time ∧ t.dir = s.dir ∧ t.nb = s.nb ∧
      t.fab = s.fab ∧ t.boot = s.boot)

/-- The commit of a program (R245): it prepares once every instruction is done, and its commit record is written (what that holds is the model's
choice, log 83); at its commit point, unless ownership stalls it (R379), the rows it holds in a half without a quiet window become PENDING; when it
has been applied the program has left its context. That the rows stay PENDING until COMMIT_APPLY_END, and that a commit which meets a quiet window
waits for its end, are the model's readings (log 15). -/
def Obligations.CommitGoesThroughItsSteps : Prop :=
  (∀ s c p, getCtx s c = some p → p.state = .running → p.allDone = true → serving s = true →
    exec (.commitStart c) s = .next (commitRecord (putCtx s c { p with state := .preparing }) p)) ∧
  (∀ s c p, getCtx s c = some p → p.state = .preparing → serving s = true → stalledFor s p = true →
    exec (.commitPoint c) s = .next (putCtx s c { p with deferred := true })) ∧
  (∀ s c p, getCtx s c = some p → p.state = .preparing → serving s = true → stalledFor s p = false →
    Answers (.commitPoint c) s fun t =>
      getCtx t c = some { p with state := .committing, deferred := false } ∧
      (∀ h, h < 2 → quietFor s h c = false → ∀ n r, (n, r) ∈ (getHalf t h).rows → r.heldBy c = true → r.state = .pending) ∧
      (∀ h, (getHalf t h).rows.map Prod.fst = (getHalf s h).rows.map Prod.fst) ∧ (∀ d, d ≠ c → getCtx t d = getCtx s d) ∧
      Outward { s with pg := t.pg, dir := t.dir } t) ∧
  (∀ s c p, getCtx s c = some p → p.state = .committing → quietFor s 0 c = false → quietFor s 1 c = false →
    Answers (.commitApplyEnd c) s fun t =>
      getCtx t c = none ∧ t.pg.queue = s.pg.queue ∧ t.time = s.time ∧ t.boot = s.boot ∧ t.supply = s.supply) ∧
  (∀ s c p, getCtx s c = some p → p.state = .committing → quietFor s 0 c = true ∨ quietFor s 1 c = true → s.pg.plies = [] → s.fab.copyAsks = [] →
    exec (.commitApplyEnd c) s = .next s)

/-- A failure that CONT does not let pass ends the program: it leaves its context, the rows and requests it had staged in the directory are gone, the
marks it had set on VALID rows with them, and the rows of others stay (R248); one that CONT lets pass is noted in its step and counted, and the
program goes on (R239). -/
def Obligations.FailureEndsTheProgramUnlessContinued : Prop :=
  (∀ s c k p r, getCtx s c = some p → (p.step k).phase = .running → isFailure r.1 = true →
    contOf (p.word k) = false ∨ r.1 = stTenantGone ∨ 0x0600 ≤ r.1 →
    getCtx (finishStep s c k r) c = none ∧ (∀ d, d ≠ c → getCtx (finishStep s c k r) d = getCtx s d) ∧
    (finishStep s c k r).pg.queue = s.pg.queue ∧
    ∀ h, h < 2 →
      (∀ x ∈ (getHalf (finishStep s c k r) h).rows, x.2.ctx = c →
        x.2.state ≠ .staged ∧ (x.2.state = .valid → x.2.remove = false ∧ x.2.shadow = false)) ∧
      (∀ x ∈ (getHalf s h).rows, x.2.ctx ≠ c → x ∈ (getHalf (finishStep s c k r) h).rows) ∧
      ∀ q ∈ (getHalf (finishStep s c k r) h).queue ++ (getHalf (finishStep s c k r) h).waiting, q.ctx ≠ c) ∧
  (∀ s c k p r, getCtx s c = some p → k < p.steps.length → (p.step k).phase = .running → isFailure r.1 = true → contOf (p.word k) = true →
    r.1 ≠ stTenantGone → r.1 < 0x0600 → deadlinePassed s p = false →
    StepDone (finishStep s c k r) c k r.1 r.2 ∧
    StepFrame { s with nb := { s.nb with jobs := (finishStep s c k r).nb.jobs } } (finishStep s c k r) c ∧
    (writesByUnits (p.word k) = false → (finishStep s c k r).nb.jobs = s.nb.jobs) ∧
    ∃ q, getCtx (finishStep s c k r) c = some q ∧ q.fails = p.fails + 1)

/-- FENCE and WAIT (R287, R288): they are done at once where what they wait for is done, and run on until then; a WAIT for a step that is not an
earlier one completes with STEP_INVALID. -/
def Obligations.FenceAndWaitComplete : Prop :=
  (∀ s c p, MayIssue s c p (isOp .fence) →
    Answers (.fence c) s fun t =>
      StepFrame s t c ∧
      ((∀ e, e < p.next → p.isDone e = true) → StepDone t c p.next stOk 0) ∧
      ((∃ e, e < p.next ∧ p.isDone e = false) → StepRuns t c p.next)) ∧
  (∀ s c p, MayIssue s c p (isOp .wait) → waitInvalid p (p.word p.next) p.next = false →
    Answers (.wait c) s fun t =>
      StepFrame s t c ∧
      (p.isDone (fld (p.word p.next) 43 32) = true → StepDone t c p.next stOk 0) ∧
      (p.isDone (fld (p.word p.next) 43 32) = false → StepRuns t c p.next)) ∧
  (∀ s c p, MayIssue s c p (isOp .wait) → waitInvalid p (p.word p.next) p.next = true → contOf (p.word p.next) = true →
    Answers (.wait c) s fun t => StepDone t c p.next stRefused scStepInvalid ∧ StepFrame s t c)

/-- EMIT and LEDGER.RD (R250, R289 to R291): the emitted record enters the digest; the ledger's record goes to the buffer, with detail 1 where there
is none: a record of 64 bytes at the start of a SCRATCH buffer, or as an emitted record in a frame of its own. Nothing but the program, its record
and what goes out changes. -/
def Obligations.EmitAndLedgerReadComplete : Prop :=
  (∀ s c p, MayIssue s c p (isOp .emit) →
    ¬ (fbit (p.word p.next) 1 = true ∧ 65536 < (p.buf (fld (p.word p.next) 34 32)).length) →
    Answers (.emit c) s fun t =>
      StepDone t c p.next stOk 0 ∧ StepFrame s t c ∧
      ∃ q, getCtx t c = some q ∧
        q.digest = (p.digest + recordHash true (emitRecord (issuedProg s p) (p.word p.next) p.next) % 2 ^ 64) % 2 ^ 64) ∧
  (∀ s c p, MayIssue s c p (isOp .ledgerRd) → (p.owner = true ∨ fld (p.word p.next) 107 96 = p.tenant) →
    outShort p (fld (p.word p.next) 110 108) 64 = false →
    Answers (.ledgerRd c) s fun t =>
      StepDone t c p.next stOk
        (b2n (ledgerFind (afterIssue s c p) (fld (p.word p.next) 107 96) (fld (p.word p.next) 95 32)).isNone) ∧ StepFrame s t c ∧
      (let rec' := ((ledgerFind (afterIssue s c p) (fld (p.word p.next) 107 96) (fld (p.word p.next) 95 32)).map ledgerBytes).getD (zeros 64)
       ((p.buf (fld (p.word p.next) 110 108)).kind ≠ 3 → ∃ q, getCtx t c = some q ∧ q.digest = p.digest ∧
         q.scratch = ((issuedProg s p).writeBuf (fld (p.word p.next) 110 108) rec').scratch) ∧
       ((p.buf (fld (p.word p.next) 110 108)).kind = 3 → ∃ q, getCtx t c = some q ∧ q.scratch = p.scratch ∧
         q.digest = (p.digest + recordHash true rec' % 2 ^ 64) % 2 ^ 64)))

/-- TILE.APPEND and TILE.SEAL (R42, R244, R292 to R295): a passed append leaves its stream and layer held by the program, with its step running until
its sequences and staging are served; a passed seal is prepared in the program and is done. Where no stored bit differs, an append changes nothing of
a tile that is committed but its unwritten slots, and what the eviction that makes room changes, and nothing of health, cores, seats, traffic,
network, events and fabric, nor a counter but those of evictions, spills and saturation. -/
def Obligations.TileInstructionsComplete : Prop :=
  (∀ s c p, MayIssue s c p (isOp .tileAppend) → pendingStream s p.tenant (appendOps p (p.word p.next)).stream = false → p.appendOpen = false →
    Passes s c p (fun s p w => appendChecks s c p w (appendOps p w)) →
    (let a := appendData (issuedProg s p) (p.word p.next) (appendOps (issuedProg s p) (p.word p.next))
     (doAppend (afterIssue s c p) c p.next (appendOps (issuedProg s p) (p.word p.next)) a.1 a.2.1 a.2.2).1 = none) →
    Answers (.tileAppend c) s fun t =>
      (StepRuns t c p.next ∨ StepDone t c p.next stOk 0) ∧
      (∃ q, getCtx t c = some q ∧ ((appendOps p (p.word p.next)).stream, (appendOps p (p.word p.next)).layer) ∈ q.holds ∧
        (appendOps p (p.word p.next)).stream ∈ q.newStreams) ∧
      Inward s t ∧
      (s.mem.err = [] →
        (∀ o x, getTile s o = some x → ∃ y, getTile t o = some y ∧
          y = { x with slots := y.slots, written := y.written, tier := y.tier, body := y.body, unread := y.unread } ∧
          (y.tier = x.tier ∧ y.body = x.body ∧ y.unread = x.unread ∨ y.tier = .remote ∧ y.body = [] ∧ y.unread = [])) ∧
        t.health = s.health ∧ t.cores = s.cores ∧ t.seats = s.seats ∧ t.tr = s.tr ∧ t.net = s.net ∧ t.ev = s.ev ∧ t.fab = s.fab ∧
        ∀ j, j ≠ .nbSat → j ≠ .tier 0 → j ≠ .tier 10 → getCtr t j = getCtr s j)) ∧
  (∀ s c p, MayIssue s c p (isOp .tileSeal) →
    Passes s c p (fun s p w => sealChecks s c p (p.stream (fld w 33 32)) (if fbit w 0 then none else some (fld w 47 40)) (fld w 71 48) (fld w 95 72)) →
    Answers (.tileSeal c) s fun t =>
      StepDone t c p.next stOk 0 ∧ StepFrame s t c ∧
      ∃ q, getCtx t c = some q ∧ p.stream (fld (p.word p.next) 33 32) ∈ q.newStreams ∧
        ∀ x ∈ sealTargets (afterIssue s c p) (issuedProg s p)
            ((views (afterIssue s c p) p.tenant (p.stream (fld (p.word p.next) 33 32)) c).filter (fun v => !v.desc.borrowed))
            (if fbit (p.word p.next) 0 then none else some (fld (p.word p.next) 47 40)) (fld (p.word p.next) 71 48) (fld (p.word p.next) 95 72),
          x.2.isSealed = false → Change.seal x.1 ∈ q.changes)

/-- RUN.SPLICE and RUN.DROP (R147, R296, R297): a passed splice asks its half of the directory for the borrowed run and runs on; a passed drop is
done, with the stream among those the program has written. -/
def Obligations.RunInstructionsComplete : Prop :=
  (∀ s c p, MayIssue s c p (isOp .runSplice) → pendingStream s p.tenant (spliceOps p (p.word p.next)).dst = false →
    Passes s c p (fun s p w => spliceChecks s c p (spliceOps p w)) →
    Answers (.runSplice c) s fun t =>
      StepRuns t c p.next ∧ (∃ q, getCtx t c = some q ∧ (spliceOps p (p.word p.next)).dst ∈ q.newStreams ∧ ∃ d, Change.splice d ∈ q.changes) ∧
      (∃ x, x ∈ (getHalf t ((halfFor (afterIssue s c p) p.tenant (spliceOps p (p.word p.next)).dst).getD 0)).waiting ∧
        x.ctx = c ∧ x.step = p.next ∧ x.stream = (spliceOps p (p.word p.next)).dst ∧ x.low = (spliceOps p (p.word p.next)).lo.toNat ∧
        x.high = (spliceOps p (p.word p.next)).hi.toNat) ∧
      t.mem.tiles = s.mem.tiles ∧ Inward s t) ∧
  (∀ s c p, MayIssue s c p (isOp .runDrop) → pendingStream s p.tenant (p.stream (fld (p.word p.next) 33 32)) = false →
    (∀ j, isFailure (bankStatus (p.step j)) = false) →
    Passes s c p (fun s p w => dropChecks s c p (p.stream (fld w 33 32)) (fld w 71 48) (fld w 95 72)) →
    Answers (.runDrop c) s fun t =>
      StepDone t c p.next stOk 0 ∧ (∃ q, getCtx t c = some q ∧ p.stream (fld (p.word p.next) 33 32) ∈ q.newStreams) ∧
      t.mem.tiles = s.mem.tiles ∧ Inward s t)

/-- MOVE and PREFETCH (R299 to R303): a passed WLOAD prepares its piece, a passed WFETCH asks for its object and runs on, a passed WDROP prepares the
removal and is done, a passed PREFETCH is done with a fetch under way for every matrix that it names and that only T2 holds, and for every REMOTE tile
that there is room for, which will be protected when it comes; its detail is how many fetches it began. -/
def Obligations.MoveAndPrefetchComplete : Prop :=
  (∀ s c p, MayIssue s c p (fun w => isOp .move w && decide (funcOf w = 0)) →
    Passes s c p (fun s p w =>
      let d := loadDescOf (p.bytes (fld w 34 32))
      wloadChecks s p d (p.bytes (fld w 34 32)) ++ (if d.row0 = 0 then setRoomChecks s (d.key p) (loadGranules d) else [])) →
    Answers (.moveWload c) s fun t =>
      (StepRuns t c p.next ∨ StepDone t c p.next stOk 0) ∧
      (∃ q l, getCtx t c = some q ∧
        Change.load ((loadDescOf (p.bytes (fld (p.word p.next) 34 32))).key p) (loadDescOf (p.bytes (fld (p.word p.next) 34 32))).matrix l ∈ q.changes) ∧
      Inward s t) ∧
  (∀ s c p, MayIssue s c p (fun w => isOp .move w && decide (funcOf w = 1)) →
    Tab.find s.mem.fetches (loadDescOf (p.bytes (fld (p.word p.next) 34 32))).object = none →
    Passes s c p (fun s p w => wfetchChecks s p (loadDescOf (p.bytes (fld w 34 32))) (p.bytes (fld w 34 32))) →
    Answers (.moveWfetch c) s fun t =>
      StepRuns t c p.next ∧
      (∃ q x, getCtx t c = some q ∧ Change.fetch ((loadDescOf (p.bytes (fld (p.word p.next) 34 32))).key p)
        (loadDescOf (p.bytes (fld (p.word p.next) 34 32))).matrix 0 x ∈ q.changes) ∧
      (∃ f, Tab.find t.mem.fetches (loadDescOf (p.bytes (fld (p.word p.next) 34 32))).object = some f ∧ f.prio = .demand ∧ f.pieces = 1 ∧
        f.replicas = (loadDescOf (p.bytes (fld (p.word p.next) 34 32))).nodes ∧ f.waiter = some (p.lsn, p.next)) ∧
      t.mem.tiles = s.mem.tiles ∧ t.mem.weights = s.mem.weights ∧ Inward s t) ∧
  (∀ s c p, MayIssue s c p (fun w => isOp .move w && decide (funcOf w = 2)) →
    Passes s c p (fun s p w => wdropChecks s (p.tenant, fld w 63 48, fld w 47 40) (fld w 66 64)) →
    Answers (.moveWdrop c) s fun t =>
      StepDone t c p.next stOk 0 ∧ StepFrame s t c ∧
      ∃ q, getCtx t c = some q ∧
        Change.wdrop (p.tenant, fld (p.word p.next) 63 48, fld (p.word p.next) 47 40) (fld (p.word p.next) 66 64) ∈ q.changes) ∧
  (∀ s c p, MayIssue s c p (isOp .prefetch) → Passes s c p (fun _ _ _ => []) →
    Answers (.prefetch c) s fun t =>
      StepDone t c p.next stOk (Nat.min 65535 (t.mem.fetches.length - s.mem.fetches.length)) ∧ Inward s t ∧
      (fbit (p.word p.next) 0 = true →
        let key : SetKey := (p.tenant, fld (p.word p.next) 63 48, fld (p.word p.next) 47 40)
        ∀ w i m obj nodes, Tab.find s.mem.weights key = some w → w.state ≠ .unavailable → i ∈ absentMats s key → (fld (p.word p.next) 66 64).testBit i = true →
          Tab.find w.mats i = some m → m.backing = some (obj, nodes) →
          ∃ f, Tab.find t.mem.fetches obj = some f ∧ f.protect = true) ∧
      (fbit (p.word p.next) 0 = false →
        ∀ o, o ∈ remoteIn s p.tenant (p.stream (fld (p.word p.next) 33 32)) (fld (p.word p.next) 47 40) (fld (p.word p.next) 71 48) (fld (p.word p.next) 95 72) →
          ∃ y, getTile t o = some y ∧ (y.tier = .remote ∨ y.tier = .fetching ∧ ∃ f, Tab.find t.mem.fetches y.objKey = some f ∧ f.protect = true)))

/-! ### Keys and tenants (12, 16) -/

/-- KEY.ADMIT, KEY.ROTATE, KEY.STATUS and the trust block's answer (R304, R305, R307): a passed admission or rotation stages a key for its epoch and runs
on; the answer ends the step with the key of the package, or refuses it where the package does not open; a status record goes to the buffer. No other
slot changes. -/
def Obligations.KeyInstructionsComplete : Prop :=
  (∀ s c p, MayIssue s c p (isOp .keyAdmit) →
    Passes s c p (fun s p w => [(!slotIs s (keySlot w) .empty || (getTenant s (keySlot w)).staging.isSome, refusedWith scSlotBusy),
      (pkgShort p w, refusedWith scShapeInvalid)]) →
    Answers (.keyAdmit c) s fun t =>
      StepRuns t c p.next ∧
      getTenant t (keySlot (p.word p.next)) =
        { getTenant s (keySlot (p.word p.next)) with staging := some ⟨p.lsn, p.next, true, 1, none⟩ } ∧
      (∀ n, n ≠ keySlot (p.word p.next) → getTenant t n = getTenant s n) ∧
      Outward { s with pg := t.pg, trust := t.trust, mem := { s.mem with err := t.mem.err, seenPoison := t.mem.seenPoison, mirrorLost := t.mem.mirrorLost } } t) ∧
  (∀ s c p, MayIssue s c p (isOp .keyRotate) →
    Passes s c p (fun s p w => [(slotIs s (keySlot w) .tombstone, (stTenantGone, 0)), (slotIs s (keySlot w) .empty, refusedWith scTenantAbsent),
      (pkgShort p w, refusedWith scShapeInvalid),
      ((getTenant s (keySlot w)).old.isSome || (getTenant s (keySlot w)).staging.isSome, (stRotationBusy, 0))]) →
    Answers (.keyRotate c) s fun t =>
      StepRuns t c p.next ∧
      getTenant t (keySlot (p.word p.next)) = { getTenant s (keySlot (p.word p.next)) with
        staging := some ⟨p.lsn, p.next, false, nextEpoch (epochOf (getTenant s (keySlot (p.word p.next))).current), none⟩ } ∧
      (∀ n, n ≠ keySlot (p.word p.next) → getTenant t n = getTenant s n) ∧
      Outward { s with pg := t.pg, trust := t.trust, mem := { s.mem with err := t.mem.err, seenPoison := t.mem.seenPoison, mirrorLost := t.mem.mirrorLost } } t) ∧
  (∀ s c k p g, getCtx s c = some p → k < p.steps.length → (p.step k).phase = .running → deadlinePassed s p = false →
    (getTenant s (keySlot (p.word k))).staging = some g → g.lsn = p.lsn → g.step = k → g.key = none →
    Answers (.keyStageAck c k) s fun t =>
      (∀ key, packageKey s (keySlot (p.word k)) (if g.admission then 1 else 2) g.epoch (p.bytes (keyBuf (p.word k))) = some key →
        StepDone t c k stOk 0 ∧
        getTenant t (keySlot (p.word k)) = { getTenant s (keySlot (p.word k)) with staging := some { g with key := some key } }) ∧
      (packageKey s (keySlot (p.word k)) (if g.admission then 1 else 2) g.epoch (p.bytes (keyBuf (p.word k))) = none →
        (getTenant t (keySlot (p.word k))).staging = none ∧
        (contOf (p.word k) = true → StepDone t c k stRefused scKeyInvalid) ∧ (contOf (p.word k) = false → getCtx t c = none)) ∧
      t.mem.tiles = s.mem.tiles ∧ Inward s t) ∧
  (∀ s c p, MayIssue s c p (isOp .keyStatus) → p.owner = true ∨ keySlot (p.word p.next) = p.tenant →
    outShort p (keyBuf (p.word p.next)) 32 = false →
    Answers (.keyStatus c) s fun t =>
      StepDone t c p.next stOk 0 ∧ StepFrame s t c ∧
      ((p.buf (keyBuf (p.word p.next))).kind ≠ 3 → ∃ q, getCtx t c = some q ∧
        q.scratch = ((issuedProg s p).writeBuf (keyBuf (p.word p.next)) (slotRecord (afterIssue s c p) (keySlot (p.word p.next)))).scratch))

/-- KEY.REMOVE, the reclaim, the re-encryption pass and the end of an old epoch (R306, R411, R412, R414): a removal makes the slot a tombstone without
keys at once and ends the programs of the tenant that are not past their commit point, while its objects stay, their copies that no node has
acknowledged given up; the reclaim frees them and empties the slot; an object moved by the pass stands under the current epoch with its contents; the
old key goes when nothing is left under it, and no object of tier 2 under it backs a matrix in T1 from then on. -/
def Obligations.TenantsAreRemovedAndReencrypted : Prop :=
  (∀ s c p, MayIssue s c p (isOp .keyRemove) →
    Passes s c p (fun s _ w => [(slotIs s (keySlot w) .tombstone, (stTenantGone, 0)), (slotIs s (keySlot w) .empty, refusedWith scTenantAbsent)]) →
    Answers (.keyRemove c) s fun t =>
      (getTenant t (keySlot (p.word p.next))).state = .tombstone ∧ (getTenant t (keySlot (p.word p.next))).current = none ∧
      (getTenant t (keySlot (p.word p.next))).old = none ∧ (getTenant t (keySlot (p.word p.next))).staging = none ∧
      (∀ d q, getCtx t d = some q → q.tenant = keySlot (p.word p.next) → q.state = .committing) ∧
      (∀ o x, getTile s o = some x → getTile t o = some (if x.tenant = keySlot (p.word p.next) then x.abandonPuts else x)) ∧
      (∀ o, getTile s o = none → getTile t o = none) ∧ Inward s t) ∧
  (∀ s n, (getTenant s n).state = .tombstone → inflightOf s n = 0 → serving s = true →
    Answers (.tenantReclaim n) s fun t =>
      getTenant t n = { Tenant.reset with dropped := (getTenant s n).dropped } ∧
      (∀ m, m ≠ n → getTenant t m = getTenant s m) ∧
      t.mem.tiles = s.mem.tiles.filter (fun x => x.2.tenant != n) ∧ t.mem.grads = s.mem.grads.filter (fun g => g.1.1 != n) ∧
      t.mem.lse = s.mem.lse.filter (fun l => l.1.1 != n) ∧ t.mem.weights = s.mem.weights.filter (fun w => w.1.1 != n) ∧
      t.ev.nextSeq = (s.ev.nextSeq + 1) % 2 ^ 32 ∧ t.pg = s.pg ∧ t.dir = s.dir ∧ t.nb = s.nb ∧ t.fab.active = s.fab.active ∧ Inward s t) ∧
  (∀ s n die fs k o l x, (getTenant s n).old = some k → serving s = true → nonceSpent s n 1 = false →
    reencList s n k.epoch die = .tile o :: l → (readTile (applyFlips s fs) o).1 = false →
    getTile (readTile (applyFlips s fs) o).2 o = some x → poolFits (readTile (applyFlips s fs) o).2 x.die x.body.length true = true →
    Answers (.reencObject n die fs) s fun t =>
      (∃ y, getTile t o = some y ∧ y = { x with epoch := epochOf (getTenant s x.tenant).current, counter := y.counter, body := y.body, hdr := y.hdr,
                                                tier := .resident, replicas := [], unread := [] } ∧ y.body.length = x.body.length) ∧
      Outward { s with mem := t.mem, trust := t.trust, health := t.health } t) ∧
  (∀ s n die fs k, (getTenant s n).old = some k → reencList s n k.epoch die = [] → exec (.reencObject n die fs) s = .next s) ∧
  (∀ s n k, (getTenant s n).old = some k → oldTiles s n k.epoch = 0 → oldInflight s n k.epoch = 0 → serving s = true →
    Answers (.keyRetire n) s fun t =>
      getTenant t n = { getTenant s n with old := none } ∧ (∀ m, m ≠ n → getTenant t m = getTenant s m) ∧
      Raised s t evKeyRetired (commonPayload { tenant := n, epoch := k.epoch }) ∧
      (∀ key w, getSet s key = some w → ∃ v, getSet t key = some v ∧ v.state = w.state ∧ v.mats.keys = w.mats.keys ∧
        ∀ i m, Tab.find w.mats i = some m → Tab.find v.mats i = some
          (if key.1 = n ∧ m.present = true ∧ m.backEpoch = k.epoch then { m with backing := none } else m)) ∧
      Outward { s with trust := t.trust, mem := { s.mem with weights := t.mem.weights } } t) ∧
  (∀ s n k, (getTenant s n).old = some k → oldTiles s n k.epoch ≠ 0 → exec (.keyRetire n) s = .next s)

/-! ### Registers and diagnostics (00, 09, 12, 18) -/

/-- REG.RD and REG.WR (R309, R310): a register that is mapped answers a program that serves; the value read stands in its scalar register; a write of
an owner's program completes with the access; a tenant's program may not write; nothing of the data changes. -/
def Obligations.RegisterInstructionsComplete : Prop :=
  (∀ s c addr wide, regMapped addr wide = true → serving s = true → (getCtx s c).isSome = true → ∃ v, (readReg s (.ctx c) addr wide).1 = .ok v) ∧
  (∀ s c p v u, MayIssue s c p (isOp .regRd) → p.scalars.length = 16 → (p.owner = true ∨ regAddr p (p.word p.next) < 0x10000) →
    readReg (afterIssue s c p) (.ctx c) (regAddr p (p.word p.next)) (w64Of (p.word p.next)) = (.ok v, u) →
    Answers (.regRd c) s fun t =>
      StepDone t c p.next stOk 0 ∧ (∃ q, getCtx t c = some q ∧ q.scalar (fld (p.word p.next) 75 72) = BitVec.ofNat 64 v) ∧
      (∀ d, d ≠ c → getCtx t d = getCtx s d) ∧ t.pg.queue = s.pg.queue ∧ t.time = s.time ∧ t.boot = s.boot ∧ t.rst = s.rst ∧
      t.health = s.health ∧ t.cores = s.cores ∧ t.nb = s.nb ∧ t.trust = s.trust ∧ t.mem.tiles = s.mem.tiles ∧ t.pending = s.pending) ∧
  (∀ s c p, MayIssue s c p (isOp .regWr) → p.owner = true → regMapped (regAddr p (p.word p.next)) (w64Of (p.word p.next)) = true →
    regAddr p (p.word p.next) ≠ 0x10000 → regAddr p (p.word p.next) ≠ 0xB0030 →
    (writeReg (afterIssue s c p) (.ctx c) (regAddr p (p.word p.next)) (w64Of (p.word p.next)) (regData p (p.word p.next))).1 = .ok 0 →
    Answers (.regWr c) s fun t =>
      StepDone t c p.next stOk 0 ∧ (∀ d, d ≠ c → getCtx t d = getCtx s d) ∧ t.pg.queue = s.pg.queue ∧ t.time = s.time ∧
      t.mem.tiles = s.mem.tiles ∧ t.mem.weights = s.mem.weights ∧ t.pending = s.pending ∧
      (regAddr p (p.word p.next) = 0x10024 → t.rst = { s.rst with alertMask := BitVec.ofNat 10 (regData p (p.word p.next) % 2 ^ 32) })) ∧
  (∀ s c p, MayIssue s c p (isOp .regWr) → p.owner = false → contOf (p.word p.next) = true →
    regMapped (regAddr p (p.word p.next)) (w64Of (p.word p.next)) = true →
    Answers (.regWr c) s fun t => StepDone t c p.next stRefused scNotPrivileged ∧ StepFrame s t c)

/-- CANARY and SCRUB (R184, R214, R218 to R222, R311 to R313): a passed CANARY whose cores run no ply is done with a record of each core in its buffer,
and where every run computes the golden digest nothing else changes; one that meets a ply waits, and has its runs after it; a passed SCRUB runs on as a
pass in its slot, or waits in a queue of four, and a full queue refuses it; the pass puts a sequence on every unit of its scope when it starts; each unit
reads its share and counts it, which finds errors in the working area too; its summary stands in SCRUB_LAST when the units are done. That BUFFER_SHORT
stands before CORE_UNAVAILABLE is the model's choice (log 75). -/
def Obligations.CanaryAndScrubComplete : Prop :=
  (∀ s c p runs, MayIssue s c p (isOp .canary) → waitingCanary s c = none → canaryWaits (afterIssue s c p) (p.word p.next) = false →
    Passes s c p (fun s p w => [(outShort p (fld w 34 32) (64 * (if fbit w 0 then 72 else 1)), refusedWith scBufferShort),
      ((!fbit w 0 && (canaryCores s w).any (fun x => decide (9 ≤ x.2) || isRetired s x.1 x.2)) || !suiteHeld (fld w 55 48),
        refusedWith scCoreUnavailable)]) →
    Answers (.canary c runs) s fun t =>
      StepDone t c p.next stOk 0 ∧ (∀ d, d ≠ c → getCtx t d = getCtx s d) ∧ t.pg.queue = s.pg.queue ∧ t.dir = s.dir ∧
      t.mem.tiles = s.mem.tiles ∧ t.time = s.time ∧
      ((p.buf (fld (p.word p.next) 34 32)).kind ≠ 3 → ∃ (q : Prog) (recs : List (List Byte)), getCtx t c = some q ∧
        recs.length = (canaryCores (afterIssue s c p) (p.word p.next)).length ∧
        q.scratch = (p.writeBuf (fld (p.word p.next) 34 32) recs.flatten).scratch ∧
        ∀ (i : Nat) (x : CoreId), (canaryCores (afterIssue s c p) (p.word p.next))[i]? = some x → ∃ b : List Byte, recs[i]? = some b ∧ b.length = 64 ∧
          leAt b 0 1 % 128 = x.1 + 8 * x.2 ∧ leAt b 1 1 = fld (p.word p.next) 55 48 ∧
          leAt b 16 8 = (Config.goldenDigest (fld (p.word p.next) 55 48)).toNat ∧
          ∀ r, runs.find? (fun r => r.cluster == x.1 && r.pcore == x.2) = some r → leAt b 8 8 = r.digest.toNat ∧
            leAt b 2 1 % 2 = (if r.digest = Config.goldenDigest (fld (p.word p.next) 55 48) then 1 else 0)) ∧
      ((∀ x ∈ canaryCores (afterIssue s c p) (p.word p.next), ∃ r, runs.find? (fun r => r.cluster == x.1 && r.pcore == x.2) = some r ∧
          r.digest = Config.goldenDigest (fld (p.word p.next) 55 48)) →
        holdsPeer s = false ∨ (p.buf (fld (p.word p.next) 34 32)).kind ≠ 3 → StepFrame s t c)) ∧
  (∀ s c p runs, MayIssue s c p (isOp .canary) → waitingCanary s c = none → canaryWaits (afterIssue s c p) (p.word p.next) = true →
    Passes s c p (fun s p w => [(outShort p (fld w 34 32) (64 * (if fbit w 0 then 72 else 1)), refusedWith scBufferShort),
      ((!fbit w 0 && (canaryCores s w).any (fun x => decide (9 ≤ x.2) || isRetired s x.1 x.2)) || !suiteHeld (fld w 55 48),
        refusedWith scCoreUnavailable)]) →
    Answers (.canary c runs) s fun t => StepRuns t c p.next ∧ StepFrame s t c) ∧
  (∀ s c k w runs p, waitingCanary s c = some (k, w) → serving s = true → canaryWaits s w = false → getCtx s c = some p → k < p.steps.length →
    deadlinePassed s p = false →
    Answers (.canary c runs) s fun t => StepDone t c k stOk 0 ∧ t.dir = s.dir ∧ t.mem.tiles = s.mem.tiles) ∧
  (∀ s c p, MayIssue s c p (isOp .scrub) →
    Passes s c p (fun s p w => scrubChecks s p (scrubDescOf (p.bytes (fld w 34 32))) (p.bytes (fld w 34 32)).length (fld w 37 35)) →
    Answers (.scrub c) s fun t =>
      StepRuns t c p.next ∧
      (∃ x, x.lsn = p.lsn ∧ x.step = p.next ∧ x.scope = (scrubDescOf (p.bytes (fld (p.word p.next) 34 32))).scope ∧ x.started = none ∧
        ((t.mem.scrubRun = s.mem.scrubRun ++ [x] ∧ t.mem.scrubQueue = s.mem.scrubQueue) ∨
         (t.mem.scrubRun = s.mem.scrubRun ∧ t.mem.scrubQueue = s.mem.scrubQueue ++ [x]))) ∧
      (s.mem.scrubRun = [] → s.mem.scrubQueue = [] → t.mem.scrubRun.length = 1) ∧ t.mem.scrubQueue.length ≤ 4 ∧
      Outward { s with pg := t.pg, mem := { s.mem with scrubRun := t.mem.scrubRun, scrubQueue := t.mem.scrubQueue, err := t.mem.err,
                                                       seenPoison := t.mem.seenPoison, mirrorLost := t.mem.mirrorLost } } t) ∧
  (∀ s c p d n, MayIssue s c p (isOp .scrub) → contOf (p.word p.next) = true → firstOf (generalChecks (afterIssue s c p) (issuedProg s p) (p.word p.next)) = none →
    n = (p.bytes (fld (p.word p.next) 34 32)).length → d = scrubDescOf (p.bytes (fld (p.word p.next) 34 32)) → 32 ≤ n → d.tenant = p.tenant → d.scope ≠ 0 →
    (p.owner = true → admitted s p.tenant = true) →
    outShort (issuedProg s p) (fld (p.word p.next) 37 35) 64 = false →
    ¬ (d.scope = 1 ∧ (streamRuns (afterIssue s c p) d.tenant d.stream d.low d.high = [] ∨ d.high < d.low)) → 4 ≤ s.mem.scrubQueue.length →
    Answers (.scrub c) s fun t => StepDone t c p.next stRefused scScrubBusy ∧ StepFrame s t c) ∧
  (∀ s die fs x, passOn s die = some x → x.started = none → x.stopped = none → running s = true →
    Answers (.scrubPassStart die fs) s fun t =>
      (∃ y, y ∈ t.mem.scrubRun ∧ y.started = some s.time ∧ y.lsn = x.lsn ∧ y.step = x.step ∧ y.dies = x.dies ∧
        y.read = (if x.scope = 0 then 8 * x.count else (scrubBlocks s x).length)) ∧
      (∀ u ∈ passUnits x (if x.scope = 0 then [] else scrubBlocks s x), ∃ q ∈ (getUnit t u).seqs,
        q.lsn = x.lsn ∧ q.step = x.step ∧ q.pass = true ∧ (q.state = .queued ∨ q.state = .waiting)) ∧
      Outward { s with mem := t.mem, nb := t.nb } t) ∧
  (∀ s k u n fs q x, activeSeq (getUnit s (k, u)) = some q → q.state = .running → q.pass = true → q.lock = false → q.cancel = none → q.due = false →
    q.doms ≠ [] → n ≠ 0 → s.mem.scrubRun.find? (fun x => decide (x.lsn = q.lsn ∧ x.step = q.step)) = some x →
    (passRead (applyFlips s fs) q.lsn q.step (k, u)).1.workHit = false →
    Answers (.nbRowStepEnd k u n fs) s fun t =>
      t.mem.scrubRun = s.mem.scrubRun.map (fun z => if z.lsn = q.lsn ∧ z.step = q.step then
        (let r := (passRead (applyFlips s fs) q.lsn q.step (k, u)).1
         { x with corrected := x.corrected + r.corrected, uncorr := x.uncorr + r.uncorr, poisoned := x.poisoned + r.poisoned,
                  objects := x.objects + r.newObjs, firstBad := x.firstBad.or r.first }) else z) ∧
      (∃ y, activeSeq (getUnit t (k, u)) = some y ∧ y.doms = [] ∧ y.lsn = q.lsn ∧ y.step = q.step ∧ y.state = .running) ∧ t.dir = s.dir ∧ Inward s t) ∧
  (∀ s k u n fs q, activeSeq (getUnit s (k, u)) = some q → q.state = .running → q.pass = true → q.lock = false → q.cancel = none → q.due = false →
    q.doms ≠ [] → n ≠ 0 → s.rst.ctlRunning = false → (passRead (applyFlips s fs) q.lsn q.step (k, u)).1.workHit = true →
    Answers (.nbRowStepEnd k u n fs) s fun t => t.rst.lastCtl = 0x23 ∧ t.rst.ctlRunning = true ∧ t.pg = Programs.reset ∧ t.dir = []) ∧
  (∀ s die x, passOn s die = some x → x.started.isSome = true → x.stopped = none → running s = true → passOpen s x = false →
    (∀ c p, ctxOf s x.lsn = some c → getCtx s c = some p → deadlinePassed s p = false) →
    Answers (.scrubPassEnd die) s fun t =>
      Tab.get t.mem.scrubLast [] x.die = scrubSummary x s.time ∧ x ∉ t.mem.scrubRun ∧ t.mem.tiles = s.mem.tiles ∧ t.dir = s.dir ∧
      (∀ c p, ctxOf s x.lsn = some c → getCtx s c = some p → (p.step x.step).phase = .running → x.step < p.steps.length →
        StepDone t c x.step stOk 0) ∧ Inward s t)

/-- How registers answer (R4, R452 to R458): an address that names none, or another width, counts in BAD_ADDR; a read of a counter clears it; a write
takes effect within its range and is ignored outside it, counted in RO_WRITES as a write of a read-only register is; a selector belongs to its
path. -/
def Obligations.RegisterAccessesFollowTheMap : Prop :=
  (∀ s p a, regAt a = none → exec (.rcRead p a) s = .next (bump s .badAddr)) ∧
  (∀ s p a r part w k, regAt a = some (r, part, w) → answers s p (a / 0x10000) = true → namesUnit s p r = true → ctrOf s p r part = some k →
    (readReg s p a w).1 = .ok (getCtr (beforeRead s p r) k) ∧
    Answers (.rcRead p a) s fun t => getCtr t k = 0 ∧ (∀ j, j ≠ k → getCtr t j = getCtr (beforeRead s p r) j) ∧ Outward s t) ∧
  (∀ s p a wide d, regAt a = none → exec (.registerWrite p a wide d) s = .next (bump s .badAddr)) ∧
  (∀ s p a r part w d, regAt a = some (r, part, w) → exec (.registerWrite p a (!w) d) s = .next (bump s .badAddr)) ∧
  (∀ s p d, answers s p 0 = true → exec (.registerWrite p 0 false d) s = .next (bump s .roWrites)) ∧
  (∀ s p d, answers s p 1 = true → (getPath s p).staged = [] →
    exec (.registerWrite p 0x10024 false d) s =
      .next { s with rst := { s.rst with alertMask := BitVec.ofNat 10 (d.toNat % 2 ^ 32) } }) ∧
  (∀ s p d, answers s p 1 = true → (getPath s p).staged = [] →
    exec (.registerWrite p 0x10040 false d) s = .next
      (if -10 ≤ (BitVec.ofNat 5 (d.toNat % 2 ^ 32)).toInt ∧ (BitVec.ofNat 5 (d.toNat % 2 ^ 32)).toInt ≤ 10 then
        { s with supply := { s.supply with offset := BitVec.ofNat 5 (d.toNat % 2 ^ 32) } } else bump s .roWrites)) ∧
  (∀ s p q d, answers s p 8 = true → resetDrops s p 8 = false →
    Answers (.registerWrite p 0x80000 false d) s fun t =>
      selTenant t p = d.toNat % 4096 ∧ (q ≠ p → getPath t q = getPath s q) ∧ t = { s with acc := t.acc }) ∧
  (∀ s p b, answers s p 0xB = true → (getPath s p).staged = [] →
    exec (.regSeal p b) s = .next { s with acc := { s.acc with sealedBlocks := s.acc.sealedBlocks ||| b } }) ∧
  (∀ s p d, answers s p 1 = true → isSealedBlock s 1 = true →
    exec (.registerWrite p 0x10300 true d) s = .next (bump s .roWrites))

/-- The registers whose writes act (R171, R317, R362, R437, R440, R445, R447, R473): resets, the scan unlock, a core's retirement, the emptying of the
retired list at the next reset, a seat's retraining, a policer's enabling with full buckets or with ERR, the weight reserve. -/
def Obligations.ActingRegisterWrites : Prop :=
  (∀ s p, answers s p 1 = true → started s = true → s.rst.ctlRunning = false →
    Answers (.ctlResetWrite p) s fun t =>
      t.rst.lastCtl = 0x21 ∧ t.rst.ctlRunning = true ∧ t.pg = Programs.reset ∧ t.dir = [] ∧ t.mem.tiles = [] ∧ t.trust.tenants = [] ∧
      t.fab.active = s.fab.active ∧ t.boot.stage = s.boot.stage ∧ t.time = s.time) ∧
  (∀ s p, answers s p 1 = true → Answers (.nodeResetWrite p) s fun t => NodeResetLeaves s t 3) ∧
  (∀ s p, answers s p 0xB = true → Answers (.scanUnlock p) s fun t => NodeResetLeaves s t 9 ∧ t.boot.unlocked = true) ∧
  (∀ s p c core, answers s p 7 = true → resetDrops s p 7 = false → (getPath s p).staged = [] → c < 8 → core < 9 →
    isRetired s c core = false → (spareMap s c).spare ≠ core → pendingReason s (c, core) = none →
    Answers (.spareRetire p c core) s fun t =>
      pendingReason t (c, core) = some 3 ∧ isRetired t c core = true ∧ (t.boot.flashRetired.getD c 0).getLsbD core = true ∧
      Outward { s with boot := { s.boot with flashRetired := t.boot.flashRetired }, cores := t.cores } t) ∧
  (∀ s p c core, answers s p 7 = true → resetDrops s p 7 = false → (getPath s p).staged = [] → c < 8 → core < 9 →
    isRetired s c core = false → (spareMap s c).spare = core →
    Answers (.spareRetire p c core) s fun t =>
      (spareMap t c).spare = 15 ∧ AlertSet t alCore ∧
      Outward { s with boot := { s.boot with flashRetired := t.boot.flashRetired }, cores := t.cores } t) ∧
  (∀ s p, answers s p 7 = true → resetDrops s p 7 = false → (getPath s p).staged = [] → s.cores.ctlCluster < 8 → s.cores.ctlPcore < 16 →
    exec (.spareClearList p) s = .next { s with boot := { s.boot with clearList := true } }) ∧
  (∀ s p i, answers s p 2 = true → resetDrops s p 2 = false → (getPath s p).staged = [] → i < 6 → (getSeat s i).mode < 3 →
    (getSeat s i).enable = true → refPresent s i = true →
    Answers (.seatRetrain p i) s fun t => (getSeat t i).state = seatTraining ∧ (getSeat t i).mode = (getSeat s i).mode ∧ Outward s t) ∧
  (∀ s p w, answers s p 3 = true → resetDrops s p 3 = false → (getPath s p).staged = [] →
    (let x := getPolicer s (tpKey s p)
     let y := { x with aware := w.getLsbD 1, yellowAct := fld w.toNat 3 2, redAct := fld w.toNat 5 4 }
     x.enable = false → x.cir < 2 ^ 24 → x.pir < 2 ^ 24 → x.cbs < 2 ^ 24 → x.pbs < 2 ^ 24 →
     Answers (.policerEnableWrite p false w) s fun t =>
       getPolicer t (tpKey s p) =
         (if policerValid false y then
           { y with enable := true, err := false, tc := ⟨((x.cbs * 1000000000 : Nat) : Int), s.time⟩, tp := ⟨((x.pbs * 1000000000 : Nat) : Int), s.time⟩ }
         else { y with err := true }) ∧
       (∀ k, k ≠ tpKey s p → getPolicer t k = getPolicer s k) ∧ Outward s t)) ∧
  (∀ s p die b, answers s p 5 = true → resetDrops s p 5 = false → (getPath s p).staged = [] → die < 2 →
    exec (.weightReserveWrite p die b) s = .next
      (if b.toNat % 512 = 0 ∧ b.toNat ≤ 128 * 2 ^ 30 ∧ reserveUse s die ≤ b.toNat then
        { s with mem := { s.mem with reserve := Tab.put s.mem.reserve die b.toNat } } else bump s .roWrites))

/-- The management ports (R416 to R418, R450, R451, R483): SMBus writes and reads of this node's address reach the registers with their checks, a
malformed transaction is discarded and counted; the I3C address; JTAG's instructions with what they shift out, and the debug of control cores, whose
halts and writes are tallied; a sealed memory reads as zeros, a write to SRAM is dropped, and SEAL_READS counts both. What the boundary and scan chains
shift out is free (logs 23, 24), where each memory lies for the debugger is the model's choice (logs 22, 95), and undefined codes show as 0xFF and a
result is read at an address of the node (log 59). -/
def Obligations.ManagementPorts : Prop :=
  (∀ s a, smbusMine s a = true ↔ s.boot.powered = true ∧ (a = 0x58 + s.acc.straps.toNat ∨ s.acc.i3c = some a)) ∧
  (∀ s a, smbusMine s a = false → ∀ ok b, exec (.smbusRegisterWrite ⟨a, ok⟩ b) s = .next s ∧ exec (.smbusReadRequest ⟨a, ok⟩ b) s = .next s) ∧
  (∀ s a b, smbusMine s a = true → b.length = 8 → leAt b 0 4 = 0x10024 → answers s .smbus 1 = true → (getPath s .smbus).staged = [] →
    exec (.smbusRegisterWrite ⟨a, true⟩ b) s = .next { s with rst := { s.rst with alertMask := BitVec.ofNat 10 (leAt b 4 4) } }) ∧
  (∀ s a b, smbusMine s a = true → b.length = 8 ∨ b.length = 12 →
    exec (.smbusRegisterWrite ⟨a, true⟩ b) s = exec (.registerWrite .smbus (leAt b 0 4) (decide (b.length = 12)) (BitVec.ofNat 64 (leNat (b.drop 4)))) s) ∧
  (∀ s a b, smbusMine s a = true → exec (.smbusRegisterWrite ⟨a, false⟩ b) s = .next (bump s .badAddr) ∧
    exec (.smbusReadRequest ⟨a, false⟩ b) s = .next (bump s .badAddr)) ∧
  (∀ s m b, smbusMine s m = true → b.length = 5 → leAt b 4 1 = 4 ∨ leAt b 4 1 = 8 →
    exec (.smbusReadRequest ⟨m, true⟩ b) s = .next { s with acc := { s.acc with smbRead := some (leAt b 0 4, leAt b 4 1) } }) ∧
  (∀ s a w v u, s.boot.powered = true → s.acc.smbRead = some (a, w) → readReg s .smbus a (decide (w = 8)) = (.ok v, u) →
    exec .smbusReadResult s = .next { u with acc := { u.acc with smbRead := none, smbOut := 0 :: leBytes w v } }) ∧
  (∀ s, s.boot.powered = true → s.acc.smbRead = none →
    exec .smbusReadResult s = .next { s with acc := { s.acc with smbRead := none, smbOut := 1 :: leBytes 4 0 } }) ∧
  (∀ s a, s.boot.powered = true → exec (.i3cDynamicAddress a) s = .next { s with acc := { s.acc with i3c := some (a % 128) } }) ∧
  (∀ s, s.boot.powered = true →
    exec .jtagIdcode s = .next { s with acc := { s.acc with jtagIr := 0x01, tdo := bitsOf 32 0x1A7165AB } }) ∧
  (∀ s bits, s.boot.powered = true →
    Answers (.jtagSamplePreload bits) s (fun t => t.acc.jtagIr = 0x02 ∧ t.acc.boundary = bits ∧ t = { s with acc := t.acc, freeIdx := t.freeIdx }) ∧
    Answers (.jtagExtest bits) s (fun t => t.acc.jtagIr = 0x03 ∧ t.acc.boundary = bits ∧ t = { s with acc := t.acc, freeIdx := t.freeIdx }) ∧
    exec (.jtagBypass bits) s = .next { s with acc := { s.acc with jtagIr := 0xFF, tdo := false :: bits.dropLast } }) ∧
  (∀ s bits, s.boot.powered = true → s.boot.unlocked = false →
    exec (.jtagScan bits) s = .next { s with acc := { s.acc with jtagIr := 0x30, tdo := false :: bits.dropLast } }) ∧
  (∀ s bits, s.boot.powered = true → s.boot.unlocked = true →
    Answers (.jtagScan bits) s fun t => t.acc.jtagIr = 0x30 ∧ t = { s with acc := t.acc, freeIdx := t.freeIdx }) ∧
  (∀ s (dr : BitVec 98) v u, s.boot.powered = true → dr.getLsbD 0 = false →
    readReg (jtagScanned s 0x20 (bitsOf 98 s.acc.jtagDr.toNat)) .jtag (fld dr.toNat 33 2) (dr.getLsbD 1) = (.ok v, u) →
    exec (.jtagRegAccess dr) s = .next { u with acc := { u.acc with jtagDr := accessDr false (fld dr.toNat 33 2) v } }) ∧
  (∀ s core, s.boot.powered = true → core < 16 → core ∉ s.boot.halted →
    exec (.jtagCoreDebug core .halt) s = .next
      { s with acc := { s.acc with jtagIr := 0x21 },
               boot := { s.boot with halted := core :: s.boot.halted, debugTally := s.boot.debugTally + 1 } }) ∧
  (∀ s core, s.boot.powered = true → core < 16 →
    exec (.jtagCoreDebug core .resume) s = .next
      { s with acc := { s.acc with jtagIr := 0x21 }, boot := { s.boot with halted := s.boot.halted.filter (· ≠ core) } }) ∧
  (∀ s core a d, s.boot.powered = true → core < 16 →
    exec (.jtagCoreDebug core (.write a d)) s = .next
      (if Config.debugPlace core a = .own then
        { s with acc := { s.acc with jtagIr := 0x21 },
                 boot := { s.boot with debugTally := s.boot.debugTally + 1, coreMem := Tab.put s.boot.coreMem (core, a) d } }
      else bump { s with acc := { s.acc with jtagIr := 0x21 } } .sealReads)) ∧
  (∀ s core a, s.boot.powered = true → core < 16 →
    Answers (.jtagCoreDebug core (.read a)) s fun t =>
      (Config.debugPlace core a = .isSealed → t.acc.tdo = List.replicate 64 false ∧ t = { (bump s .sealReads) with acc := t.acc }) ∧
      (∀ w, Config.debugPlace core a = .own → Tab.find s.boot.coreMem (core, a) = some w →
        t.acc.tdo = bitsOf 64 w.toNat ∧ t = { s with acc := t.acc }) ∧
      (∀ d j r, Config.debugPlace core a = .desc d j → getDesc s d = some r →
        t.acc.tdo = bitsOf 64 (leAt (descBytes r (Config.tileMap d)) (8 * j) 8 % 2 ^ 64) ∧ t = { s with acc := t.acc }))

/-! ### Compute instructions and plies (04, 05, 11) -/

/-- ATT.DEC, ATT.PRE and ATT.BWD (R94, R139, R262 to R266): one that passes its checks runs on as members of a ply of its kind, tenant and layer, one
member for each query position; while rows of its stream are PENDING it does not issue. Nothing but programs, plies and memory changes, and the numbers
of the tenant's key where values are kept; of the counters those of evictions, of the other die's pool and of saturated inline positions. That members
without tiles form plies of their own is the model's choice (log 66). -/
def Obligations.AttentionInstructionsJoinPlies : Prop :=
  ∀ s c p (x : Instr × Op × PlyKind), x ∈ [(.attDec c, Op.attDec, PlyKind.decode), (.attPre c, Op.attPre, PlyKind.prefill), (.attBwd c, Op.attBwd, PlyKind.backward)] →
    MayIssue s c p (isOp x.2.1) →
    (pendingStream s p.tenant (attOps p (p.word p.next)).stream = false →
      Passes s c p (fun s p w => attChecks s c p (attOps p w)) →
      Answers x.1 s fun t =>
        StepRuns t c p.next ∧ InPly t p p.next (attOps p (p.word p.next)).n x.2.2 (attOps p (p.word p.next)).layer ∧ PlyFrame s t c ∧
        t.dir = s.dir ∧ t.nb = s.nb ∧ t.fab = s.fab ∧ t.health = s.health ∧ t.cores = s.cores ∧ t.seats = s.seats ∧ t.tr = s.tr ∧ t.net = s.net ∧
        t.ev = s.ev ∧ t.rst = s.rst ∧ (∀ k, k ≠ .coreSat → k ≠ .tier 0 → k ≠ .tier 10 → getCtr t k = getCtr s k) ∧ Inward s t ∧
        ((attOps p (p.word p.next)).keeps = false →
          Outward { s with pg := t.pg, mem := { s.mem with err := t.mem.err, seenPoison := t.mem.seenPoison, mirrorLost := t.mem.mirrorLost } } t)) ∧
    (pendingStream s p.tenant (attOps p (p.word p.next)).stream = true → exec x.1 s = .next s)

/-- PROJ.KV in both modes and MM (R122, R125, R270 to R273): one that passes its checks runs on as members of a ply, one for each row; an append holds
its stream and layer from then on, with the rows and tiles that it takes at its issue (the model's choice, log 67); MM has a ply of its own. -/
def Obligations.ProjectionsAndProductsJoinPlies : Prop :=
  (∀ s c p (g : Bool), MayIssue s c p (fun w => isOp .projKv w && (fbit w 0 == g)) →
    ((projOps p (p.word p.next)).append && (pendingStream s p.tenant (projOps p (p.word p.next)).stream || p.appendOpen)) = false →
    Passes s c p (fun s p w => projChecks s c p w (projOps p w)) →
    Answers (if g then .projKvGradient c else .projKv c) s fun t =>
      StepRuns t c p.next ∧ InPly t p p.next (projOps p (p.word p.next)).m .projection (projOps p (p.word p.next)).layer ∧ PlyFrame s t c ∧ Inward s t ∧
      ((projOps p (p.word p.next)).append = true → ∃ q, getCtx t c = some q ∧ (projOps p (p.word p.next)).stream ∈ q.newStreams ∧
        ((projOps p (p.word p.next)).stream, (projOps p (p.word p.next)).layer) ∈ q.holds) ∧
      ((projOps p (p.word p.next)).append = false →
        Outward { s with pg := t.pg, mem := { s.mem with err := t.mem.err, seenPoison := t.mem.seenPoison, mirrorLost := t.mem.mirrorLost } } t)) ∧
  (∀ s c p, MayIssue s c p (isOp .mm) → Passes s c p (fun s p w => mmChecks s p w (mmOps p w)) →
    Answers (.mm c) s fun t =>
      StepRuns t c p.next ∧ InPly t p p.next (mmOps p (p.word p.next)).m .matrix (mmOps p (p.word p.next)).layer ∧ PlyFrame s t c ∧
      (∃ x, Tab.find t.pg.plies s.pg.nextPly = some x ∧ x.members.length = 1 ∧ t.pg.nextPly = s.pg.nextPly + 1) ∧
      Outward { s with pg := t.pg, mem := { s.mem with err := t.mem.err, seenPoison := t.mem.seenPoison, mirrorLost := t.mem.mirrorLost } } t)

/-- ATT.MERGE (R46, R47, R54, R267 to R269): a merge that passes is done at once, on a cluster of the node's choice (log 56), with a merged record for
each group; the identity leaves a partial as it is; a record alone keeps its block and value, two that are the halves of a block give it their merge;
records that do not fit one another are refused. -/
def Obligations.MergeCompletes : Prop :=
  (∀ s c p, MayIssue s c p (isOp .attMerge) → Passes s c p (fun _ p w => mergeChecks p w) →
    Answers (.attMerge c) s fun t => StepDone t c p.next stOk 0 ∧ PlyFrame s t c ∧ (holdsPeer s = false → StepFrame s t c) ∧
      ((p.buf (fld (p.word p.next) 37 35)).kind ≠ 3 → ∃ q, getCtx t c = some q ∧
        q.scratch = (p.writeBuf (fld (p.word p.next) 37 35) (((mergeGroups p (p.word p.next)).map (fun g =>
          padTo 64 (mergedRecord p p.next (fbit (p.word p.next) 1) (fbit (p.word p.next) 0) (fbit (p.word p.next) 2)
            (mergeOf p (p.word p.next) g)))).flatten)).scratch)) ∧
  (∀ (b : Partial) d, mergePartial (idPartial d) b = b ∧ (b.m ≠ f32NegInf → mergePartial b (idPartial d) = b)) ∧
  (∀ r : InRec, r.head.level ≤ 16 → r.head.index < 2 ^ (16 - r.head.level) → r.parts.length = r.head.heads →
    mergeGroup false [r] = ((r.head.level, r.head.index), r.parts)) ∧
  (∀ a b : InRec, a.head.level < 16 → b.head.level = a.head.level → a.head.index % 2 = 0 → b.head.index = a.head.index + 1 →
    b.head.index < 2 ^ (16 - a.head.level) → b.head.heads = a.head.heads → b.head.dim = a.head.dim → a.parts.length = a.head.heads →
    b.parts.length = b.head.heads →
    mergeGroup false [a, b] = ((a.head.level + 1, a.head.index / 2), List.zipWith mergePartial a.parts b.parts)) ∧
  (∀ s c p, MayIssue s c p (isOp .attMerge) → contOf (p.word p.next) = true → (effRole s = rolePool → p.owner = true) →
    mergeInvalid p.tenant (fld (p.word p.next) 63 48) (fbit (p.word p.next) 1) (mergeIn p (p.word p.next)).1 = true →
    Answers (.attMerge c) s fun t => StepDone t c p.next stRefused scMergeInvalid ∧ StepFrame s t c)

/-- NB.EW, NB.ROPE, NB.QUANT and NB.ADAM (R127, R193, R278 to R282): one that passes its checks runs on with a sequence queued at a unit for each unit
it uses, which has the domains that lie in its channel, and is done when nothing is left to wait for; an optimizer step prepares its new copies in the
program, each in granules and under numbers of its own. -/
def Obligations.NearBankInstructionsQueueSequences : Prop :=
  (∀ s c p (x : Instr × Op), x ∈ [(.nbEw c, Op.nbEw), (.nbRope c, Op.nbRope), (.nbQuant c, Op.nbQuant)] → MayIssue s c p (isOp x.2) →
    Passes s c p (fun s p w => nbChecks s p (nbOps p w)) →
    Answers x.1 s fun t =>
      (StepDone t c p.next stOk 0 ∨ StepRuns t c p.next) ∧
      (isBank (p.word p.next) = true → p.polled p.next = false → StepDone t c p.next stOk 0 ∨ SeqQueued t p p.next) ∧
      (let r := nbReady (afterIssue s c p) c (issuedProg s p) (nbOps p (p.word p.next))
       ∀ q i w v, getCtx r.2 c = some q → (nbWorks r.2 q (nbOps p (p.word p.next)))[i]? = some w → v ∈ w.units →
         ∃ y ∈ (getUnit t v).seqs, y.lsn = p.lsn ∧ y.step = p.next ∧ y.tenant = p.tenant ∧ i ∈ y.doms ∧ (y.state = .queued ∨ y.state = .waiting)) ∧
      PlyFrame s t c ∧ t.dir = s.dir ∧ t.pg.plies = s.pg.plies ∧ Inward s t) ∧
  (∀ s c p, MayIssue s c p (isOp .nbAdam) → Passes s c p (fun s p w => adamChecks s p w (adamOps p w)) →
    Answers (.nbAdam c) s fun t =>
      (adamDomains (afterIssue s c p) (issuedProg s p) (adamOps p (p.word p.next)) ≠ [] → StepRuns t c p.next ∧ SeqQueued t p p.next) ∧ PlyFrame s t c ∧
      (let u := adamReady (afterIssue s c p) c (issuedProg s p) (adamOps p (p.word p.next))
       ∀ q i w v, getCtx u c = some q → (adamWorks u q (adamOps p (p.word p.next)))[i]? = some w → v ∈ w.units →
         ∃ y ∈ (getUnit t v).seqs, y.lsn = p.lsn ∧ y.step = p.next ∧ y.tenant = p.tenant ∧ i ∈ y.doms ∧ (y.state = .queued ∨ y.state = .waiting)) ∧
      (∃ q, getCtx t c = some q ∧ ∀ k i m b, k ∈ adamSets (afterIssue s c p) (issuedProg s p) (adamOps p (p.word p.next)) →
        i ∈ (adamOps p (p.word p.next)).mats → curMat (afterIssue s c p) k i = some m → m.cur = some b → p.copyOf k i = none →
        ∃ g n, Change.adam k i b g n ∈ q.changes) ∧
      t.pg.plies = s.pg.plies ∧
      Outward { s with pg := t.pg, nb := t.nb, trust := t.trust,
                       mem := { s.mem with weights := t.mem.weights, err := t.mem.err, seenPoison := t.mem.seenPoison, mirrorLost := t.mem.mirrorLost } } t)

/-- PLY_ISSUE (R95 to R97, R174, R246): at its due instant a ply whose streams no commit is applying, whose objects are in T1 and whose instructions
still pass takes its cores, which the command names (log 18); otherwise it is held and stays as it was formed; an instruction that no longer passes is
done with what it fails for. The protection of a prefetched tile ends at its time (R172; it runs from the fetch's end, log 87). -/
def Obligations.PliesIssueOrAreHeld : Prop :=
  (∀ s i cores fs x, Tab.find s.pg.plies i = some x → x.issued = none → serving s = true → x.members ≠ [] → coresFree s (plyDie s x) cores = true →
    (let u := reach (applyFlips s fs) (plyDue s x)
     (∀ m c p, m ∈ x.members → memberProg u m = some (c, p) → plyRecheck u x c p m = none) →
     plyCommitHeld u x = false → (plyTiles u x).filter (tileMissing u) = [] → (plyMats u x).filter (matMissing u (plySet x)) = [] →
     (∀ o, o ∈ plyTiles u x → readFirst u o = u) →
     Answers (.plyIssue i cores fs) s fun t =>
       (∃ y, Tab.find t.pg.plies i = some y ∧ y.issued = some t.time ∧ y.held = none ∧ y.cores = cores.filterMap (physCore s) ∧ y.die = plyDie u x ∧ y.members = x.members ∧ y.key = x.key) ∧
       t.time = (reach s (plyDue s x)).time ∧ t.pg.queue = s.pg.queue ∧ t.dir = s.dir ∧
       ((∀ v ∈ s.nb.units.vals, ∀ q ∈ v.seqs, q.state ≠ .waiting) → t.nb = s.nb) ∧ t.fab = s.fab ∧ t.trust = s.trust ∧
       t.boot = s.boot ∧ t.supply = s.supply)) ∧
  (∀ s i cores fs x m c p r, Tab.find s.pg.plies i = some x → x.issued = none → serving s = true → x.members = [m] →
    coresFree s (plyDie s x) cores = true →
    (let u := reach (applyFlips s fs) (plyDue s x)
     memberProg u m = some (c, p) → plyRecheck u x c p m = some r → (p.step m.step).phase = .running → m.step < p.steps.length →
     deadlinePassed u p = false → contOf (p.word m.step) = true → r.1 ≠ 0x0501 → r.1 < 0x0600 →
     plyCommitHeld u x = false → (plyTiles u x).filter (tileMissing u) = [] → (plyMats u x).filter (matMissing u (plySet x)) = [] →
     Answers (.plyIssue i cores fs) s fun t => StepDone t c m.step r.1 r.2 ∧ t.boot = s.boot)) ∧
  (∀ s i cores fs x, Tab.find s.pg.plies i = some x → x.issued = none → serving s = true → x.members ≠ [] → coresFree s (plyDie s x) cores = true →
    (let u := reach (applyFlips s fs) (plyDue s x)
     plyCommitHeld u x = true ∨ (plyTiles u x).filter (tileMissing u) ≠ [] ∨ (plyMats u x).filter (matMissing u (plySet x)) ≠ [] →
     Answers (.plyIssue i cores fs) s fun t =>
       Tab.find t.pg.plies i = some { x with held := x.held.or (some t.time) } ∧ t.time = (reach s (plyDue s x)).time ∧
       t.pg.ctxs = s.pg.ctxs ∧ t.pg.queue = s.pg.queue ∧ t.dir = s.dir ∧ t.nb = s.nb ∧ t.fab = s.fab ∧ t.trust = s.trust ∧ t.boot = s.boot)) ∧
  (∀ s obj o x, s.mem.tiles.find? (fun t => t.2.objKey == obj && t.2.protectUntil.isSome) = some (o, x) →
    exec (.prefetchProtectExpiry obj) s = .next
      { (reach s (x.protectUntil.getD 0)) with
               mem := { s.mem with tiles := Tab.put s.mem.tiles o { x with protectUntil := none } } })

/-- PLY_COMPLETE (R45, R47, R51, R59, R61, R92, R98, R99, R260, R273): the ply is gone; an attention instruction in it is done with its partial records in
its buffer, or fails where a tile it read is poisoned; a product is done with its rows, or fails where its weights are poisoned. A segment without a live
key gives the identity, one with a NaN among its scores NaN; a value that a format has is stored as itself. -/
def Obligations.PliesComplete : Prop :=
  (∀ s i x m c p, Tab.find s.pg.plies i = some x → x.issued.isSome = true → running s = true → x.members = [m] → memberProg s m = some (c, p) →
    (p.step m.step).phase = .running → m.step < p.steps.length → deadlinePassed s p = false →
    opOf (p.word m.step) = some .attDec ∨ opOf (p.word m.step) = some .attPre →
    Answers (.plyComplete i) s fun t =>
      Tab.find t.pg.plies i = none ∧ PlyFrame s t c ∧ t.mem.tiles = s.mem.tiles ∧ t.time = s.time ∧
      (memberBad x m = false → StepDone t c m.step stOk 0 ∧ t.dir = s.dir ∧
        ((p.buf (attOps p (p.word m.step)).outBuf).kind ≠ 3 → ∃ p0 q, getCtx s c = some p0 ∧ getCtx t c = some q ∧
          q.scratch = (p0.writeBuf (attOps p (p.word m.step)).outBuf ((attRecords x p m).map (padTo 64)).flatten).scratch)) ∧
      (memberBad x m = true → contOf (p.word m.step) = true → StepDone t c m.step stTilePoisoned 0) ∧
      (memberBad x m = true → contOf (p.word m.step) = false → getCtx t c = none)) ∧
  (∀ s i x m c p ws b, Tab.find s.pg.plies i = some x → x.issued.isSome = true → running s = true → x.members = [m] → memberProg s m = some (c, p) →
    (p.step m.step).phase = .running → m.step < p.steps.length → deadlinePassed s p = false → opOf (p.word m.step) = some .mm →
    x.weights = some ws → (Tab.find ws.mats (mmOps p (p.word m.step)).mat).bind Matrix.cur = some b →
    Answers (.plyComplete i) s fun t =>
      Tab.find t.pg.plies i = none ∧ PlyFrame s t c ∧ t.mem.tiles = s.mem.tiles ∧ t.time = s.time ∧
      (ws.state ≠ .unavailable → x.badMats.contains (mmOps p (p.word m.step)).mat = false → StepDone t c m.step stOk 0 ∧ t.dir = s.dir ∧
        ∃ p0 q, getCtx s c = some p0 ∧ getCtx t c = some q ∧
          (let o := mmOps p (p.word m.step)
           let y := mmResult o ws.dModel b (chunks (if o.trans then b.rows.length else ws.dModel) (p.vals o.aBuf))
           q.scratch = (p0.writeBuf o.cBuf (valBytes (p.buf o.cBuf).fmt y.1)).scratch)) ∧
      (ws.state = .unavailable ∨ x.badMats.contains (mmOps p (p.word m.step)).mat = true → contOf (p.word m.step) = true →
        StepDone t c m.step stWeightsPoisoned 0)) ∧
  (∀ a vs kv keys, (∀ k ∈ keys, k = none) → segPartial a vs keys kv = (idPartial a.d, 0)) ∧
  (∀ a vs kv keys k, some k ∈ keys → F32.isNan (a.score (versionAt vs k.1.off) k kv) = true →
    segPartial a vs keys kv = (⟨f32Nan, f32Nan, List.replicate a.d f32Nan⟩, 0)) ∧
  (∀ f ∈ [fmtFp32, fmtBf16, fmtFp16, fmtE5m2, fmtE4m3, fmtE3m2, fmtE2m3, fmtE2m1], ∀ c, c < 2 ^ f.bits → f.decode c ≠ .nan →
    f.round (f.decode c) = (c, false))

/-! ### Near-bank units, memory integrity (08, 09) -/

/-- The sequences of a near-bank unit (R193, R194, R196 to R198, R203): the first queued one starts where nothing runs; a refresh that falls due is
owed up to twice inside a lock and taken at the next row boundary outside it (how many domains a row step ends is the command's, log 16); pass 1 of a batch fills the lane store; after a refresh the sequence goes on where it was; the last write ends the
sequence, and with the last sequence of a step the step. -/
def Obligations.NearBankSequences : Prop :=
  (∀ s k u q, activeSeq (getUnit s (k, u)) = none → (getUnit s (k, u)).seqs.find? (fun q => decide (q.state = .queued)) = some q → mayStart s q = true →
    Answers (.nbSeqStart k u) s fun t =>
      { q with state := .running, lock := twoPass s q } ∈ (getUnit t (k, u)).seqs ∧ (getUnit t (k, u)).keys = slotKeys s q ∧
      (getUnit t (k, u)).lane = [] ∧
      ((∀ x ∈ s.nb.units.vals, ∀ y ∈ x.seqs, y.state ≠ .waiting) → ∀ v, v ≠ (k, u) → getUnit t v = getUnit s v) ∧
      Outward { s with nb := t.nb, mem := { s.mem with weights := t.mem.weights } } t) ∧
  (∀ s k u q, activeSeq (getUnit s (k, u)) = some q → q.state = .running →
    Answers (.refreshDue k u) s fun t =>
      (if q.lock = true ∧ q.owed < 2 then { q with owed := q.owed + 1, dueSince := q.dueSince.or (some s.time) }
       else { q with due := true, dueSince := q.dueSince.or (some s.time) }) ∈ (getUnit t (k, u)).seqs ∧
      (∀ v, v ≠ (k, u) → getUnit t v = getUnit s v) ∧ Outward { s with nb := t.nb } t) ∧
  (∀ s k u q, activeSeq (getUnit s (k, u)) = some q → q.state = .running → q.lock = true →
    (∀ i, i ∈ batchOf s q (k, u) → (Tab.find (getUnit s (k, u)).lane i).isSome = true) →
    Answers (.pass1End k u) s fun t =>
      { q with lock := false, due := q.due || decide (0 < q.owed) } ∈ (getUnit t (k, u)).seqs ∧
      (∀ v, v ≠ (k, u) → getUnit t v = getUnit s v) ∧ Outward { s with nb := t.nb } t) ∧
  (∀ s k u q y, activeSeq (getUnit s (k, u)) = some q → q.state = .running → q.lock = true →
    activeSeq (getUnit (readLane (q.doms.length + 1) s (k, u)) (k, u)) = some y →
    Answers (.pass1End k u) s fun t => { y with lock := false, due := y.due || decide (0 < y.owed) } ∈ (getUnit t (k, u)).seqs) ∧
  (∀ s k u q, activeSeq (getUnit s (k, u)) = some q → q.state = .yielded ∨ q.state = .preempted →
    Answers (.refreshComplete k u) s fun t =>
      { q with state := .running, owed := 0, due := false, dueSince := none } ∈ (getUnit t (k, u)).seqs ∧
      (∀ v, v ≠ (k, u) → getUnit t v = getUnit s v) ∧ Outward { s with nb := t.nb } t) ∧
  (∀ s k u q, activeSeq (getUnit s (k, u)) = some q → q.state = .running → q.lock = false → q.cancel = none → q.due = true →
    Answers (.nbRowStepEnd k u 0 []) s fun t =>
      { q with state := .yielded, due := false } ∈ (getUnit t (k, u)).seqs ∧ Outward { s with nb := t.nb } t) ∧
  (∀ s k u q i rest fs, activeSeq (getUnit s (k, u)) = some q → q.state = .running → q.lock = false → q.cancel = none → q.due = false →
    q.doms = i :: rest → (Tab.find (getUnit s (k, u)).lane i).isSome = true ∨ (readDomain (applyFlips s fs) q (k, u) i).1 = none →
    q.pass = false → q.blks = [] →
    Answers (.nbRowStepEnd k u 1 fs) s fun t =>
      ∃ y, y ∈ (getUnit t (k, u)).seqs ∧ y.tag = q.tag ∧ y.lsn = q.lsn ∧ y.state = .running ∧ y.doms = rest) ∧
  (∀ s k u q fs, activeSeq (getUnit s (k, u)) = some q → q.state = .running → q.lock = true → q.cancel = none → q.due = false →
    exec (.nbRowStepEnd k u 0 fs) s = .next (applyFlips s fs)) ∧
  (∀ s k u q i fs, activeSeq (getUnit s (k, u)) = some q → q.state = .running → q.lock = true → q.cancel = none → q.due = false →
    (batchOf (applyFlips s fs) q (k, u)).find? (fun i => (Tab.find (getUnit s (k, u)).lane i).isNone) = some i →
    (readDomain (applyFlips s fs) q (k, u) i).1 = none →
    Answers (.nbRowStepEnd k u 1 fs) s fun t =>
      (Tab.find (getUnit t (k, u)).lane i).isSome = true ∧
      ∃ y, y ∈ (getUnit t (k, u)).seqs ∧ y.tag = q.tag ∧ y.lsn = q.lsn ∧ y.state = .running ∧ y.doms = q.doms) ∧
  (∀ s k u q c p, activeSeq (getUnit s (k, u)) = some q → q.state = .running → q.cancel = none → q.doms = [] → ctxOf s q.lsn = some c →
    getCtx s c = some p → (p.step q.step).phase = .running → q.step < p.steps.length → (p.step q.step).seqs = 1 → (p.step q.step).stages = 0 →
    (p.step q.step).poll = false → (p.step q.step).seqStatus = [] → deadlinePassed s p = false → q.pass = false → q.blks = [] →
    Answers (.nbSeqFinal k u) s fun t =>
      StepDone t c q.step stOk 0 ∧ q ∉ (getUnit t (k, u)).seqs ∧
      (getUnit t (k, u)).last = some { q with state := .final, finalState := 5, status := stOk, doms := [], blks := [], lock := false, owed := 0 } ∧ t.mem.tiles = s.mem.tiles)

/-- The firmware's poll read (R194): at the next multiple of the polling period, a polled step that waits for nothing more is done. -/
def Obligations.PollReadsEndPolledSteps : Prop :=
  ∀ s c k p, 0 < s.nb.poll → getCtx s c = some p → k < p.next → k < p.steps.length → (p.step k).phase = .running → (p.step k).poll = true →
    (p.step k).seqs = 0 → (p.step k).stages = 0 → (c, p) ∈ s.pg.ctxs →
    (∀ d q, (d, q) ∈ s.pg.ctxs → q.deadline = none ∧ ∀ j, (q.step j).seqStatus = []) →
    Answers .nbPollRead s fun t =>
      StepDone t c k stOk 0 ∧ t.time = (reach s ((s.time + s.nb.poll - 1) / s.nb.poll * s.nb.poll)).time ∧ t.pg.queue = s.pg.queue ∧ t.pg.plies = s.pg.plies ∧
      t.dir = s.dir ∧ t.mem.tiles = s.mem.tiles ∧ t.nb = { s.nb with jobs := t.nb.jobs }

/-- Uncorrectable SRAM (R216, R437) and the interval of memory events (R217): of the plies that use the SRAM, those that use the line end, and every other goes on; one error of a core is noted, the second
within the window retires it; an error in the metadata of die SRAM is a control reset; the interval ends 1 ms after it opened, with one event for
those beyond its first 64. -/
def Obligations.SramErrorsAndEventIntervals : Prop :=
  (∀ s place, running s = true → (∀ d, place ≠ .dieMeta d) →
    Answers (.sramUncorrectable place) s fun t =>
      (∃ us, (us = [] ∨ us ∈ lineUsers s place) ∧ (∀ i, i ∈ us → Tab.find t.pg.plies i = none) ∧
        ∀ i x, i ∉ us → Tab.find s.pg.plies i = some x → x.issued.isSome = true →
          ∃ y, Tab.find t.pg.plies i = some y ∧ y.issued = x.issued ∧ y.cores = x.cores) ∧
      t.pg.queue = s.pg.queue ∧ t.mem.tiles = s.mem.tiles ∧ t.time = s.time) ∧
  (∀ s c p, running s = true → issuedPlies s = [] → Tab.find s.cores.sramErr (c, p) = none →
    Answers (.sramUncorrectable (.core c p)) s fun t =>
      Tab.find t.cores.sramErr (c, p) = some [s.time] ∧ t.health = (addHealth s true 4096).health ∧
      Outward { s with health := t.health, cores := { s.cores with sramErr := t.cores.sramErr } } t) ∧
  (∀ s c p t0, running s = true → issuedPlies s = [] → c < 8 → p < 9 → Tab.find s.cores.sramErr (c, p) = some [t0] →
    s.time ≤ t0 + s.cores.retireWindow * 1000000000 → isRetired s c p = false → (spareMap s c).spare ≠ p → pendingReason s (c, p) = none →
    Answers (.sramUncorrectable (.core c p)) s fun t => isRetired t c p = true ∧ pendingReason t (c, p) = some 2) ∧
  (∀ s d, running s = true → started s = true → s.rst.ctlRunning = false →
    Answers (.sramUncorrectable (.dieMeta d)) s fun t => t.rst.lastCtl = 0x24 ∧ t.rst.ctlRunning = true ∧ t.pg = Programs.reset ∧ t.dir = []) ∧
  (∀ s t0 n e b, s.mem.eccWindow = some (t0, n, some e, b) →
    Answers .eccEventIntervalEnd s fun t =>
      t.mem.eccWindow = none ∧ t.time = (reach s (t0 + 1000000)).time ∧ t.ev.nextSeq = (s.ev.nextSeq + 1) % 2 ^ 32 ∧
      Outward { s with time := t.time, mem := { s.mem with eccWindow := none } } t) ∧
  (∀ s t0 n b, s.mem.eccWindow = some (t0, n, none, b) →
    exec .eccEventIntervalEnd s = .next { (reach s (t0 + 1000000)) with mem := { s.mem with eccWindow := none } })

/-- What the code of 09 does with errors, for every data and every position (R210): one flipped bit outside the reserved ones is corrected, two are
reported uncorrectable, three corners of a rectangle are miscorrected at the fourth, four are not detected, and errors in reserved bits alone are
rewritten as zero. -/
def Obligations.IntegrityCodeLimits : Prop :=
  (∀ d i, i < 563 → classify (flipBit (sealedBlk d) i) = .corrected (sealedBlk d)) ∧
  (∀ d i j, i < 563 → j < 563 → i ≠ j → classify (flipBit (flipBit (sealedBlk d) i) j) = .uncorrectable) ∧
  (∀ d r q a b, r < 16 → q < 16 → a < 32 → b < 32 → r ≠ q → a ≠ b →
    classify (flipBit (flipBit (flipBit (sealedBlk d) (cell r a)) (cell r b)) (cell q a)) =
      .corrected (sealedBlk (flipBit (flipBit (flipBit (flipBit (sealedBlk d) (cell r a)) (cell r b)) (cell q a)) (cell q b)).data)) ∧
  (∀ d r q a b, r < 16 → q < 16 → a < 32 → b < 32 → r ≠ q → a ≠ b →
    classify (flipBit (flipBit (flipBit (flipBit (sealedBlk d) (cell r a)) (cell r b)) (cell q a)) (cell q b)) = .clean) ∧
  (∀ d (m : BitVec 13), m ≠ 0 → classify ⟨d, eccCheck d ^^^ (BitVec.ofNat 64 m.toNat <<< 51)⟩ = .corrected (sealedBlk d))

/-- The check word and poisoned blocks (R207 to R209, R212): every bit of the check word is what R207 gives; a poisoned block has POISON, the complements
and the parities of what is stored. What is written reads clean; a block written back poisoned reads poisoned, also with its POISON bit flipped. -/
def Obligations.PoisonedBlocksStayPoisoned : Prop :=
  (∀ d r, r < 16 → (eccCheck d).getLsbD r = xorBits 32 (fun c => d.getLsbD (cell r c))) ∧
  (∀ d c, c < 32 → (eccCheck d).getLsbD (16 + c) = xorBits 16 (fun r => d.getLsbD (cell r c))) ∧
  (∀ d, (eccCheck d).getLsbD 48 = xorBits 16 (fun r => (eccCheck d).getLsbD r) ∧
    (eccCheck d).getLsbD 49 = xorBits 32 (fun c => (eccCheck d).getLsbD (16 + c)) ∧ (eccCheck d).getLsbD 50 = false ∧
    (eccCheck d).getLsbD 48 = xorBits 512 (fun i => d.getLsbD i) ∧ (eccCheck d).getLsbD 49 = xorBits 512 (fun i => d.getLsbD i)) ∧
  (∀ d i, 51 ≤ i → (eccCheck d).getLsbD i = false ∧ (poisonCheck d).getLsbD i = false) ∧
  (∀ d i, i < 48 → (poisonCheck d).getLsbD i = !(eccCheck d).getLsbD i) ∧
  (∀ d, (poisonCheck d).getLsbD 48 = xorBits 16 (fun r => (poisonCheck d).getLsbD r) ∧
    (poisonCheck d).getLsbD 49 = xorBits 32 (fun c => (poisonCheck d).getLsbD (16 + c)) ∧ (poisonCheck d).getLsbD 50 = true) ∧
  (∀ d, classify (sealedBlk d) = .clean) ∧ (∀ d, classify ⟨d, poisonCheck d⟩ = .poisoned) ∧
  (∀ d, classify (flipBit ⟨d, poisonCheck d⟩ 562) = .poisoned) ∧
  (∀ b, classify b = .uncorrectable → writeBack b = ⟨b.data, poisonCheck b.data⟩ ∧ classify (writeBack b) = .poisoned) ∧
  (∀ b c, classify b = .corrected c → writeBack b = c ∧ classify c = .clean)

/-! ### The run directory (06) -/

/-- A lookup answers pending while a row of its stream is PENDING, else with the VALID rows that meet its range, in the order of the rows and so of LOW
(R137, R138); its repeat is final
(R139). Rows and the other half stay as they are. -/
def Obligations.DirectoryLookupsAnswer : Prop :=
  (∀ s h req t st low high, h < 2 → low ≤ high →
    Answers (.dirLookup h req t st low high) s fun u =>
      Tab.find (getHalf u h).outcomes req = some (lookupOutcome (getHalf s h) ⟨t, st, low, high⟩) ∧
      (getHalf u h).rows = (getHalf s h).rows ∧ (∀ g, g ≠ h → getHalf u g = getHalf s g) ∧
      getCtr u (.dirStat h 0) = satAdd 64 (getCtr s (.dirStat h 0)) 1 ∧ Outward { s with dir := u.dir } u) ∧
  (∀ x l, (∀ r ∈ x.rows, r.2.tag = dirTag r.2.tenant r.2.stream) →
    (lookupOutcome x l = .pending ↔ ∃ n r, (n, r) ∈ x.rows ∧ r.tenant = l.tenant ∧ r.stream = l.stream ∧ r.state = .pending) ∧
    (∀ rs, lookupOutcome x l = .rows rs →
      (∀ r, r ∈ rs ↔ ∃ n, (n, r) ∈ x.rows ∧ r.tenant = l.tenant ∧ r.stream = l.stream ∧ r.state = .valid ∧ r.low ≤ l.high ∧ l.low ≤ r.high) ∧
      rs.Sublist (x.rows.map Prod.snd) ∧ (RowsOrdered x.rows → rs.Pairwise (fun a b => a.low ≤ b.low)))) ∧
  (∀ s h req l, Tab.find (getHalf s h).lookups req = some l →
    Answers (.dirLookupRepeat h req) s fun u =>
      (∃ rs, Tab.find (getHalf u h).outcomes req = some (.rows rs)) ∧ Tab.find (getHalf u h).lookups req = none ∧ Inward s u)

/-- Staging and spreading (R141, R143, R145): a request enters the queue of 64, the first one is written while its stream has no PENDING row, the pass
spreads the rows evenly in their order (to which rows exactly is the model's own choice, log 14), a quiet window ends. -/
def Obligations.DirectoryStagesAndSpreads : Prop :=
  (∀ s h q r, (getHalf s h).waiting = q :: r → (getHalf s h).queue.length < 64 →
    exec (.dirStagingRequest h) s = .next (putHalf s h { getHalf s h with queue := (getHalf s h).queue ++ [q], waiting := r })) ∧
  (∀ s h, 64 ≤ (getHalf s h).queue.length → exec (.dirStagingRequest h) s = .next s) ∧
  (∀ s h q rest rows m, (getHalf s h).queue = q :: rest → (getHalf s h).rows.any (fun r => r.2.of q.tenant q.stream && r.2.state == .pending) = false →
    stageRow (getHalf s h).rows q.row = some (rows, m) →
    (∀ p, getCtx s q.ctx = some p → (p.step q.step).seqStatus = [] ∧ p.deadline = none ∧ ∀ o, (p.step q.step).outs = some o → o.plain = true) →
    Answers (.dirStage h) s fun u =>
      (getHalf u h).rows = rows ∧ (getHalf u h).queue = rest ∧ (getHalf u h).shiftMax = Nat.max (getHalf s h).shiftMax m ∧
      (∀ g, g ≠ h → getHalf u g = getHalf s g) ∧
      (∀ p, getCtx s q.ctx = some p → q.step < p.steps.length → (p.step q.step).phase = .running → (p.step q.step).seqs = 0 →
        (p.step q.step).stages = 1 → (p.step q.step).poll = false → StepDone u q.ctx q.step stOk 0) ∧
      Outward { s with dir := u.dir, pg := u.pg, nb := { s.nb with jobs := u.nb.jobs }, mem := { s.mem with err := u.mem.err, seenPoison := u.mem.seenPoison, mirrorLost := u.mem.mirrorLost } } u) ∧
  (∀ s h q rest, (getHalf s h).queue = q :: rest → (getHalf s h).rows.any (fun r => r.2.of q.tenant q.stream && r.2.state == .pending) = true →
    exec (.dirStage h) s = .next s) ∧
  (∀ s h, (getHalf s h).queue = [] → (getHalf s h).rows ≠ [] →
    Answers (.dirSpreadingPass h) s fun u =>
      (getHalf u h).rows.map Prod.snd = (getHalf s h).rows.map Prod.snd ∧
      (getHalf u h).rows.map Prod.fst = (List.range (getHalf s h).rows.length).map (fun i => i * 65536 / (getHalf s h).rows.length) ∧
      (∀ g, g ≠ h → getHalf u g = getHalf s g) ∧ Outward { s with dir := u.dir } u) ∧
  (∀ s h t st, (∀ c p, (c, p) ∈ s.pg.ctxs → p.state ≠ .committing) →
    exec (.dirQuietWindowEnd h t st) s = .next (putHalf s h { getHalf s h with quiet := (getHalf s h).quiet.filter (· != (t, st)) }))

/-- Staging keeps the order of the rows and only adds its row; it fails exactly where the half has no free row (R140, R141). -/
def Obligations.StagingKeepsTheRowsInOrder : Prop :=
  (∀ rows r rows' m, RowsOrdered rows → stageRow rows r = some (rows', m) →
    RowsOrdered rows' ∧ (rows'.map Prod.snd).Perm (r :: rows.map Prod.snd)) ∧
  (∀ rows r, RowsOrdered rows → (stageRow rows r = none ↔ rows.length = 65536))

/-! ### The memory tiers (07) -/

/-- Drains, copies, eviction and moves (R41, R161, R163, R164, R169, R170): granules that no ply reads any more are free; a sealed tile gets a copy at
two nodes, and another target where one does not answer; below the low watermark eligible tiles become REMOTE; a moved tile keeps its contents. -/
def Obligations.TilesMoveBetweenTiers : Prop :=
  (∀ s i d, Tab.find s.mem.drains i = some d → d.desc = none → (∀ p ∈ d.plies, Tab.find s.pg.plies p = none) →
    exec (.readsDrained i) s = .next { s with mem := { s.mem with drains := Tab.del s.mem.drains i } }) ∧
  (∀ s i d p x, Tab.find s.mem.drains i = some d → p ∈ d.plies → Tab.find s.pg.plies p = some x → x.issued.isSome = true →
    exec (.readsDrained i) s = .next s) ∧
  (∀ s o x a b l, getTile s o = some x → running s = true → copyDue s x = true → readTile s o = (false, s) → (targetsOf s x).filter (reachable s) = a :: b :: l →
    Answers (.t2CopyStart o) s fun t =>
      getTile t o = some { x with tier := .copying, objKey := objectKey (ownId s) s.mem.nextObj, replicas := [⟨a, false, s.time⟩, ⟨b, false, s.time⟩] } ∧
      (∀ n, n ≠ o → getTile t n = getTile s n) ∧
      Outward { s with mem := { s.mem with tiles := t.mem.tiles, nextObj := s.mem.nextObj + 1 } } t) ∧
  (∀ s o n x r, getTile s o = some x → x.replicas.find? (fun r => r.node == n && !r.acked) = some r → x.tier = .copying ∨ x.tier = .backed →
    effRole s ≠ roleShadow → x.body ≠ [] → readTile (reach s (r.at' + 2000000)) o = (false, reach s (r.at' + 2000000)) →
    Answers (.t2CopyTimeout o n) s fun t =>
      (∃ y, getTile t o = some y ∧ y = { x with replicas := y.replicas } ∧ y.replicas.take (y.replicas.length - 1) = x.replicas.filter (fun z => z.node != n)) ∧
      t.time = (reach s (r.at' + 2000000)).time ∧ Outward { s with time := t.time, mem := { s.mem with tiles := t.mem.tiles } } t) ∧
  (∀ s o n x r, getTile s o = some x → x.replicas.find? (fun r => r.node == n && !r.acked) = some r → x.body = [] ∨ effRole s = roleShadow →
    readTile (reach s (r.at' + 2000000)) o = (false, reach s (r.at' + 2000000)) ∨ x.body = [] →
    exec (.t2CopyTimeout o n) s = .next (reach s (r.at' + 2000000))) ∧
  (∀ s die, running s = true → lowMark s die ≤ freePool s die → exec (.eviction die) s = .next s) ∧
  (∀ s die, running s = true → freePool s die < lowMark s die → s.mem.tiles.keys.Nodup →
    Answers (.eviction die) s fun t =>
      (∀ o x, getTile s o = some x → eligible s o x = false → getTile t o = some x) ∧
      (∀ o x, getTile s o = some x → getTile t o = some x ∨ getTile t o = some { x with tier := .remote, body := [], unread := [] }) ∧
      Outward { s with mem := { s.mem with tiles := t.mem.tiles, evictAge := t.mem.evictAge } } t) ∧
  (∀ s o x, getTile s o = some x → running s = true → x.body ≠ [] → x.isSealed = true → x.poisoned = false → x.tier ≠ .fetching → readTile s o = (false, s) →
    poolFits s (1 - x.die) (tileGranules x) true = true →
    Answers (.interDieMove o) s fun t =>
      (∃ y, getTile t o = some y ∧ y = { x with die := 1 - x.die, body := y.body, hdr := y.hdr } ∧ y.body.length = tileGranules x) ∧
      (∀ n, n ≠ o → getTile t n = getTile s n) ∧ t.dir = s.dir ∧ t.pg = s.pg ∧ Inward s t)

/-- Fetches (R175 to R177): pieces that a replica has not given in time are asked of the next one; without any left the fetch waits for its next round,
1 ms later, which begins anew while something depends on it and gives the object up otherwise (the model's own
reading, log 32). A piece that arrives good from one of the replicas is kept
(R215); a DATA message of another request, of no replica, or of an object nothing asked for changes nothing. -/
def Obligations.FetchesAreRetried : Prop :=
  (∀ s k f, Tab.find s.mem.fetches k = some f → f.retryAt.isSome = true → exec (.fetchAttemptTimeout k) s = .next s) ∧
  (∀ s k f, Tab.find s.mem.fetches k = some f → f.retryAt = none → f.pieces = 1 → f.got = [] → f.failed = [] → f.goneFrom = [] → f.cur = 0 →
    2 ≤ f.replicas.length →
    Answers (.fetchAttemptTimeout k) s fun t =>
      (∃ g, Tab.find t.mem.fetches k = some g ∧ g.cur = 1 ∧ g.failed = [(0, 0)] ∧ g.retryAt = none ∧ g.asked = t.time) ∧
      t.time = (reach s (f.asked + 500000)).time ∧ Outward { s with time := t.time, mem := { s.mem with fetches := t.mem.fetches } } t) ∧
  (∀ s k f, Tab.find s.mem.fetches k = some f → f.retryAt = none → f.pieces = 1 → f.got = [] → f.failed = [] → f.goneFrom = [] → f.cur = 0 →
    f.poisonFrom = [] → f.replicas.length = 1 →
    Answers (.fetchAttemptTimeout k) s fun t =>
      (∃ g, Tab.find t.mem.fetches k = some g ∧ g.retryAt = some (t.time + 1000000) ∧ g.round = f.round + 1) ∧
      t.time = (reach s (f.asked + 500000)).time ∧ Outward { s with time := t.time, mem := { s.mem with fetches := t.mem.fetches } } t) ∧
  (∀ s k f t0, Tab.find s.mem.fetches k = some f → f.key = k → f.retryAt = some t0 → dependsOn (reach s t0) f = true →
    Answers (.fetchRetryRound k) s fun t =>
      (∃ g, Tab.find t.mem.fetches k = some g ∧ g.cur = 0 ∧ g.failed = [] ∧ g.goneFrom = [] ∧ g.answered = [] ∧ g.retryAt = none ∧ g.got = f.got) ∧
      t.time = (reach s t0).time ∧ Outward { s with time := t.time, mem := { s.mem with fetches := t.mem.fetches } } t) ∧
  (∀ s k f t0 o x, Tab.find s.mem.fetches k = some f → f.key = k → f.retryAt = some t0 → dependsOn (reach s t0) f = false → f.obj = .tile o →
    getTile s o = some x → x.tier = .fetching →
    exec (.fetchRetryRound k) s = .next
      { (reach s t0) with
               mem := { s.mem with fetches := Tab.del s.mem.fetches k, tiles := Tab.put s.mem.tiles o { x with tier := .remote, body := [] } } }) ∧
  (∀ s n b f p d, hears s = true → effRole s ≠ roleUnplaced → 32 ≤ b.length → (tierMsgOf b).op = 4 → (tierMsgOf b).result = 0 →
    Tab.find s.mem.fetches (tierMsgOf b).obj = some f → (tierMsgOf b).req = f.req → f.replicas.contains n = true → f.retryAt = none →
    cutPieces (tierMsgOf b).body = [p] → checkPiece p = some d →
    missingPieces { f with got := Tab.put f.got (tierMsgOf b).first d } ≠ [] →
    Answers (.tierData n b) s fun t =>
      (∃ r, f.replicas.getD r 0 = n ∧ Tab.find t.mem.fetches (tierMsgOf b).obj =
        some { f with got := Tab.put f.got (tierMsgOf b).first d, answered := dedup (r :: f.answered), asked := s.time }) ∧
      getCtr t (.tier 4) = satAdd 64 (getCtr s (.tier 4)) d.length ∧
      t = { s with ctr := t.ctr, mem := { s.mem with fetches := t.mem.fetches } } ∧
      ∀ k, k ≠ (tierMsgOf b).obj → Tab.find t.mem.fetches k = Tab.find s.mem.fetches k) ∧
  (∀ s n b f, hears s = true → effRole s ≠ roleUnplaced → Tab.find s.mem.fetches (tierMsgOf b).obj = some f → (tierMsgOf b).req ≠ f.req ∨ f.replicas.contains n = false ∨ f.retryAt.isSome = true →
    exec (.tierData n b) s = .next s) ∧
  (∀ s n b, hears s = true → effRole s ≠ roleUnplaced → Tab.find s.mem.fetches (tierMsgOf b).obj = none → wantsObject s n (tierMsgOf b).obj = none → exec (.tierData n b) s = .next s)

/-- The pool role's side of TIER messages (R375, R376): a PUT is stored and answered OK, or answered with the code of what stands against it; a GET is
answered with the pieces asked for or NOT_HELD, a RELEASE frees the object; a copy acknowledged twice makes its tile BACKED; the late acknowledgement
of a cancelled copy releases it (R164 to R166), and one for a removed tenant is discarded (R413). An unplaced node drops what concerns pools and moves, and
counts it (R368), and so does one under a control reset (R433). -/
def Obligations.PoolServesTierMessages : Prop :=
  (∀ s n b, hears s = true → 32 ≤ b.length → (tierMsgOf b).op = 1 → effRole s ≠ rolePool → effRole s ≠ roleUnplaced →
    exec (.tierPut n b) s = .next (tierAnswer s n (imageTenant (tierMsgOf b).body) none (tierHeader 2 4 (tierMsgOf b).granules (tierMsgOf b).obj 0 (tierMsgOf b).req))) ∧
  (∀ s n b, hears s = true → 32 ≤ b.length → (tierMsgOf b).op = 1 → effRole s = rolePool → (Tab.find s.fab.poolObjs (tierMsgOf b).obj).isSome = true →
    exec (.tierPut n b) s = .next (tierAnswer s n (imageTenant (tierMsgOf b).body) none (tierHeader 2 3 (tierMsgOf b).granules (tierMsgOf b).obj 0 (tierMsgOf b).req))) ∧
  (∀ s n b, hears s = true → 32 ≤ b.length → (tierMsgOf b).op = 1 → effRole s = rolePool → Tab.find s.fab.poolObjs (tierMsgOf b).obj = none →
    (tierMsgOf b).granules ≠ 0 → (cutPieces (tierMsgOf b).body).length = (tierMsgOf b).granules →
    (∀ p ∈ cutPieces (tierMsgOf b).body, (checkPiece p).isSome = true) → poolRoom s (roomierDie s) (tierMsgOf b).granules = true →
    Answers (.tierPut n b) s fun t =>
      (∃ gs, Tab.find t.fab.poolObjs (tierMsgOf b).obj = some (gs, ((cutPieces (tierMsgOf b).body).map (fun p => (checkPiece p).getD [])).flatten) ∧
        gs.length = (tierMsgOf b).granules) ∧
      (∀ k, k ≠ (tierMsgOf b).obj → Tab.find t.fab.poolObjs k = Tab.find s.fab.poolObjs k) ∧
      Outward { s with fab := { s.fab with poolObjs := t.fab.poolObjs }, mem := { s.mem with err := t.mem.err, seenPoison := t.mem.seenPoison } } t) ∧
  (∀ s n b, hears s = true → effRole s ≠ roleUnplaced → 32 ≤ b.length → (tierMsgOf b).op = 3 → Tab.find s.fab.poolObjs (tierMsgOf b).obj = none →
    Tab.find s.fab.served (tierMsgOf b).obj = none →
    exec (.tierGet n b) s = .next (tierAnswer s n none none (tierHeader 4 1 0 (tierMsgOf b).obj (tierMsgOf b).first (tierMsgOf b).req))) ∧
  (∀ s n b x, hears s = true → effRole s ≠ roleUnplaced → 32 ≤ b.length → (tierMsgOf b).op = 3 → Tab.find s.fab.poolObjs (tierMsgOf b).obj = none →
    Tab.find s.fab.served (tierMsgOf b).obj = some x →
    (let out := ((cutPieces x.2).drop (tierMsgOf b).first).take (tierMsgOf b).granules
     exec (.tierGet n b) s =
       .next (tierAnswer s n (some x.1) none (tierHeader 4 0 out.length (tierMsgOf b).obj (tierMsgOf b).first (tierMsgOf b).req ++ out.flatten)))) ∧
  (∀ s n b, hears s = true → effRole s ≠ roleUnplaced → 32 ≤ b.length → (tierMsgOf b).op = 5 →
    Answers (.tierRelease n b) s fun t =>
      Tab.find t.fab.poolObjs (tierMsgOf b).obj = none ∧ (∀ k, k ≠ (tierMsgOf b).obj → Tab.find t.fab.poolObjs k = Tab.find s.fab.poolObjs k) ∧
      Outward { s with fab := { s.fab with poolObjs := t.fab.poolObjs } } t) ∧
  (∀ s n b, hears s = true → effRole s ≠ roleUnplaced → exec (.tierReleaseAck n b) s = .next s) ∧
  (∀ s n m b o x, hears s = true → effRole s ≠ roleUnplaced → 32 ≤ b.length → (tierMsgOf b).op = 2 → (tierMsgOf b).result = 0 ∨ (tierMsgOf b).result = 3 →
    s.mem.tiles.find? (fun t => t.2.objKey == (tierMsgOf b).obj && t.2.replicas.any (fun r => r.node == n && !r.acked)) = some (o, x) →
    getTile s o = some x → x.tier = .copying → x.replicas = [⟨n, false, 0⟩, ⟨m, true, 0⟩] → gone s x.tenant = false →
    Answers (.tierPutAck n b) s fun t =>
      (∃ y, getTile t o = some y ∧ y.tier = .backed ∧ (∀ r ∈ y.replicas, r.acked = true)) ∧ (∀ k, k ≠ o → getTile t k = getTile s k) ∧
      t = { s with mem := { s.mem with tiles := t.mem.tiles } }) ∧
  (∀ s n b x, hears s = true → effRole s ≠ roleUnplaced → 32 ≤ b.length → (tierMsgOf b).op = 2 → (tierMsgOf b).result = 0 ∨ (tierMsgOf b).result = 3 →
    s.mem.tiles.find? (fun t => t.2.objKey == (tierMsgOf b).obj && t.2.replicas.any (fun r => r.node == n && !r.acked)) = none →
    s.mem.cancelled.find? (fun x => x.2.1 == (tierMsgOf b).obj && x.2.2 == n) = some x → gone s x.1 = false →
    Answers (.tierPutAck n b) s fun t =>
      t.mem.cancelled = s.mem.cancelled.filter (· != x) ∧ Outward { s with mem := { s.mem with cancelled := t.mem.cancelled } } t) ∧
  (∀ s n b o x, hears s = true → effRole s ≠ roleUnplaced →
    s.mem.tiles.find? (fun t => t.2.objKey == (tierMsgOf b).obj && t.2.replicas.any (fun r => r.node == n && !r.acked)) = some (o, x) →
    (getTenant s x.tenant).state = .tombstone → exec (.tierPutAck n b) s = .next s) ∧
  (∀ s n b (c : Instr), c ∈ [.tierPut n b, .tierPutAck n b, .tierGet n b, .tierData n b, .tierRelease n b, .tierReleaseAck n b, .migrationOffer n b,
      .migrationAnswer n b] →
    (hears s = true → effRole s = roleUnplaced → exec c s = .next (bump s (.seatStat (seatOf s n) 12))) ∧
    (running s = true → hears s = false → exec c s = .next (bump s (.seatStat (seatOf s n) (chk 6)))))

/-- Migration (R179, R180, R368, R383): a node that serves on a board sends the neighbour a MIGRATION_OFFER first, and moves nothing; without an answer in
1 ms, or with one, it proposes the move within 16 proposals a second, and not in the SHADOW role; a proposal lapses 1 s after it was sent; an offered
node answers whether it is willing. That the payload of R180 follows the message's first byte at once is the model's choice (log 32), as is when reason 3
holds (log 72). -/
def Obligations.MigrationIsProposed : Prop :=
  (∀ s r te st n, serving s = true → placed s = true → effRole s ≠ roleShadow → Tab.find s.fab.proposals (te, st) = none →
    Tab.find s.fab.withdrawn (te, st) = none → reasonHolds s r te = true → neighbour s n = true →
    Answers (.migrationCondition r te st n) s fun t =>
      Tab.find t.fab.proposals (te, st) = some ⟨r, n, s.fab.nextProposal, s.time, false⟩ ∧ t.fab.nextProposal = s.fab.nextProposal + 1 ∧
      (∀ k, k ≠ (te, st) → Tab.find t.fab.proposals k = Tab.find s.fab.proposals k) ∧ t.ev = s.ev ∧
      (let p : Proposal := ⟨r, n, s.fab.nextProposal, s.time, false⟩
       let u := { s with fab := { s.fab with nextProposal := t.fab.nextProposal, proposals := t.fab.proposals, withdrawn := t.fab.withdrawn } }
       t = sendMsg u n 7 te 7 (migrationMessage 2 (migrationPayload s te st p 0))) ∧
      Outward { s with fab := { s.fab with nextProposal := t.fab.nextProposal, proposals := t.fab.proposals, withdrawn := t.fab.withdrawn } } t) ∧
  (∀ s te st p, running s = true → Tab.find s.fab.proposals (te, st) = some p → p.sent = false →
    proposalRoom (reach s (p.at' + 1000000)) = true → effRole s ≠ roleShadow →
    Answers (.migrationAnswerTimeout te st) s fun t =>
      t.time = (reach s (p.at' + 1000000)).time ∧ Tab.find t.fab.proposals (te, st) = some { p with sent := true, at' := t.time } ∧
      t.ev.nextSeq = (s.ev.nextSeq + 1) % 2 ^ 32 ∧ t.mem = s.mem ∧ t.pg = s.pg ∧ t.dir = s.dir ∧ t.boot = s.boot) ∧
  (∀ s te st p n b, hears s = true → effRole s ≠ roleUnplaced → Tab.find s.fab.proposals (te, st) = some p → p.sent = false → p.target = n → leAt b 0 1 = 3 →
    leAt (b.drop 1) 4 4 % 4096 = te → leAt (b.drop 1) 8 4 = st → leAt (b.drop 1) 24 8 = p.id → leAt (b.drop 1) 1 1 = 1 ∨ leAt (b.drop 1) 1 1 = 2 →
    proposalRoom s = true → effRole s ≠ roleShadow →
    Answers (.migrationAnswer n b) s fun t =>
      Tab.find t.fab.proposals (te, st) = some { p with sent := true, at' := s.time } ∧ t.time = s.time ∧
      t.ev.nextSeq = (s.ev.nextSeq + 1) % 2 ^ 32 ∧ t.mem = s.mem ∧ t.pg = s.pg ∧ t.dir = s.dir ∧ t.boot = s.boot) ∧
  (∀ s te st p, Tab.find s.fab.proposals (te, st) = some p → p.sent = true →
    Answers (.migrationWithdraw te st) s fun t =>
      t.time = (reach s (p.at' + 1000000000)).time ∧ Tab.find t.fab.proposals (te, st) = none ∧
      Tab.find t.fab.withdrawn (te, st) = some t.time ∧ getCtr t (.migrate 1) = satAdd 64 (getCtr s (.migrate 1)) 1 ∧
      Outward { s with time := t.time, fab := { s.fab with proposals := t.fab.proposals, withdrawn := t.fab.withdrawn } } t) ∧
  (∀ s n b, hears s = true → effRole s ≠ roleUnplaced → leAt b 0 1 = 2 → 33 ≤ b.length →
    exec (.migrationOffer n b) s = .next (sendMsg s n 7 (leAt (b.drop 1) 4 4 % 4096) 7
      (migrationMessage 3 (patch ((b.drop 1).take 32) 1 [if willing s (leAt (b.drop 1) 20 4) then 1 else 2]))))

/-! ### Seats (13, 19) -/

/-- Training and the link (R317, R323, R326, R482): an enabled seat with its reference trains; a DIRECT seat then enters HELLO with its first hello due
within 50 ms, a SWITCH seat enters UP with SEAT_UP; a failed training is tried again 100 ms later while ENABLE is 1; a lost link is DOWN with
SEAT_DOWN; a seat reference takes its three seats down and lets the enabled ones train again. Every other seat stays as it is. -/
def Obligations.SeatsTrainAndFall : Prop :=
  (∀ s i, started s = true → i < 6 → refPresent s i = true →
    Answers (.seatEnable i) s fun t =>
      (getSeat t i).enable = true ∧ (getSeat t i).state = seatTraining ∧ (getSeat t i).retryAt = none ∧ SeatFrame s t i) ∧
  (∀ s i, inTraining s i = true → (getSeat s i).partnerKind = false →
    Answers (.trainingComplete i) s fun t =>
      (∃ d, d ≤ 50000000 ∧
        getSeat t i = { (getSeat s i) with state := seatHello, helloCount := 0, helloDue := some (s.time + d) }) ∧
      SeatFrame s t i ∧ t.ev = s.ev ∧ t.net = s.net ∧ t.tr = s.tr ∧ t.ctr = s.ctr) ∧
  (∀ s i, inTraining s i = true → (getSeat s i).partnerKind = true →
    Answers (.trainingComplete i) s fun t =>
      (getSeat t i).state = seatUp ∧ (getSeat t i).lastRx = s.time ∧
      Raised s t evSeatUp (seatPayload i 0 (getSeat s i).nodeId (boardVer s)) ∧ SeatFrame s t i) ∧
  (∀ s i, inTraining s i = true →
    exec (.trainingFailed i) s = .next (updSeat s i (fun x => { x with retryAt := some (s.time + 100000000) }))) ∧
  (∀ s i t0, started s = true → i < 6 → (getSeat s i).retryAt = some t0 →
    Answers (.trainingRetry i) s fun t =>
      t.time = (reach s t0).time ∧ (getSeat t i).retryAt = none ∧
      (getSeat t i).state = (if (getSeat s i).enable && refPresent s i then seatTraining else seatDown) ∧ SeatFrame (reach s t0) t i) ∧
  (∀ s i, linkUp s i = true → i < 6 →
    Answers (.linkLoss i) s fun t =>
      (getSeat t i).state = seatDown ∧ (getSeat t i).nodeId = 0xFFFF ∧ SeatFrame s t i ∧
      ((getSeat s i).state = seatUp → Raised s t evSeatDown (seatPayload i 1 (getSeat s i).nodeId (boardVer s))) ∧
      ((getSeat s i).state ≠ seatUp → t.ev = s.ev)) ∧
  (∀ s r, s.boot.powered = true → r < 2 → s.mon.seatLost.contains r = false →
    Answers (.seatRefclkLost r) s fun t =>
      t.mon = { s.mon with seatLost := r :: s.mon.seatLost } ∧ (∀ i, i < 6 → i / 3 = r → (getSeat t i).state = seatDown) ∧
      (∀ i, i / 3 ≠ r → getSeat t i = getSeat s i) ∧ Outward { s with mon := t.mon } t) ∧
  (∀ s r, started s = true → s.mon.seatLost.contains r = true →
    Answers (.seatRefclkReturn r) s fun t =>
      t.mon.seatLost = s.mon.seatLost.filter (· ≠ r) ∧
      (∀ i, i < 6 → i / 3 = r → (getSeat s i).enable = true → (getSeat t i).state = seatTraining) ∧
      (∀ i, i / 3 ≠ r ∨ (getSeat s i).enable = false → getSeat t i = getSeat s i) ∧ Outward { s with mon := { s.mon with seatLost := t.mon.seatLost } } t)

/-- Hello and keepalive (R324 to R326, R367): a seat in HELLO sends a hello with a fresh nonce, the next one an interval later, 1 s doubled after every
eighth up to 8 s; a hello or the answer to its own nonce with a version in common brings the seat to UP with what the partner said; one without
is counted; UP sends a KEEPALIVE after 1 ms, with HOPS 255 as any originator's frame has it (R339) and the partner's latest TSVAL (R327), and
after 8 ms without a good frame the partner is lost (a good frame is one whose FCS and codewords pass: the model's reading, log 53). -/
def Obligations.HellosBringSeatsUp : Prop :=
  (helloInterval 0 = 1000000000 ∧ ∀ n, helloInterval (n + 8) = Nat.min 8000000000 (2 * helloInterval n)) ∧
  (∀ s i t0, linkUp s i = true → i < 6 → (getSeat s i).partnerKind = false → (getSeat s i).state = seatHello →
    (getSeat s i).helloDue = some t0 →
    Answers (.helloTimer i) s fun t =>
      t.time = (reach s t0).time ∧ (∃ nonce, nonce < 2 ^ 32 ∧
        getSeat t i = { (getSeat s i) with nonce := some nonce, helloCount := (getSeat s i).helloCount + 1,
                                           helloDue := some (t.time + helloInterval ((getSeat s i).helloCount + 1)) }) ∧
      SeatFrame (reach s t0) t i ∧ t.ev = s.ev) ∧
  (∀ s i f u rx, receive s i f = (u, some rx) → i < 6 → rx.hdr.type = ftHello → rx.hdr.dst = 0xFFFF → rx.payload.length = 32 →
    (getSeat s i).partnerKind = false →
    leAt rx.payload 0 1 = 0 ∨ (leAt rx.payload 0 1 = 1 ∧ (getSeat u i).nonce = some (leAt rx.payload 20 4)) →
    (offerVersions (getSeat u i) &&& leAt rx.payload 12 4 % 4 ≠ 0 →
      Answers (.hello i f) s fun t =>
        (getSeat t i).state = seatUp ∧ (getSeat t i).nodeId = leAt rx.payload 4 2 ∧ (getSeat t i).unitId = BitVec.ofNat 64 (leAt rx.payload 24 8) ∧
        (getSeat t i).role = fld (leAt rx.payload 0 4) 19 16 ∧
        (getSeat t i).version = (if 2 ≤ offerVersions (getSeat u i) &&& leAt rx.payload 12 4 % 4 then 2 else 1) ∧
        (getSeat t i).partnerMac = rx.srcMac ∧ (getSeat t i).partnerIp = rx.srcIp ∧ SeatFrame s t i) ∧
    (offerVersions (getSeat u i) &&& leAt rx.payload 12 4 % 4 = 0 → exec (.hello i f) s = .next (bump (noteSeen u rx) (.seatStat i 14)))) ∧
  (∀ s i f, linkUp s i = true →
    Answers (.keepalive i f) s fun t =>
      (getSeat t i).lastRx = (if f.fcsOk && f.fecOk then s.time else (getSeat s i).lastRx) ∧
      getCtr t (.seatStat i 0) = satAdd 64 (getCtr s (.seatStat i 0)) 1 ∧
      SeatFrame { s with health := t.health } t i ∧
      (f.fecOk = true → t.health = s.health ∧ t.ev = s.ev) ∧
      (f.fecOk = false → t.health = (addHealth s false f.fecUncorr).health ∧ t.ev = (addHealth s false f.fecUncorr).ev ∧
        getCtr t (.seatFec i 1) = satAdd 64 (getCtr s (.seatFec i 1)) f.fecUncorr)) ∧
  (∀ s i, directUp s i = true →
    Answers (.keepaliveTimer i) s fun t =>
      t.time = (reach s ((getSeat s i).lastTx + 1000000)).time ∧ Outward { s with time := t.time } t ∧ t.seats = s.seats ∧ t.ev = s.ev ∧
      (∃ h, t = originate { s with time := t.time } i (getSeat s i).partnerMac (getSeat s i).partnerIp 7 commonQ h [] ∧
        h.type = ftKeepalive ∧ h.dst = 0xFFFF ∧ h.hops = 255 ∧ h.tsecr = (getSeat s i).tsRecent)) ∧
  (∀ s i, directUp s i = true →
    Answers (.partnerLost i) s fun t =>
      t.time = (reach s ((getSeat s i).lastRx + 8000000)).time ∧ (getSeat t i).state = seatHello ∧ (getSeat t i).nodeId = 0xFFFF ∧
      (getSeat t i).helloDue = some (t.time + helloInterval (getSeat s i).helloCount) ∧
      Raised (reach s ((getSeat s i).lastRx + 8000000)) t evSeatDown (seatPayload i 2 (getSeat s i).nodeId (boardVer s)) ∧
      SeatFrame (reach s ((getSeat s i).lastRx + 8000000)) t i)

/-! ### The transport and traffic (13, 14) -/

/-- The 48 bytes of a transport header carry every field of R327: a header whose fields fit their widths is read back as it was written, whatever
follows it, and no byte of a header without reserved bits is lost. -/
def Obligations.TransportHeadersReadBack : Prop :=
  (∀ (h : THdr) (rest : List Byte), h.ver < 256 → h.type < 256 → h.flags < 65536 → h.src < 65536 → h.dst < 65536 → h.boardVer < 2 ^ 32 →
    h.hops < 256 → h.msgType < 256 → h.tenant < 4096 → h.seq < 2 ^ 32 → h.ack < 2 ^ 32 → h.msgId < 2 ^ 32 → h.msgLen < 2 ^ 32 →
    h.fragOff < 2 ^ 32 → h.plen < 65536 → h.tsval < 2 ^ 32 → h.tsecr < 2 ^ 32 →
    headerOf (headerBytes h ++ rest) = h ∧ (headerBytes h).length = 48) ∧
  (∀ bs : List Byte, 48 ≤ bs.length → headerReserved bs = false → headerBytes (headerOf bs) = bs.take 48)

/-- Timers of a peer (R331 to R333, R337): the acknowledgement goes 2 µs after ACK_NOW or 5 µs after the oldest unacknowledged frame, with what is
received in order, the window (the peer's share of it a free value, log 19), the bytes since the last one and the ranges received above; an RTO expiry sends
the oldest frame again with RETX, doubles RTO, halves the rate, which never exceeds that of the seat that leads to the peer; 50 µs without a decrease
raise it by 1 %; 100 ms without an acknowledgement make the peer unreachable, after which the tiles with a copy there are looked at (R377). Smoothing takes weights 1/8 and 1/4, and RTO stays within 20 µs to 10 ms after a sample. -/
def Obligations.PeerTimers : Prop :=
  (∀ s k p n hop now due, getPeer s k = some p → p.unacked ≠ 0 → p.oldestUnacked = some now →
    due = (match p.ackNowAt with | some a => Nat.min a (now + 5000) | none => now + 5000) →
    p.recvNext = some n → routeTo (reach s due) k = some hop →
    Answers (.ackTimer k) s fun t =>
      t.time = (reach s due).time ∧ getPeer t k = some { (ackedNow p) with recvBytes := 0, eceBytes := 0 } ∧ PeerFrame (reach s due) t k ∧
      t = originateAck (putPeer (reach s due) k { (ackedNow p) with recvBytes := 0, eceBytes := 0 }) hop k ((n + 2 ^ 32 - 1) % 2 ^ 32) true p.tsRecent
        (ackPayload (Config.windowShare k (reasmFree (reach s due) (seatDie p.seat)) % 2 ^ 32) p.recvBytes p.eceBytes false
          ((sackRanges ((n + 2 ^ 32 - 1) % 2 ^ 32) p.recvAbove).take (if seatFeature (reach s due) hop.seat 2 then 8 else 4)))) ∧
  (∀ s k p f r, getPeer s k = some p → p.inflight = f :: r → hears s = true →
    Answers (.rtoExpiry k) s fun t =>
      t.time = (reach s (f.at' + p.rto)).time ∧
      (∃ q, getPeer t k = some q ∧ q.rto = 2 * p.rto ∧ q.rate = clampRate (seatRate s (leadSeat s k p.seat)) (rateOf s k p / 2)) ∧
      getCtr t (.transport 1) = satAdd 64 (getCtr s (.transport 1)) 1 ∧ PeerFrame (reach s (f.at' + p.rto)) t k) ∧
  (∀ s k p f r p1 m hop, getPeer s k = some p → p.inflight = f :: r → hears s = true →
    p1 = { p with rto := 2 * p.rto, rate := clampRate (seatRate s (leadSeat s k p.seat)) (rateOf s k p / 2), rateAt := (reach s (f.at' + p.rto)).time } →
    p.out.find? (fun m => decide (m.id = f.msg)) = some m → routeMsg (putPeer (reach s (f.at' + p.rto)) k p1) k m.type = some hop →
    ∃ p2, exec (.rtoExpiry k) s = .next (bump (bump (originate (putPeer (reach s (f.at' + p.rto)) k p2) hop.seat hop.mac hop.ip m.cls
      (msgQueue m.type m.tenant) (fragHdr (putPeer (reach s (f.at' + p.rto)) k p1) k p1 m hop.seat f.seq f.off f.len true f.syn)
      (slice m.bytes f.off f.len)) (.transport 0)) (.transport 1))) ∧
  (∀ s k p, getPeer s k = some p →
    exec (.rateIncrease k) s = .next (putPeer (reach s (p.rateAt + 50000)) k { p with
      rate := clampRate (seatRate s (leadSeat s k p.seat)) (rateOf s k p + seatRate s (leadSeat s k p.seat) / 100),
      rateAt := (reach s (p.rateAt + 50000)).time })) ∧
  (∀ s k p, getPeer s k = some p → p.inflight ≠ [] → running s = true →
    ∃ u, exec (.peerUnreachable k) s = .next (allReplicas u) ∧
      u.time = (reach s (p.lastAck + 100000000)).time ∧
      Raised (reach s (p.lastAck + 100000000)) u evPeerUnreachable (seatPayload p.seat 0 (keyNode k) (boardVer s)) ∧
      (hostLink s = none → getPeer u k = none ∧ (∀ j, j ≠ k → getPeer u j = getPeer s j)) ∧ k ∈ u.net.unreachable ∧
      getCtr u (.transport 4) = satAdd 64 (getCtr s (.transport 4)) 1 ∧
      Outward { s with time := u.time, fab := { s.fab with own := u.fab.own } } u ∧
      ((∀ x ∈ s.mem.tiles, x.2.replicas = []) → allReplicas u = u)) ∧
  (∀ p rtt, ∃ v, (rttSample p rtt).rttvar = v ∧ 20000 ≤ (rttSample p rtt).rto ∧ (rttSample p rtt).rto ≤ 10000000 ∧
    (∀ sr, p.srtt = some sr → (rttSample p rtt).srtt = some ((7 * sr + rtt) / 8) ∧
      v = (3 * p.rttvar + ((sr - rtt) + (rtt - sr))) / 4))

/-- Frames received (R330 to R332, R337): an ACK of this node's is what the peer's acknowledgement does; a DATA frame that is next in its sequence advances it and
is counted for the next ACK; one without SYN from an unknown peer is answered with RESET and dropped. -/
def Obligations.ReceivedFramesAreSequenced : Prop :=
  (∀ s i f u rx, receive s i f = (u, some rx) → hears s = true → rx.hdr.type = ftAck → rx.hdr.dst = ownId s ∨ rx.hdr.dst = 0xFFFF →
    16 ≤ rx.payload.length →
    exec (.ackFrame i f) s = .next (takeAck (noteSeen u rx) (peerKey rx.hdr.src i) (ackOf rx))) ∧
  (∀ s k p a, getPeer s k = some p → a.valid = true → a.full = true → a.reset = false → 0 < a.ece → 0 < a.recv →
    p.rateCutAt = none → a.tsecr = 0 →
    ∃ q, getPeer (takeAck s k a) k = some q ∧ q.window = some a.window ∧ q.rateCutAt = some s.time ∧
      q.rate = clampRate (seatRate s (leadSeat s k p.seat)) (rateOf s k p - rateOf s k p * a.ece / (2 * a.recv)) ∧
      ((∀ m ∈ p.out, m.sent = m.bytes.length) → ∀ x ∈ q.inflight, notLater x.seq a.ack = false) ∧ PeerFrame s (takeAck s k a) k) ∧
  (∀ s i f u rx p n, receive s i f = (u, some rx) → s.rst.ctlRunning = false → forNode u rx.hdr = true → rx.hdr.msgType ≠ 1 →
    rx.hdr.ackValid = false → rx.hdr.syn = false → getPeer u (peerKey rx.hdr.src rx.seat) = some p → p.recvNext = some n → n < 2 ^ 32 →
    rx.hdr.seq = n → p.recvAbove = [] → p.unacked + 1 < 16 → p.reasm.find? (fun m => decide (m.id = rx.hdr.msgId)) = none →
    rx.payload.length < rx.hdr.msgLen → (∃ l, msgLimit rx.hdr.msgType = some l ∧ rx.hdr.msgLen ≤ l) →
    rx.hdr.msgLen ≤ reasmFree u (seatDie rx.seat) →
    Answers (.dataFrame i f) s fun t =>
      ∃ q, getPeer t (peerKey rx.hdr.src rx.seat) = some q ∧ q.recvNext = some ((n + 1) % 2 ^ 32) ∧ q.unacked = p.unacked + 1 ∧
        q.recvBytes = p.recvBytes + rx.payload.length ∧ q.eceBytes = p.eceBytes + (if rx.tos % 4 = 3 then rx.payload.length else 0) ∧
        t = putPeer (noteSeen u rx) (peerKey rx.hdr.src rx.seat) q) ∧
  (∀ s i f u rx, receive s i f = (u, some rx) → s.rst.ctlRunning = false → forNode u rx.hdr = true → rx.hdr.msgType ≠ 1 →
    rx.hdr.syn = false → getPeer u (peerKey rx.hdr.src rx.seat) = none →
    Answers (.dataFrame i f) s fun t =>
      getPeer t (peerKey rx.hdr.src rx.seat) = none ∧ getCtr t (.transport 2) = satAdd 64 (getCtr u (.transport 2)) 1 ∧
      PeerFrame (noteSeen u rx) t (peerKey rx.hdr.src rx.seat) ∧
      ∀ hop, answerHop (noteSeen u rx) (peerKey rx.hdr.src rx.seat) rx = some hop →
        t = bump (originateAck (noteSeen u rx) hop (peerKey rx.hdr.src rx.seat) 0 false rx.hdr.tsval (ackPayload 0 0 0 true [])) (.transport 2))

/-- Pauses, departures, forwarding (R318, R321, R339, R353, R356, R361): PFC pauses and resumes the enabled priorities it names; a seat starts the head
frame of the queue the scheduler chose; a frame for another node goes to the common queue of its class at the next hop, its drops counted. -/
def Obligations.FramesLeaveAndPass : Prop :=
  (∀ s i f, linkUp s i = true → f.fcsOk = true → f.fecOk = true → 64 ≤ frameLen f.bytes → frameLen f.bytes ≤ 9216 → isPfc f.bytes = true →
    Answers (.pfcFrame i f) s fun t =>
      (getSeat t i).pfcRx = satAdd 16 (getSeat s i).pfcRx 1 ∧ SeatFrame s t i ∧ t.net = s.net ∧ t.tr = s.tr ∧ t.ev = s.ev ∧
      ∀ p, (p ∈ (getSeat t i).paused.keys ↔
        if p < 8 ∧ bitN (beAt f.bytes 16 2) p = true ∧ pfcEnabled (getSeat s i) p = true then beAt f.bytes (18 + 2 * p) 2 ≠ 0
        else p ∈ (getSeat s i).paused.keys)) ∧
  (∀ s i, linkUp s i = true → schedule (countHolds s i) i = none → exec (.egressFrameStart i) s = .next (countHolds s i)) ∧
  (∀ s i c q u f r, linkUp s i = true → schedule (countHolds s i) i = some (c, q, u) → (getQ u (i, c, q)).frames = f :: r →
    Answers (.egressFrameStart i) s fun t =>
      (∃ w, t.net.wire = s.net.wire ++ [w] ∧ w.seat = i ∧ w.fcsOk = !f.stomp) ∧ (getSeat t i).lastTx = s.time ∧ SeatFrame s t i ∧
      getCtr t (.seatStat i 2) = satAdd 64 (getCtr s (.seatStat i 2)) 1 ∧ t.ev = s.ev) ∧
  (∀ s i f u rx n, f.fcsOk = true → f.fecOk = true → receive s i f = (u, some rx) → forwardable u rx.hdr = true → chooseHop u rx.seat rx.hdr = .error n →
    Answers (.forwardFrame i f) s fun t => getCtr t (.fwd n) = satAdd 64 (getCtr u (.fwd n)) 1 ∧ t = { u with ctr := t.ctr }) ∧
  (∀ s i f u rx hop cls k, f.fcsOk = true → f.fecOk = true → receive s i f = (u, some rx) → forwardable u rx.hdr = true →
    chooseHop u rx.seat rx.hdr = .ok hop → (cls, k) = classify347 u rx.seat (rx.tci.map (· / 8192)) (rx.tos / 4) rx.hdr.colour →
    (getST u rx.seat).transit.enable = false → limitDrop u hop.seat cls k (frameLen (forwardBytes u rx cls hop k f.bytes)) = none →
    Answers (.forwardFrame i f) s fun t =>
      (∃ e, (getQ t (hop.seat, cls, commonQ)).frames = (getQ u (hop.seat, cls, commonQ)).frames ++ [e] ∧ e.forwarded = true ∧ e.stomp = false ∧
        (e.bytes = forwardBytes u rx cls hop k f.bytes ∨ e.bytes = markCE (forwardBytes u rx cls hop k f.bytes))) ∧
      (∀ x, x ≠ (hop.seat, cls, commonQ) → getQ t x = getQ u x) ∧ getCtr t (.fwd 0) = satAdd 64 (getCtr u (.fwd 0)) 1 ∧
      Outward u t ∧ t.seats = u.seats ∧ t.net = u.net ∧ t.ev = u.ev)

/-- Scheduling (R353): the queue chosen is eligible: it holds a frame, its class is not paused, and no shaper that covers it holds it; class 7 goes before class 6, and
both before the round of the others. The choice changes nothing but deficits and turns. -/
def Obligations.TheSchedulerChoosesAnEligibleQueue : Prop :=
  ∀ s i c q u, schedule s i = some (c, q, u) →
    queueEligible s i c q = true ∧ (classEligible s i 7 = true → c = 7) ∧ (classEligible s i 7 = false → classEligible s i 6 = true → c = 6) ∧
    (∀ x, (getQ u x).frames = (getQ s x).frames) ∧ u = { s with tr := u.tr }

/-- Policing (R359, R360): a disabled policer passes a frame as it came; an enabled one colours it by its two buckets, aware of the colour carried only where it is set so; a
frame never leaves greener than it arrived, and a green one is never dropped. -/
def Obligations.PolicersColourFrames : Prop :=
  (∀ s p n k ctr, p.enable = false → police s p n k ctr = (.pass k, p, s)) ∧
  (∀ now n k p, ∃ q, q = Policer.fill now p ∧
    meter now n k p =
      if (p.aware = true ∧ k = 2) ∨ q.tp.level < ((n * 1000000000 : Nat) : Int) then (2, q)
      else if (p.aware = true ∧ k = 1) ∨ q.tc.level < ((n * 1000000000 : Nat) : Int) then (1, { q with tp := Bucket.take n q.tp })
      else (0, { q with tp := Bucket.take n q.tp, tc := Bucket.take n q.tc })) ∧
  (∀ s p n k ctr v q u, p.enable = true → k ≤ 2 → police s p n k ctr = (v, q, u) →
    (∀ j, v = .pass j ∨ v = .mark j → k ≤ j ∧ j ≤ 2) ∧ (v = .drop → (meter s.time n k p).1 ≠ 0) ∧ u = { s with ctr := u.ctr } ∧ q = (meter s.time n k p).2)

/-! ### Boards, discovery, objects from peers (13, 15, 07) -/

/-- BOARD messages (R343 to R345): WRITE stages its bytes or is answered BAD_LAYOUT (a message shorter than its LENGTH too, which is the model's own choice, log 36), ABORT empties the staging buffer, COMMIT is refused with its code while boot has not
finished, while the check of another runs (so is a WRITE then), or where the image fails a check, else the image becomes the active board, the board before it the previous one for 2 ms, and the node is placed; the grace
period ends the previous board. -/
def Obligations.BoardsAreStagedAndSwitched : Prop :=
  (∀ s i n b, boardHeard s n 1 b = true → boardBusy s = false → leAt b 12 4 ≤ 8192 → leAt b 8 4 + leAt b 12 4 ≤ 4719872 → leAt b 12 4 ≤ (b.drop 16).length →
    exec (.boardWrite i n b) s =
      .next { s with fab := { s.fab with staging := s.fab.staging ++ [(leAt b 8 4, (b.drop 16).take (leAt b 12 4))] } }) ∧
  (∀ s i n b, boardHeard s n 1 b = true → boardBusy s = false →
    8192 < leAt b 12 4 ∨ 4719872 < leAt b 8 4 + leAt b 12 4 ∨ (b.drop 16).length < leAt b 12 4 →
    Answers (.boardWrite i n b) s fun t =>
      t.fab = { s.fab with lastReply := 2 } ∧ Outward { s with fab := t.fab } t ∧ t.seats = s.seats ∧ t.ev = s.ev) ∧
  (∀ s i n b, boardHeard s n 3 b = true → exec (.boardAbort i n b) s = .next { s with fab := { s.fab with staging := [] } }) ∧
  (∀ s i n b (c : Instr), (c = .boardCommit i n b ∧ boardHeard s n 2 b = true ∧ (s.boot.stage < 2 ∨ boardBusy s = true)) ∨
      (c = .boardWrite i n b ∧ boardHeard s n 1 b = true ∧ boardBusy s = true) →
    Answers c s fun t =>
      t.fab = { s.fab with lastReply := 4 } ∧ Outward { s with fab := t.fab } t ∧ t.seats = s.seats ∧ t.ev = s.ev) ∧
  (∀ s i n b r u, boardHeard s n 2 b = true → 2 ≤ s.boot.stage → boardBusy s = false →
    checkBoard { s with fab := { s.fab with commitAt := some s.time } } (leAt b 4 4) = (r, none, u) →
    Answers (.boardCommit i n b) s fun t =>
      (leAt b 4 4 ≤ boardVer s → r = 1) ∧ 1 ≤ r ∧ r ≤ 3 ∧ t.fab = { s.fab with lastReply := r, commitAt := some s.time } ∧ Outward { s with fab := t.fab } t ∧
      t.seats = s.seats ∧ t.ev = s.ev) ∧
  (∀ s i n b r v u, boardHeard s n 2 b = true → 2 ≤ s.boot.stage → boardBusy s = false →
    checkBoard { s with fab := { s.fab with commitAt := some s.time } } (leAt b 4 4) = (r, some v, u) →
    exec (.boardCommit i n b) s = .next (boardReply (boardSwitched u v i n) (peerKey n i) 0)) ∧
  (∀ s v, placed (switchBoard s v) = true ∧ (switchBoard s v).fab.active = some v ∧ ownId (switchBoard s v) = v.ownId ∧
    (switchBoard s v).fab.prev = s.fab.active ∧ (switchBoard s v).fab.graceEnd = s.fab.active.map (fun _ => s.time + 2000000) ∧
    (switchBoard s v).fab.staging = [] ∧ (switchBoard s v).boot.stage = 3 ∧
    (∀ o, s.fab.active = some o → o.ownId ≠ v.ownId → (switchBoard s v).net.peers = []) ∧ (switchBoard s v).mem = s.mem ∧
    (switchBoard s v).pg = s.pg ∧ (switchBoard s v).time = s.time) ∧
  (∀ s t0, s.fab.graceEnd = some t0 →
    exec .boardGraceEnd s = .next { (reach s t0) with fab := { s.fab with prev := none, graceEnd := none } })

/-- Discovery (R371 to R374): the seat by which a frame came is recorded in RETURN; a frame whose route is at its end is taken by its target, which answers a PROBE back
the way it came, or by a FABRIC message of OP NEIGHBOURS where its board leads to the fabric manager (the place of the body in it is the model's
own choice, log 32); an ASSIGN gives an unplaced node its pending ID and is acknowledged; one with hops left goes on by the next seat of its route, INDEX
one more and HOPS one less, or is dropped and counted; an answer that ends here changes nothing. -/
def Obligations.DiscoveryFramesAnswerAndPass : Prop :=
  (∀ s i f u rx, receive s i f = (u, some rx) → rx.hdr.type = ftDiscovery → rx.hdr.dst = 0xFFFF → rx.payload.length = 384 →
    leAt rx.payload 0 1 = 1 → leAt rx.payload 2 1 = leAt rx.payload 1 1 →
    Answers (.discoveryProbe i f) s fun t => Outward u t ∧ t.seats = u.seats ∧ t.ev = u.ev ∧ ∃ d, DiscTaken i rx.payload d ∧ t = answerProbe u i d) ∧
  (∀ s i d, (s.fab.active = none ∨ ∃ b, s.fab.active = some b ∧ fwdEntry b d.fmId = none) → answerProbe s i d = sendDisc s i (discAnswer s 2 d)) ∧
  (∀ s i d b, s.fab.active = some b → (fwdEntry b d.fmId).isSome = true →
    answerProbe s i d = sendMsg s d.fmId 7 0 7 ([1] ++ zeros 11 ++ (discAnswer s 2 d).drop 12)) ∧
  (∀ s i f u rx, receive s i f = (u, some rx) → rx.hdr.type = ftDiscovery → rx.hdr.dst = 0xFFFF → rx.payload.length = 384 →
    leAt rx.payload 0 1 = 3 → leAt rx.payload 2 1 = leAt rx.payload 1 1 →
    Answers (.discoveryAssign i f) s fun t =>
      t.fab = { u.fab with pendingId := if placed u then u.fab.pendingId else leAt rx.payload 6 2 } ∧ Outward { u with fab := t.fab } t ∧
      t.seats = u.seats ∧ t.ev = u.ev ∧ ∃ d, DiscTaken i rx.payload d ∧ t = sendDisc { u with fab := t.fab } i (discAnswer { u with fab := t.fab } 4 d)) ∧
  (∀ s i f u rx, receive s i f = (u, some rx) → rx.hdr.type = ftDiscovery → rx.hdr.dst = 0xFFFF → rx.payload.length = 384 →
    leAt rx.payload 0 1 = 2 ∨ leAt rx.payload 0 1 = 4 → leAt rx.payload 2 1 = leAt rx.payload 1 1 → exec (.discoveryAnswer i f) s = .next u) ∧
  (∀ s i f u rx c, receive s i f = (u, some rx) → rx.hdr.type = ftDiscovery → rx.hdr.dst = 0xFFFF → rx.payload.length = 384 →
    (c = .discoveryProbe i f ∧ leAt rx.payload 0 1 = 1) ∨ (c = .discoveryAssign i f ∧ leAt rx.payload 0 1 = 3) ∨
      (c = .discoveryAnswer i f ∧ (leAt rx.payload 0 1 = 2 ∨ leAt rx.payload 0 1 = 4)) →
    (leAt rx.payload 1 1 < leAt rx.payload 2 1 → exec c s = .next (bump u (.fabric 1))) ∧
    (leAt rx.payload 2 1 < leAt rx.payload 1 1 →
      6 ≤ seatNibble (slice rx.payload 0x20 128) (leAt rx.payload 2 1) ∨ rx.hdr.hops = 0 ∨
        linkUp u (seatNibble (slice rx.payload 0x20 128) (leAt rx.payload 2 1)) = false →
      exec c s = .next (bump u (.fabric 1))) ∧
    (∀ o cls k pcp, leAt rx.payload 2 1 < leAt rx.payload 1 1 → o = seatNibble (slice rx.payload 0x20 128) (leAt rx.payload 2 1) → o < 6 →
      rx.hdr.hops ≠ 0 → linkUp u o = true → discRoom u o = true → i < 6 →
      (cls, k) = classify347 u rx.seat (rx.tci.map (· / 8192)) (rx.tos / 4) rx.hdr.colour →
      pcp = (match rx.tci with | some t => t / 8192 | none => classPrio u o cls) →
      ∃ p, DiscPassed i rx.payload p ∧
        (limitDrop u o cls k (frameLen (buildFrame u o allNodesMac allNodes pcp rx.tos rx.sport (discHeader u o rx.hdr) p)) = none →
          Answers c s fun t =>
            getCtr t (.fabric 0) = satAdd 64 (getCtr u (.fabric 0)) 1 ∧ SeatFrame u t o ∧ t.ev = u.ev ∧ t.net = u.net ∧
            ∃ e bytes, bytes = buildFrame u o allNodesMac allNodes pcp rx.tos rx.sport (discHeader u o rx.hdr) p ∧
              (getQ t (o, cls, commonQ)).frames = (getQ u (o, cls, commonQ)).frames ++ [e] ∧ (e.bytes = bytes ∨ e.bytes = markCE bytes)) ∧
        (∀ x, limitDrop u o cls k (frameLen (buildFrame u o allNodesMac allNodes pcp rx.tos rx.sport (discHeader u o rx.hdr) p)) = some x →
          exec c s = .next (bump u (.egress o cls x))))) ∧
  (∀ s o h, (discHeader s o h).hops = h.hops - 1 ∧ (discHeader s o h).boardVer = h.boardVer ∧ (discHeader s o h).src = h.src ∧
    (discHeader s o h).type = h.type ∧ (seatVersion s o = 1 → (discHeader s o h).ver = 0x10)) ∧
  (∀ s op d, op < 256 → d.nonce < 2 ^ 32 →
    (discAnswer s op d).length = 384 ∧ leAt (discAnswer s op d) 0 1 = op ∧ leAt (discAnswer s op d) 2 1 = 1 ∧ leAt (discAnswer s op d) 8 4 = d.nonce) ∧
  (∀ s op d, op < 256 → d.len < 255 → d.fmId < 65536 → d.back.length = 256 → (∀ x ∈ d.back, x < 16) →
    leAt (discAnswer s op d) 1 1 = d.len + 1 ∧ leAt (discAnswer s op d) 4 2 = d.fmId ∧
    (∀ j, j ≤ d.len → seatNibble (slice (discAnswer s op d) 0x20 128) j = d.back.getD (d.len - j) 0) ∧ slice (discAnswer s op d) 0xA0 128 = zeros 128)

/-! ### Ownership, copies, digests (15) -/

/-- Messages of a hand-over (R379, R380, R382, R388): an offer that the record accepts makes the node OWNER, or starts the fetch of what moves; one before its board is kept; a rival's
claim stalls an OWNER; a tenant that is not there, or a copy to a node that is no shadow, is refused; the acknowledgement makes the sender NONE; a claim at a HANDING node repeats
the offer; a higher epoch ends an AWAITING claim with OWN_LOST, and a refusal starts the wait of a reclaim; records of one version
that meet are a conflict, which the other party is told (log 74); a refusal carries EPOCH and OWNER of the node's own record (R383); an unplaced node drops all of
these and counts them (R368), and so does one under a control reset (R433). The order of these cases is the model's own reading (log 34). -/
def Obligations.HandOverMessages : Prop :=
  (∀ s n b, hears s = true → effRole s ≠ roleUnplaced → tailFits s 4 b = true → (tailMsgOf b).copy = false → effRole s ≠ roleShadow → recordsMeet s (tailMsgOf b) = false →
    getOwn s (tailMsgOf b).tenant (tailMsgOf b).stream = none →
    exec (.tailOffer n b) s =
      .next { s with fab := { s.fab with offers := Tab.put s.fab.offers ((tailMsgOf b).tenant, (tailMsgOf b).stream) ⟨n, b, s.time⟩ } }) ∧
  (∀ s n b, hears s = true → effRole s ≠ roleUnplaced → tailFits s 4 b = true → (tailMsgOf b).copy = false → effRole s ≠ roleShadow → recordsMeet s (tailMsgOf b) = false →
    offerMatches s n (tailMsgOf b) = true → Tab.find s.fab.handovers ((tailMsgOf b).tenant, (tailMsgOf b).stream) = none →
    slotAdmitted s (tailMsgOf b).tenant = true →
    Answers (.tailOffer n b) s fun t =>
      ((tailMsgOf b).move = false →
        (∃ o, getOwn t (tailMsgOf b).tenant (tailMsgOf b).stream = some o ∧ o.state = .owner ∧ o.epoch = (tailMsgOf b).epoch) ∧
        getCtr t (.own 1) = satAdd 64 (getCtr s (.own 1)) 1 ∧ t.fab.handovers = s.fab.handovers) ∧
      ((tailMsgOf b).move = true →
        (∃ h, Tab.find t.fab.handovers ((tailMsgOf b).tenant, (tailMsgOf b).stream) = some h ∧ h.node = n ∧ h.manifest = (tailMsgOf b).manifest ∧ h.got = []) ∧
        t.fab.own = s.fab.own) ∧
      Outward { s with fab := { s.fab with own := t.fab.own, handovers := t.fab.handovers }, mem := { s.mem with nextObj := t.mem.nextObj } } t) ∧
  (∀ s n b o, hears s = true → effRole s ≠ roleUnplaced → tailFits s 4 b = true → (tailMsgOf b).copy = false → effRole s ≠ roleShadow → recordsMeet s (tailMsgOf b) = false →
    getOwn s (tailMsgOf b).tenant (tailMsgOf b).stream = some o → o.state = .owner → (tailMsgOf b).owner ≠ ownId s ∨ (tailMsgOf b).epoch ≠ o.epoch →
    Answers (.tailOffer n b) s fun t =>
      getOwn t (tailMsgOf b).tenant (tailMsgOf b).stream = some { o with state := .stalled, since := s.time, claimEpoch := (tailMsgOf b).epoch, claimant := n } ∧
      getCtr t (.own 2) = satAdd 64 (getCtr s (.own 2)) 1 ∧ t = { s with ctr := t.ctr, fab := { s.fab with own := t.fab.own } }) ∧
  (∀ s n b, hears s = true → effRole s ≠ roleUnplaced → tailFits s 4 b = true → (tailMsgOf b).copy = true → effRole s ≠ roleShadow ∨ slotAdmitted s (tailMsgOf b).tenant = false →
    exec (.tailOffer n b) s = .next (sendTail s n ⟨7, (tailMsgOf b).move, true, if effRole s = roleShadow then 3 else 5, (tailMsgOf b).tenant,
      (tailMsgOf b).stream, ((recOf s (tailMsgOf b).tenant (tailMsgOf b).stream).map OwnRec.epoch).getD 0,
      ((recOf s (tailMsgOf b).tenant (tailMsgOf b).stream).map OwnRec.owner).getD 0, 0, 0, 0, 0⟩)) ∧
  (∀ s n b o, hears s = true → effRole s ≠ roleUnplaced → tailFits s 5 b = true → (tailMsgOf b).copy = false → getOwn s (tailMsgOf b).tenant (tailMsgOf b).stream = some o → o.state = .handing →
    o.other = n → o.epoch = (tailMsgOf b).epoch → recordsMeet s (tailMsgOf b) = false →
    Answers (.tailAck n b) s fun t =>
      getOwn t (tailMsgOf b).tenant (tailMsgOf b).stream = some { o with state := .none, refusedAt := none, manifest := none } ∧
      (o.move = false → t.mem = s.mem ∧ t.dir = s.dir) ∧
      (o.move = true → ∀ h r, h < 2 → r ∈ (getHalf t h).rows → r.2.of (tailMsgOf b).tenant (tailMsgOf b).stream = true → r.2.state ≠ .valid) ∧
      t.pg = s.pg ∧ t.trust = s.trust ∧ t.time = s.time ∧ t.boot = s.boot) ∧
  (∀ s n b o, hears s = true → effRole s ≠ roleUnplaced → tailFits s 6 b = true → effRole s ≠ roleShadow → getOwn s (tailMsgOf b).tenant (tailMsgOf b).stream = some o →
    recordsMeet s (tailMsgOf b) = false →
    (o.state = .owner → Answers (.tailAsk n b) s fun t =>
      getOwn t (tailMsgOf b).tenant (tailMsgOf b).stream = some { o with state := .stalled, since := s.time, claimEpoch := (tailMsgOf b).epoch, claimant := n } ∧
      t = { s with ctr := t.ctr, fab := { s.fab with own := t.fab.own } }) ∧
    (o.state = .handing → exec (.tailAsk n b) s =
      .next (sendTail s o.other (offerMsg s (tailMsgOf b).tenant (tailMsgOf b).stream o)))) ∧
  (∀ s n b o, hears s = true → effRole s ≠ roleUnplaced → tailFits s 7 b = true → (tailMsgOf b).copy = false → getOwn s (tailMsgOf b).tenant (tailMsgOf b).stream = some o →
    recordsMeet s (tailMsgOf b) = false →
    (o.state = .awaiting → o.epoch < (tailMsgOf b).epoch → Answers (.tailRefuse n b) s fun t =>
      (∃ x, getOwn t (tailMsgOf b).tenant (tailMsgOf b).stream = some x ∧ x.state = .none) ∧ getCtr t (.own 3) = satAdd 64 (getCtr s (.own 3)) 1 ∧
      t.ev.nextSeq = (s.ev.nextSeq + 1) % 2 ^ 32 ∧ Outward { s with fab := t.fab } t) ∧
    (o.state = .handing → o.other = n → 2 ≤ (tailMsgOf b).reason → (tailMsgOf b).reason ≤ 5 → exec (.tailRefuse n b) s =
      .next (putOwn s (tailMsgOf b).tenant (tailMsgOf b).stream { o with refusedAt := some (o.refusedAt.getD s.time) }))) ∧
  (∀ s n b, hears s = true → effRole s ≠ roleUnplaced → effRole s ≠ roleShadow → (tailMsgOf b).copy = false → recordsMeet s (tailMsgOf b) = true →
    (tailFits s 4 b = true → exec (.tailOffer n b) s = .next (meetConflict s n (tailMsgOf b))) ∧
    (tailFits s 6 b = true → exec (.tailAsk n b) s = .next (meetConflict s n (tailMsgOf b))) ∧
    (tailFits s 5 b = true → exec (.tailAck n b) s = .next (meetConflict s n (tailMsgOf b))) ∧
    (tailFits s 7 b = true → exec (.tailRefuse n b) s = .next (enterConflict s n (tailMsgOf b)))) ∧
  (∀ s n m, (∃ o, getOwn (meetConflict s n m) m.tenant m.stream = some o ∧ o.conflict = true) ∧
    Outward { s with fab := { s.fab with own := (meetConflict s n m).fab.own } } (meetConflict s n m)) ∧
  (∀ s n b (c : Instr), c ∈ [.tailOffer n b, .tailAck n b, .tailAsk n b, .tailRefuse n b, .copyAsk n b, .digest n b] →
    (hears s = true → effRole s = roleUnplaced → exec c s = .next (bump s (.seatStat (seatOf s n) 12))) ∧
    (running s = true → hears s = false → exec c s = .next (bump s (.seatStat (seatOf s n) (chk 6)))))

/-- Timers of a hand-over and copies (R380, R382, R388): a kept offer lapses after 5 ms, refused with REASON 2 where the board names a third node; an AWAITING stream asks
the node it waits for every 5 ms; a stall ends after 5 ms with the board's record, and the rival is refused; a refused
hand-over is reclaimed 5 ms later with OWN_RECLAIMED; everything fetched and found good is committed beside the runs that stay, which keep their positions, and the node becomes OWNER unless it
is a copy; the fabric manager's request for a copy waits for
the end of the plies (log 34). -/
def Obligations.HandOverTimersAndCopies : Prop :=
  (∀ s te st x, Tab.find s.fab.offers (te, st) = some x →
    Answers (.tailOfferKeepExpiry te st) s fun t =>
      t.time = (reach s (x.at' + 5000000)).time ∧ Tab.find t.fab.offers (te, st) = none ∧
      (∀ k, k ≠ (te, st) → Tab.find t.fab.offers k = Tab.find s.fab.offers k) ∧
      Outward { s with time := t.time, fab := { s.fab with offers := t.fab.offers } } t ∧ t.ev = s.ev ∧
      (running s = true → recOwner s te st ≠ ownId s → recOwner s te st ≠ x.node →
        t = refuseTail { (reach s (x.at' + 5000000)) with fab := t.fab } x.node (tailMsgOf x.bytes) 2)) ∧
  (∀ s te st o, getOwn s te st = some o → o.state = .awaiting → running s = true → Tab.find s.fab.handovers (te, st) = none →
    Answers (.awaitingTimeout te st) s fun t =>
      t.time = (reach s o.nextAsk).time ∧ getOwn t te st = some { o with nextAsk := t.time + 5000000 } ∧
      Outward { s with time := t.time, fab := { s.fab with own := t.fab.own } } t ∧ t.ev = s.ev ∧
      t = sendTail (putOwn (reach s o.nextAsk) te st { o with nextAsk := (reach s o.nextAsk).time + 5000000 }) o.other
        ⟨6, o.move, false, 0, te, st, o.epoch, recOwner s te st, 0, streamEnd s te st, 0, 0⟩) ∧
  (∀ s te st o r, getOwn s te st = some o → o.state = .stalled → commits s = true → recOf s te st = some r → namesMe s r = true → o.claimEpoch < r.epoch →
    Answers (.stallEnd te st) s fun t =>
      t.time = (reach s (o.since + 5000000)).time ∧ getOwn t te st = some { o with state := .owner, epoch := r.epoch, since := t.time } ∧
      Outward { s with time := t.time, fab := { s.fab with own := t.fab.own } } t ∧ t.ev = s.ev ∧
      t = sendTail (putOwn (reach s (o.since + 5000000)) te st { o with state := .owner, epoch := r.epoch, since := (reach s (o.since + 5000000)).time })
        o.claimant ⟨7, r.move, false, 1, te, st, r.epoch, r.owner, 0, 0, 0, 0⟩) ∧
  (∀ s te st o a, getOwn s te st = some o → o.refusedAt = some a → o.state = .handing → running s = true →
    (recOwner s te st = o.other → Answers (.reclaimTimeout te st) s fun t =>
      t.time = (reach s (a + 5000000)).time ∧ getOwn t te st = some { o with state := .reclaimed, refusedAt := none, manifest := none } ∧
      getCtr t (.own 4) = satAdd 64 (getCtr s (.own 4)) 1 ∧ t.ev.nextSeq = (s.ev.nextSeq + 1) % 2 ^ 32 ∧ t.mem = s.mem ∧ t.dir = s.dir ∧ t.pg = s.pg) ∧
    (recOwner s te st ≠ o.other → exec (.reclaimTimeout te st) s = .next (reach s (a + 5000000)))) ∧
  (∀ s te st h, Tab.find s.fab.handovers (te, st) = some h → handoverWhole h = false → exec (.handoverFetchDone te st) s = .next s) ∧
  (∀ s te st h u ts v, Tab.find s.fab.handovers (te, st) = some h → commits s = true → handoverWhole h = true → slotAdmitted s te = true →
    (∀ e ∈ handEntries h, e.kind ≠ 3 ∧ openArrived s te st h e ≠ .noKey ∧ openArrived s te st h e ≠ .bad) →
    installAll s (((handEntries h).map (openArrived s te st h)).filter (wanted s te st)) = some (ts, u) →
    installRuns u te st h.endPos h.copy ts [] = some v →
    Answers (.handoverFetchDone te st) s fun t =>
      (h.copy = false → (∃ o, getOwn t te st = some o ∧ o.state = .owner ∧ o.epoch = h.epoch) ∧ getCtr t (.own 1) = satAdd 64 (getCtr v (.own 1)) 1) ∧
      Tab.find t.fab.handovers (te, st) = none ∧
      t.dir = v.dir ∧ t.mem = v.mem ∧ t.pg = v.pg ∧ t.trust = v.trust) ∧
  (∀ s n b, hears s = true → effRole s ≠ roleUnplaced → tailFits s 8 b = true → s.fab.active.map Board.fmId = some n → holdsTail s (tailMsgOf b).tenant (tailMsgOf b).stream = true → issuedPlies s ≠ [] →
    exec (.copyAsk n b) s =
      .next { s with fab := { s.fab with copyAsks := Tab.put s.fab.copyAsks ((tailMsgOf b).tenant, (tailMsgOf b).stream, (tailMsgOf b).target) n } })

/-- Digests of a pair (R385 to R387): those waiting are sent, 32 bytes each behind a head of 16; an entry, whoever sends it, with its own equal digest is a match, one with another a mismatch with its event, RUN of a shadow back to 0; a RUN at
WINDOW or above makes a shadow PROMOTABLE, with SHADOW_READY (the place of COUNT in the message is the model's own choice, log 30); one without waits, and after 100 ms is discarded and counted. -/
def Obligations.DigestsAreCompared : Prop :=
  (∀ s, holdsPeer s = true → s.fab.digSend ≠ [] →
    Answers .digestSend s fun t => t.fab = { s.fab with digSend := [] } ∧ Outward { s with fab := t.fab } t ∧ t.ev = s.ev ∧ t.seats = s.seats ∧
      (s.fab.digSend.length ≤ 2047 → t = sendMsg { s with fab := { s.fab with digSend := [] } } s.fab.shPeer 7 0 7
        (recordBytes [(8, 9), (8, 0), (16, s.fab.digSend.length), (96, 0)] ++
          (s.fab.digSend.map (fun d => recordBytes [(64, d.program), (64, d.digest), (12, d.tenant), (4, 0), (16, d.step), (96, 0)])).flatten))) ∧
  (∀ s n b e d, hears s = true → effRole s ≠ roleUnplaced → leAt b 0 1 = 9 → (chunks 32 (b.drop 16)).take (leAt b 2 2) = [e] → 32 ≤ e.length →
    d = ⟨leAt e 16 4 % 4096, leAt e 0 8, leAt e 18 2, leAt e 8 8, s.time, 0⟩ →
    (s.fab.digMine.find? (DigEntry.same d) = none →
      exec (.digest n b) s = .next { s with fab := { s.fab with digTheirs := s.fab.digTheirs ++ [d] } }) ∧
    (∀ m, s.fab.digMine.find? (DigEntry.same d) = some m → m.digest = d.digest →
      Answers (.digest n b) s fun t =>
        getCtr t (.shadow 0) = satAdd 64 (getCtr s (.shadow 0)) 1 ∧ t.fab.digMine = s.fab.digMine.filter (fun x => !x.same d) ∧
        t.fab.shRun = (if effRole s = roleShadow then satAdd 32 s.fab.shRun 1 else s.fab.shRun) ∧ t.fab.digTheirs = s.fab.digTheirs ∧
        (effRole s = roleShadow → Nat.max s.fab.shWindow 1 ≤ satAdd 32 s.fab.shRun 1 → t.fab.promotable = true ∧
          (s.fab.promotable = false → Raised s t evShadowReady (commonPayload { aux0 := satAdd 32 s.fab.shRun 1 }))) ∧
        Outward { s with fab := t.fab } t) ∧
    (∀ m, s.fab.digMine.find? (DigEntry.same d) = some m → m.digest ≠ d.digest →
      Answers (.digest n b) s fun t =>
        getCtr t (.shadow 1) = satAdd 64 (getCtr s (.shadow 1)) 1 ∧ (effRole s = roleShadow → t.fab.shRun = 0) ∧
        t.fab.digMine = s.fab.digMine.filter (fun x => !x.same d) ∧ t.mem = s.mem ∧ t.dir = s.dir ∧ t.pg = s.pg ∧ t.trust = s.trust ∧
        (∀ p, p < 9 → isRetired s m.cluster p = false → (m.cluster, p) ∈ t.cores.due) ∧
        ∃ v rd, t = raiseEvent v evDigestMismatch (commonPayload
          { tenant := m.tenant, step := m.step, node := s.fab.shPeer, aux0 := m.program, aux1 := m.digest, aux2 := d.digest, readings := rd }))) ∧
  (∀ s n b, hears s = true → effRole s ≠ roleUnplaced → leAt b 0 1 ≠ 9 → exec (.digest n b) s = .next s) ∧
  (∀ s te p k d, s.fab.digTheirs.find? (DigEntry.same ⟨te, p, k, 0, 0, 0⟩) = some d →
    Answers (.digestUnpairedExpiry te p k) s fun t =>
      t.time = (reach s (d.at' + 100000000)).time ∧ t.fab.digTheirs.find? (DigEntry.same ⟨te, p, k, 0, 0, 0⟩) = none ∧
      getCtr t (.shadow 2) = satAdd 64 (getCtr s (.shadow 2)) 1 ∧
      t = { s with time := t.time, ctr := t.ctr, fab := { s.fab with digTheirs := t.fab.digTheirs } }) ∧
  (∀ s te p k d, s.fab.digTheirs.find? (DigEntry.same ⟨te, p, k, 0, 0, 0⟩) = none →
    s.fab.digMine.find? (DigEntry.same ⟨te, p, k, 0, 0, 0⟩) = some d →
    Answers (.digestUnpairedExpiry te p k) s fun t =>
      t.time = (reach s (d.at' + 100000000)).time ∧ t.fab.digMine.find? (DigEntry.same ⟨te, p, k, 0, 0, 0⟩) = none ∧
      t = { s with time := t.time, fab := { s.fab with digMine := t.fab.digMine } })

/-! ### Attestation (16) -/

/-- SPDM (R399): the owning host's requests are answered in their order, GET_VERSION from anywhere; out of order they are answered UnexpectedRequest and change nothing; signed
measurements and other codes are answered UnsupportedRequest; each answer is a message of MSG_TYPE 8 to the owning host (R348); without an owning host a request is
dropped and counted. The codes are those of
SPDM 1.2 (PRESUMED, log 21). -/
def Obligations.SpdmRequestsAreAnsweredInOrder : Prop :=
  (∀ s b, spdmHeard s = true → spdmCode b = 0x84 →
    Answers (.spdmGetVersion b) s fun t => t.trust = { s.trust with spdm := 1 } ∧ Outward { s with trust := t.trust } t ∧ t.ev = s.ev ∧ t.seats = s.seats ∧
      t = spdmAnswer { s with trust := t.trust } [0x10, 0x04, 0, 0, 0, 1, 0x00, 0x12]) ∧
  (∀ s b, spdmHeard s = true → spdmCode b = 0xE1 →
    Answers (.spdmGetCapabilities b) s fun t =>
      t.trust = { s.trust with spdm := if s.trust.spdm = 1 then 2 else s.trust.spdm } ∧ Outward { s with trust := t.trust } t ∧ t.ev = s.ev ∧ t.seats = s.seats ∧
      t = (if s.trust.spdm = 1 then spdmAnswer { s with trust := t.trust }
            ([0x12, 0x61, 0, 0, 0, 0, 0, 0, 8, 0, 0, 0] ++ [0, 0, 1, 0, 0, 0, 1, 0])
          else spdmError s 0x04 0)) ∧
  (∀ s b, spdmHeard s = true → spdmCode b = 0xE3 →
    Answers (.spdmNegotiateAlgorithms b) s fun t =>
      t.trust = { s.trust with spdm := if s.trust.spdm = 2 then 3 else s.trust.spdm } ∧ Outward { s with trust := t.trust } t ∧ t.ev = s.ev ∧ t.seats = s.seats ∧
      t = (if s.trust.spdm = 2 then spdmAnswer { s with trust := t.trust }
            ([0x12, 0x63, 0, 0, 36, 0, 1, 0, 2, 0, 0, 0] ++ [0, 0, 0, 0, 1, 0, 0, 0] ++ zeros 16)
          else spdmError s 0x04 0)) ∧
  (∀ s b, spdmHeard s = true → spdmCode b = 0xE0 →
    (bitN (leAt b 2 1) 0 = true → exec (.spdmGetMeasurements b) s = .next (spdmError s 0x07 0xE0) ∧ exec (.spdmUnsupported b) s = .next (spdmError s 0x07 0xE0)) ∧
    (bitN (leAt b 2 1) 0 = false → s.trust.spdm ≠ 3 → exec (.spdmGetMeasurements b) s = .next (spdmError s 0x04 0)) ∧
    (bitN (leAt b 2 1) 0 = false → s.trust.spdm = 3 → leAt b 3 1 ≤ 5 ∨ leAt b 3 1 = 0xFF →
      Answers (.spdmGetMeasurements b) s fun t => t.trust = s.trust ∧ Outward s t ∧ t.ev = s.ev ∧ t.seats = s.seats ∧
        ∃ u nonce ids rec', nonce.length = 32 ∧ ids = (if leAt b 3 1 = 0 then [] else if leAt b 3 1 = 0xFF then [1, 2, 3, 4, 5] else [leAt b 3 1]) ∧
          rec' = (ids.map (fun i => recordBytes [(8, i), (8, 1), (16, (measurement s i).2.length + 3), (8, (measurement s i).1),
            (16, (measurement s i).2.length)] ++ (measurement s i).2)).flatten ∧ Outward s u ∧
          t = spdmAnswer u (recordBytes [(8, 0x12), (8, 0x60), (8, if leAt b 3 1 = 0 then 5 else 0), (8, 0), (8, ids.length), (24, rec'.length)] ++
            rec' ++ nonce ++ zeros 2))) ∧
  (∀ s b node x, owningHost s = some (node, x) → spdmAnswer s b = sendTo s (peerKey node s.net.hostActive) 8 0 7 b) ∧
  (∀ s code data, spdmError s code data = spdmAnswer s [0x12, 0x7F, BitVec.ofNat 8 code, BitVec.ofNat 8 data]) ∧
  (∀ s b, spdmHeard s = true → spdmKnown (spdmCode b) = false → spdmCode b ≠ 0xE0 →
    exec (.spdmUnsupported b) s = .next (spdmError s 0x07 (spdmCode b))) ∧
  (∀ s b, spdmHeard s = false →
    (spdmCode b = 0x84 → exec (.spdmGetVersion b) s = .next (bump s (.seatStat s.net.hostActive 12))) ∧
    (spdmCode b = 0xE1 → exec (.spdmGetCapabilities b) s = .next (bump s (.seatStat s.net.hostActive 12))) ∧
    (spdmCode b = 0xE3 → exec (.spdmNegotiateAlgorithms b) s = .next (bump s (.seatStat s.net.hostActive 12))) ∧
    (spdmCode b = 0xE0 → exec (.spdmGetMeasurements b) s = .next (bump s (.seatStat s.net.hostActive 12)))) ∧
  (∀ s, (measurement s 1).2.length = 32 ∧ (measurement s 2).2.length = 32 ∧ (measurement s 3).2.length = 4 ∧ (measurement s 4).2.length = 16)

/-! ### Steps and the invariant -/

/-- A step takes the command at the front of the queue and runs it on the state with the queue's rest; no word of bits spells a command. With no command waiting, one
cycle of REFCLK_SYS passes, in which NODE_TIME advances by 10 ns unless the node has no power, or RESET_N, the supply or the reference holds it in reset (R19; that the
idle step is a cycle is the model's own choice, log 1; that NODE_TIME counts while only heat holds the node is its reading, log 55). -/
def Obligations.StepRunsTheFrontCommand : Prop :=
  (∀ s c, step { s with pending := c :: s.pending } = exec c s) ∧
  (∀ s c rest, s.pending = c :: rest → step s = exec c { s with pending := rest }) ∧
  (∀ (s : State) n w, decodeTableWord n w = none ∧ s.withFetchWord n w = s) ∧
  (∀ s, s.pending = [] → step s = .next { s with time := if s.boot.powered = true ∧ s.boot.resetLow = false ∧ s.boot.hold.supply = false ∧ s.boot.hold.reference = false then (s.time + 10) % 2 ^ 64 else s.time })

/-- The state right after reset keeps the invariant. -/
def Obligations.ResetKeepsTheInvariant : Prop := Safety.Inv State.reset

/-- Every step keeps the invariant: the table of stored errors in its canonical form (R206 to R209), the core-rail target within 600 to 850 mV (R419), at most 256 events waiting and
SEQ a 32-bit number (R366, R346), CTL_COUNT a 16-bit one (R446), a boot stage of R370, above 0 only while the node is powered and not held in reset, the directory's rows in order and each under
the tag of its tenant and stream (R137, R140). -/
def Obligations.EveryStepKeepsTheInvariant : Prop := ∀ s t, Safety.Inv s → step s = .next t → Safety.Inv t
end

