-- ==== Sys2Proof/Laws/Ecc.lean ====
section
/-! SUPPORT. The table of differing blocks: its canonical form is kept by every operation, and reading after a write. -/

namespace Sys2Proof.Laws
open Sys2Proof.Machine

theorem above_weaken {lo lo' : Nat} (h : lo' ≤ lo) {t : ErrTab} (w : ErrTab.above (some lo) t = true) : ErrTab.above (some lo') t = true := by
  cases t with
  | nil => rfl
  | cons p r =>
    obtain ⟨k, b⟩ := p
    simp only [ErrTab.above, Bool.and_eq_true, decide_eq_true_eq] at w ⊢
    exact ⟨⟨Nat.lt_of_le_of_lt h w.1.1, w.1.2⟩, w.2⟩

theorem above_none {lo : Nat} {t : ErrTab} (w : ErrTab.above (some lo) t = true) : ErrTab.above none t = true := by
  cases t with
  | nil => rfl
  | cons p r =>
    obtain ⟨k, b⟩ := p
    simp only [ErrTab.above, Bool.and_eq_true, decide_eq_true_eq] at w ⊢
    exact ⟨⟨trivial, w.1.2⟩, w.2⟩

theorem above_write {lo n : Nat} (h : lo < n) {t : ErrTab} (w : ErrTab.above (some lo) t = true) (b : Blk) :
    ErrTab.above (some lo) (ErrTab.write t n b) = true := by
  induction t generalizing lo with
  | nil =>
    unfold ErrTab.write
    split
    · rfl
    · rename_i hb; simp [ErrTab.above, h, hb]
  | cons p r ih =>
    obtain ⟨k, c⟩ := p
    simp only [ErrTab.above, Bool.and_eq_true, decide_eq_true_eq] at w
    unfold ErrTab.write
    split
    · rename_i hk
      split
      · simp only [ErrTab.above, Bool.and_eq_true, decide_eq_true_eq]; exact w
      · rename_i hb
        simp only [ErrTab.above, Bool.and_eq_true, decide_eq_true_eq]
        exact ⟨⟨h, hb⟩, ⟨hk, w.1.2⟩, w.2⟩
    · split
      · rename_i hn
        subst hn
        split
        · exact above_weaken (Nat.le_of_lt h) w.2
        · rename_i hb
          simp only [ErrTab.above, Bool.and_eq_true, decide_eq_true_eq]
          exact ⟨⟨h, hb⟩, w.2⟩
      · simp only [ErrTab.above, Bool.and_eq_true, decide_eq_true_eq]
        exact ⟨w.1, ih (by omega) w.2⟩

theorem wf_write {t : ErrTab} (w : ErrTab.wf t = true) (n : Nat) (b : Blk) : ErrTab.wf (ErrTab.write t n b) = true := by
  unfold ErrTab.wf at *
  cases t with
  | nil =>
    unfold ErrTab.write
    split
    · rfl
    · rename_i hb; simp [ErrTab.above, hb]
  | cons p r =>
    obtain ⟨k, c⟩ := p
    simp only [ErrTab.above, Bool.and_eq_true, decide_eq_true_eq] at w
    unfold ErrTab.write
    split
    · rename_i hk
      split
      · simp only [ErrTab.above, Bool.and_eq_true, decide_eq_true_eq]; exact w
      · rename_i hb
        simp only [ErrTab.above, Bool.and_eq_true, decide_eq_true_eq]
        exact ⟨⟨trivial, hb⟩, ⟨hk, w.1.2⟩, w.2⟩
    · split
      · rename_i hn
        subst hn
        split
        · exact above_none w.2
        · rename_i hb
          simp only [ErrTab.above, Bool.and_eq_true, decide_eq_true_eq]
          exact ⟨⟨trivial, hb⟩, w.2⟩
      · simp only [ErrTab.above, Bool.and_eq_true, decide_eq_true_eq]
        exact ⟨w.1, above_write (by omega) w.2 b⟩

theorem wf_clear {t : ErrTab} (w : ErrTab.wf t = true) (bs : List Nat) : ErrTab.wf (ErrTab.clear t bs) = true := by
  unfold ErrTab.clear
  induction bs generalizing t with
  | nil => exact w
  | cons n r ih => exact ih (wf_write w n _)

theorem wf_flips {t : ErrTab} (w : ErrTab.wf t = true) (fs : List Flip) : ErrTab.wf (ErrTab.flips t fs) = true := by
  unfold ErrTab.flips
  induction fs generalizing t with
  | nil => exact w
  | cons f r ih => exact ih (wf_write w _ _)

theorem above_filter {lo : Nat} {t : ErrTab} (w : ErrTab.above (some lo) t = true) (p : Nat × Blk → Bool) :
    ErrTab.above (some lo) (t.filter p) = true := by
  induction t generalizing lo with
  | nil => rfl
  | cons q r ih =>
    obtain ⟨k, c⟩ := q
    simp only [ErrTab.above, Bool.and_eq_true, decide_eq_true_eq] at w
    rw [List.filter_cons]
    split
    · simp only [ErrTab.above, Bool.and_eq_true, decide_eq_true_eq]
      exact ⟨w.1, ih w.2⟩
    · exact ih (above_weaken (Nat.le_of_lt w.1.1) w.2)

theorem wf_filter {t : ErrTab} (w : ErrTab.wf t = true) (p : Nat × Blk → Bool) : ErrTab.wf (t.filter p) = true := by
  unfold ErrTab.wf at *
  cases t with
  | nil => rfl
  | cons q r =>
    obtain ⟨k, c⟩ := q
    simp only [ErrTab.above, Bool.and_eq_true, decide_eq_true_eq] at w
    rw [List.filter_cons]
    split
    · simp only [ErrTab.above, Bool.and_eq_true, decide_eq_true_eq]
      exact ⟨w.1, above_filter w.2 p⟩
    · exact above_none (above_filter w.2 p)

/-- A block not above the lower bound of a table is not listed. -/
theorem read_below {lo n : Nat} (h : n ≤ lo) {t : ErrTab} (w : ErrTab.above (some lo) t = true) : ErrTab.read t n = Blk.zero := by
  cases t with
  | nil => rfl
  | cons p r =>
    obtain ⟨k, c⟩ := p
    simp only [ErrTab.above, Bool.and_eq_true, decide_eq_true_eq] at w
    unfold ErrTab.read
    rw [if_neg (by omega), if_pos (by omega)]

/-- Reading the block written gives what was written. -/
theorem read_write_same {t : ErrTab} (w : ErrTab.wf t = true) (n : Nat) (b : Blk) : ErrTab.read (ErrTab.write t n b) n = b := by
  unfold ErrTab.wf at w
  induction t with
  | nil =>
    unfold ErrTab.write
    split
    · rename_i hb; exact hb.symm
    · simp [ErrTab.read]
  | cons p r ih =>
    obtain ⟨k, c⟩ := p
    simp only [ErrTab.above, Bool.and_eq_true, decide_eq_true_eq] at w
    unfold ErrTab.write
    split
    · rename_i hk
      split
      · rename_i hb
        unfold ErrTab.read
        rw [if_neg (by omega), if_pos hk]; exact hb.symm
      · simp [ErrTab.read]
    · split
      · rename_i hn
        subst hn
        split
        · rename_i hb; rw [read_below (Nat.le_refl _) w.2]; exact hb.symm
        · simp [ErrTab.read]
      · unfold ErrTab.read
        rw [if_neg (by omega), if_neg (by omega)]
        exact ih (above_none w.2)

/-- Reading another block gives what it gave before. -/
theorem read_write_other {t : ErrTab} (w : ErrTab.wf t = true) {n m : Nat} (h : m ≠ n) (b : Blk) :
    ErrTab.read (ErrTab.write t n b) m = ErrTab.read t m := by
  unfold ErrTab.wf at w
  induction t with
  | nil =>
    unfold ErrTab.write
    split
    · rfl
    · unfold ErrTab.read
      rw [if_neg (by omega)]
      split <;> rfl
  | cons p r ih =>
    obtain ⟨k, c⟩ := p
    simp only [ErrTab.above, Bool.and_eq_true, decide_eq_true_eq] at w
    unfold ErrTab.write
    split
    · rename_i hk
      split
      · rfl
      · rw [ErrTab.read, if_neg (by omega)]
        split
        · rename_i hm
          rw [ErrTab.read, if_neg (by omega), if_pos (by omega)]
        · rfl
    · split
      · rename_i hn
        subst hn
        split
        · rw [ErrTab.read, if_neg (by omega)]
          split
          · rename_i hm; exact read_below (by omega) w.2
          · rfl
        · simp only [ErrTab.read, if_neg (Ne.symm h)]
      · simp only [ErrTab.read]
        split
        · rfl
        · split
          · rfl
          · exact ih (above_none w.2)

end Sys2Proof.Laws
end

