-- ==== Sys2Proof/Laws/Outward.lean ====
section
/-! SUPPORT. The shared operations that send, count and raise: each changes nothing but what goes out of the node. -/

namespace Sys2Proof.Laws
open Sys2Proof Sys2Proof.Machine Sys2Proof.Safety

/-- Nothing has changed between `s` and `t` but counters, seats, traffic, transport, and the free values drawn. -/
structure Sent (s t : State) : Prop where
  time : t.time = s.time
  boot : t.boot = s.boot
  rst : t.rst = s.rst
  supply : t.supply = s.supply
  mon : t.mon = s.mon
  health : t.health = s.health
  cores : t.cores = s.cores
  fab : t.fab = s.fab
  dir : t.dir = s.dir
  mem : t.mem = s.mem
  nb : t.nb = s.nb
  pg : t.pg = s.pg
  trust : t.trust = s.trust
  acc : t.acc = s.acc
  pending : t.pending = s.pending
  ev : t.ev = s.ev

theorem sent_refl (s : State) : Sent s s := by constructor <;> rfl

theorem sent_trans {s t u : State} (a : Sent s t) (b : Sent t u) : Sent s u :=
  ⟨b.1.trans a.1, b.2.trans a.2, b.3.trans a.3, b.4.trans a.4, b.5.trans a.5, b.6.trans a.6, b.7.trans a.7, b.8.trans a.8, b.9.trans a.9,
   b.10.trans a.10, b.11.trans a.11, b.12.trans a.12, b.13.trans a.13, b.14.trans a.14, b.15.trans a.15, b.16.trans a.16⟩

theorem sent_ite {s a b : State} {c : Prop} [Decidable c] (ha : Sent s a) (hb : Sent s b) : Sent s (if c then a else b) := by
  split
  · exact ha
  · exact hb

theorem sent_ite_fst {α : Type} {s : State} {a b : State × α} {c : Prop} [Decidable c] (ha : Sent s a.1) (hb : Sent s b.1) :
    Sent s (if c then a else b).1 := by
  split
  · exact ha
  · exact hb

theorem sent_foldl {α : Type} {f : State → α → State} (h : ∀ s a, Sent s (f s a)) (l : List α) (s : State) :
    Sent s (l.foldl f s) := by
  induction l generalizing s with
  | nil => exact sent_refl s
  | cons a r ih => exact sent_trans (h s a) (ih (f s a))

theorem sent_addCtr (s : State) (c : Ctr) (n : Nat) : Sent s (addCtr s c n) := by constructor <;> rfl
theorem sent_bump (s : State) (c : Ctr) : Sent s (bump s c) := by constructor <;> rfl
theorem sent_maxCtr (s : State) (c : Ctr) (n : Nat) : Sent s (maxCtr s c n) := by constructor <;> rfl
theorem sent_clearCtr (s : State) (c : Ctr) : Sent s (clearCtr s c) := by constructor <;> rfl
theorem sent_draw (s : State) : Sent s (draw s).2 := by constructor <;> rfl
theorem sent_drawPick (s : State) (n : Nat) : Sent s (drawPick s n).2 := by constructor <;> rfl
theorem sent_drawBytes (s : State) (n : Nat) : Sent s (drawBytes s n).2 := by constructor <;> rfl
theorem sent_putSeat (s : State) (i : Nat) (x : Seat) : Sent s (putSeat s i x) := by constructor <;> rfl
theorem sent_updSeat (s : State) (i : Nat) (f : Seat → Seat) : Sent s (updSeat s i f) := by constructor <;> rfl
theorem sent_putST (s : State) (i : Nat) (x : SeatTraffic) : Sent s (putST s i x) := by constructor <;> rfl
theorem sent_putCC (s : State) (i c : Nat) (x : ClassCfg) : Sent s (putCC s i c x) := by constructor <;> rfl
theorem sent_putQ (s : State) (q : QId) (x : EQueue) : Sent s (putQ s q x) := by constructor <;> rfl
theorem sent_putShaper (s : State) (i q : Nat) (x : Shaper) : Sent s (putShaper s i q x) := by constructor <;> rfl
theorem sent_putPeer (s : State) (k : Nat) (p : Peer) : Sent s (putPeer s k p) := by constructor <;> rfl
theorem sent_delPeer (s : State) (k : Nat) : Sent s (delPeer s k) := by constructor <;> rfl
theorem sent_newPeer (s : State) (k : Nat) (h : Hop) : Sent s (newPeer s k h).2 := by constructor <;> rfl
theorem sent_enqueue (s : State) (i c q : Nat) (f : QFrame) : Sent s (enqueue s i c q f) := by constructor <;> rfl
theorem sent_setQDeficit (s : State) (i c q d : Nat) : Sent s (setQDeficit s i c q d) := by constructor <;> rfl

theorem sent_queueFrame (s : State) (i c q : Nat) (bs : List Byte) : Sent s (queueFrame s i c q bs) := by
  unfold queueFrame; dsimp only; split <;> constructor <;> rfl

theorem sent_drainBacklog (s : State) : Sent s (drainBacklog s) := by
  unfold drainBacklog
  refine sent_trans ?_ (sent_foldl (fun s b => sent_queueFrame s _ _ _ _) _ _)
  constructor <;> rfl

theorem sent_originate (s : State) (i mac ip c q : Nat) (h : THdr) (pl : List Byte) : Sent s (originate s i mac ip c q h pl) :=
  sent_queueFrame s i c q _

theorem sent_chargeShapers (s : State) (i c q n : Nat) : Sent s (chargeShapers s i c q n) := by
  unfold chargeShapers; dsimp only; split <;> split <;> constructor <;> rfl

theorem sent_countHolds (s : State) (i : Nat) : Sent s (countHolds s i) := by
  unfold countHolds
  refine sent_foldl (fun s p => ?_) _ _
  dsimp only
  split
  · split <;> constructor <;> rfl
  · exact sent_refl s

theorem sent_startFrame (st : Nat → List Byte → List Byte) (s : State) (i c q : Nat) : Sent s (startFrame st s i c q) := by
  unfold startFrame
  split
  · exact sent_refl s
  · extract_lets e soj bytes n s1 cc s2 s3 s4 s5
    have h1 : Sent s s1 := sent_putQ _ _ _
    have h2 : Sent s s2 := sent_trans h1 (sent_putCC _ _ _ _)
    have h3 : Sent s s3 := sent_trans h2 (sent_chargeShapers _ _ _ _ _)
    have h4 : Sent s3 s4 :=
      sent_trans (sent_trans (sent_trans (sent_bump _ _) (sent_addCtr _ _ _)) (sent_bump _ _)) (sent_addCtr _ _ _)
    have h5 : Sent s s5 := sent_trans h3 (sent_trans h4 (sent_updSeat _ _ _))
    exact sent_trans h5 (by constructor <;> rfl)

theorem sent_innerPick (n : Nat) (s t : State) (i c q : Nat) (h : innerPick n s i c = some (q, t)) : Sent s t := by
  induction n generalizing s with
  | zero => cases h
  | succ n ih =>
    unfold innerPick at h
    extract_lets ms cc q0 pass d s1 hl s2 at h
    have hp : ∀ u, Sent u (pass u) := fun u => sent_putCC _ _ _ _
    have h1 : Sent s s1 := sent_trans (sent_setQDeficit _ _ _ _ _) (sent_putCC _ _ _ _)
    have h2 : Sent s s2 := by
      show Sent s (if _ then _ else _)
      split
      · exact sent_setQDeficit _ _ _ _ _
      · exact sent_refl s
    clear_value pass s1 s2 hl d
    split at h
    · split at h
      · simp only [Option.some.injEq, Prod.mk.injEq] at h
        rw [← h.2]; exact sent_trans h1 (sent_setQDeficit _ _ _ _ _)
      · exact sent_trans h1 (sent_trans (hp _) (ih _ h))
    · exact sent_trans h2 (sent_trans (hp _) (ih _ h))

theorem sent_outerPick (n : Nat) (s t : State) (i c q : Nat) (h : outerPick n s i = some (c, q, t)) : Sent s t := by
  induction n generalizing s with
  | zero => cases h
  | succ n ih =>
    unfold outerPick at h
    extract_lets tt c0 pass cc d s1 s2 at h
    have hp : ∀ u, Sent u (pass u) := fun u => sent_putST _ _ _
    have h1 : Sent s s1 := sent_trans (sent_putCC _ _ _ _) (sent_putST _ _ _)
    have h2 : Sent s s2 := by
      show Sent s (if _ then _ else _)
      split
      · exact sent_putCC _ _ _ _
      · exact sent_refl s
    clear_value pass s1 s2 d
    split at h
    · split at h
      · exact sent_trans h1 (sent_trans (hp _) (ih _ h))
      · rename_i q1 u hi
        have hu := sent_innerPick _ _ _ _ _ _ hi
        extract_lets hl at h
        split at h
        · simp only [Option.some.injEq, Prod.mk.injEq] at h
          rw [← h.2.2]; exact sent_trans h1 (sent_trans hu (sent_putCC _ _ _ _))
        · exact sent_trans h1 (sent_trans (hp _) (ih _ h))
    · exact sent_trans h2 (sent_trans (hp _) (ih _ h))

theorem sent_schedule (s t : State) (i c q : Nat) (h : schedule s i = some (c, q, t)) : Sent s t := by
  unfold schedule at h
  dsimp only at h
  split at h
  · simp only [Option.map_eq_some_iff] at h; obtain ⟨⟨a, u⟩, h, e⟩ := h; cases e; exact sent_innerPick _ _ _ _ _ _ h
  · split at h
    · simp only [Option.map_eq_some_iff] at h; obtain ⟨⟨a, u⟩, h, e⟩ := h; cases e; exact sent_innerPick _ _ _ _ _ _ h
    · split at h
      · exact sent_outerPick _ _ _ _ _ _ h
      · cases h

theorem sent_settlePause (s : State) (i : Nat) : Sent s (settlePause s i) := by
  unfold settlePause
  refine sent_trans (sent_foldl (fun s p => sent_foldl (fun s c => ?_) _ _) _ _) (sent_updSeat _ _ _)
  split
  · exact sent_addCtr _ _ _
  · exact sent_refl _

theorem sent_sendPfc (s : State) (i p : Nat) (o : Bool) : Sent s (sendPfc s i p o) := by constructor <;> rfl

theorem sent_ingressIn (s : State) (i p n : Nat) : Sent s (ingressIn s i p n) := by
  unfold ingressIn; dsimp only; split
  · exact sent_trans (sent_putSeat _ _ _) (sent_sendPfc _ _ _ _)
  · exact sent_putSeat _ _ _

theorem sent_ingressOut (s : State) (i p n : Nat) : Sent s (ingressOut s i p n) := by
  unfold ingressOut; dsimp only; split
  · exact sent_trans (sent_putSeat _ _ _) (sent_sendPfc _ _ _ _)
  · exact sent_putSeat _ _ _

theorem sent_ingressDrain (s : State) (i : Nat) : Sent s (ingressDrain s i) :=
  sent_foldl (fun s _ => sent_trans (sent_drawPick s _) (sent_ingressOut _ _ _ _)) _ _

theorem sent_arrive (s : State) (i : Nat) (f : Frame) (hf : f.fecOk = true) : Sent s (arrive s i f) := by
  unfold arrive
  extract_lets s1 s2 s3
  have h2 : Sent s s2 := sent_trans (sent_trans (sent_bump _ _) (sent_addCtr _ _ _)) (sent_addCtr _ _ _)
  have h3 : Sent s2 s3 := by
    show Sent s2 (if _ then _ else _)
    rw [if_pos hf]; exact sent_refl _
  exact sent_trans h2 (sent_trans h3 (sent_ite (sent_updSeat _ _ _) (sent_refl _)))

/-- A frame that passes its checks has no uncorrectable codeword. -/
theorem receive_fecOk {s u : State} {i : Nat} {f : Frame} {rx : Rx} (h : receive s i f = (u, some rx)) : f.fecOk = true := by
  cases e : f.fecOk
  · unfold receive at h
    have hc : ∀ t, checkFrame t i f = .error (chk 1) := fun t => by unfold checkFrame; simp [e]
    split at h
    · cases h
    · dsimp only at h
      split at h
      · cases h
      · simp [hc] at h
  · rfl

theorem sent_receive (s : State) (i : Nat) (f : Frame) (hf : f.fecOk = true) : Sent s (receive s i f).1 := by
  unfold receive
  have h1 := sent_trans (sent_arrive s i f hf) (sent_ingressDrain _ i)
  split
  · exact sent_refl s
  · refine sent_ite_fst (sent_trans h1 (sent_bump _ _)) ?_
    split
    · exact sent_trans h1 (sent_bump _ _)
    · exact sent_ite_fst (sent_trans h1 (sent_bump _ _)) (sent_trans h1 (sent_ingressIn _ _ _ _))

theorem sent_noteSeen (s : State) (rx : Rx) : Sent s (noteSeen s rx) := by
  unfold noteSeen
  extract_lets k src s0 s1
  have h0 : Sent s s0 := by constructor <;> rfl
  have h1 : Sent s s1 := sent_trans h0 (sent_ite (sent_updSeat _ _ _) (sent_refl _))
  split
  · exact sent_trans h1 (sent_putPeer _ _ _)
  · exact h1

theorem sent_ensurePeer (s t : State) (k : Nat) (h : Hop) (e : ensurePeer s k h = some t) : Sent s t := by
  unfold ensurePeer at e
  split at e
  · cases e; exact sent_refl s
  · dsimp only at e
    split at e
    · cases e; exact sent_trans (sent_newPeer s k h) (sent_putPeer _ _ _)
    · split at e
      · cases e
        exact sent_trans (sent_trans (sent_delPeer s _) (sent_bump _ _)) (sent_trans (sent_newPeer _ k h) (sent_putPeer _ _ _))
      · cases e

theorem sent_pumpMsg (n : Nat) (s : State) (k m : Nat) : Sent s (pumpMsg n s k m) := by
  induction n generalizing s with
  | zero => exact sent_refl s
  | succ n ih =>
    unfold pumpMsg
    split
    · exact sent_refl s
    · dsimp only
      split
      · exact sent_refl s
      · exact sent_trans (sent_trans (sent_putPeer _ _ _) (sent_originate _ _ _ _ _ _ _ _)) (ih _)

theorem sent_pump (s : State) (k : Nat) : Sent s (pump s k) := by
  unfold pump
  split
  · exact sent_refl s
  · exact sent_foldl (fun s m => sent_pumpMsg _ _ _ _) _ _

theorem sent_pumpAll (s : State) : Sent s (pumpAll s) := sent_foldl sent_pump _ _

theorem sent_sendTo (s : State) (k ty te c : Nat) (bs : List Byte) : Sent s (sendTo s k ty te c bs) := by
  unfold sendTo
  dsimp only
  split
  · exact sent_bump _ _
  · rename_i s1 e
    have h := sent_ensurePeer _ _ _ _ e
    split
    · exact h
    · exact sent_trans h (sent_trans (sent_putPeer _ _ _) (sent_pump _ _))

theorem sent_sendMsg (s : State) (n ty te c : Nat) (bs : List Byte) : Sent s (sendMsg s n ty te c bs) := sent_sendTo _ _ _ _ _ _

theorem sent_originateAck (s : State) (h : Hop) (k a : Nat) (v : Bool) (e : Nat) (pl : List Byte) :
    Sent s (originateAck s h k a v e pl) := sent_originate _ _ _ _ _ _ _ _

theorem sent_sendAck (s : State) (k : Nat) : Sent s (sendAck s k) := by
  unfold sendAck
  split
  · exact sent_refl s
  · split
    · exact sent_trans (sent_putPeer _ _ _) (sent_originateAck _ _ _ _ _ _ _)
    · exact sent_refl s

theorem sent_reassemble (s : State) (k : Nat) (p : Peer) (rx : Rx) : Sent s (reassemble s k p rx).1 := by
  unfold reassemble
  extract_lets h tooLong m0 m others
  clear_value tooLong m others
  split
  · dsimp only; split
    · exact sent_trans (sent_putPeer _ _ _) (sent_bump _ _)
    · exact sent_putPeer _ _ _
  · split
    · exact sent_putPeer _ _ _
    · split
      · exact sent_trans (sent_putPeer s k _) (sent_bump _ _)
      · exact sent_putPeer s k _

theorem sent_storeData (s : State) (k : Nat) (p : Peer) (rx : Rx) (d : Bool) : Sent s (storeData s k p rx d).1 := by
  unfold storeData
  split
  · exact sent_putPeer _ _ _
  · exact sent_reassemble _ _ _ _

/-- The last part of the receipt of a DATA frame. -/
theorem sent_recvEnd {s s1 : State} {k : Nat} {p : Peer} {r : State × Option Delivered} {c d : Prop} [Decidable c] [Decidable d]
    (h1 : Sent s s1) (hr : Sent s r.1) :
    Sent s (if c then (bump (putPeer s1 k p) (.transport 7), none) else (if d then sendAck r.1 k else r.1, r.2) : State × Option Delivered).1 := by
  refine sent_ite_fst ?_ ?_
  · exact sent_trans h1 (sent_trans (sent_putPeer s1 k _) (sent_bump _ _))
  · exact sent_ite (sent_trans hr (sent_sendAck _ _)) hr

theorem sent_recvData (s : State) (rx : Rx) (ce : Bool) : Sent s (recvData s rx ce).1 := by
  unfold recvData
  extract_lets h k hop known a1
  clear_value known
  split
  · refine sent_trans (t := a1) ?_ (sent_bump _ _)
    dsimp only [a1]
    split
    · exact sent_originateAck _ _ _ _ _ _ _
    · exact sent_refl s
  · split
    · exact sent_bump _ _
    · rename_i s1 e
      have h1 := sent_ensurePeer _ _ _ _ e
      split
      · exact h1
      · exact sent_recvEnd h1 (sent_trans h1 (sent_storeData _ _ _ _ _))

theorem sent_retransmit (s : State) (k : Nat) (f : SentFrame) : Sent s (retransmit s k f) := by
  unfold retransmit
  split
  · exact sent_refl s
  · exact sent_trans (sent_trans (sent_putPeer _ _ _) (sent_originate _ _ _ _ _ _ _ _)) (sent_bump _ _)

theorem sent_restartPeer (s : State) (k : Nat) : Sent s (restartPeer s k) := by
  unfold restartPeer
  split
  · exact sent_refl s
  · exact sent_trans (sent_newPeer s k _) (sent_trans (sent_putPeer _ _ _) (sent_pump _ _))

theorem sent_takeAck (s : State) (k : Nat) (a : AckIn) : Sent s (takeAck s k a) := by
  unfold takeAck
  split
  · exact sent_refl s
  · split
    · exact sent_trans (sent_bump _ _) (sent_restartPeer _ _)
    · split
      · exact sent_refl s
      · exact sent_trans (sent_trans (sent_putPeer _ _ _) (sent_foldl (fun s f => sent_retransmit s _ f) _ _)) (sent_pump _ _)

theorem sent_piggyback (s : State) (rx : Rx) : Sent s (piggyback s rx) := sent_takeAck _ _ _

theorem outward_refl (s : State) : Outward s s := by constructor <;> rfl

theorem outward_trans {s t u : State} (a : Outward s t) (b : Outward t u) : Outward s u :=
  ⟨b.1.trans a.1, b.2.trans a.2, by rw [b.3, a.3], b.4.trans a.4, b.5.trans a.5, b.6.trans a.6, b.7.trans a.7, b.8.trans a.8, b.9.trans a.9,
   b.10.trans a.10, b.11.trans a.11, b.12.trans a.12, b.13.trans a.13, b.14.trans a.14, b.15.trans a.15⟩

theorem outward_ite {s a b : State} {c : Prop} [Decidable c] (ha : Outward s a) (hb : Outward s b) : Outward s (if c then a else b) := by
  split
  · exact ha
  · exact hb

theorem outward_ite_fst {α : Type} {s : State} {a b : State × α} {c : Prop} [Decidable c] (ha : Outward s a.1) (hb : Outward s b.1) :
    Outward s (if c then a else b).1 := by
  split
  · exact ha
  · exact hb

theorem outward_foldl {α : Type} {f : State → α → State} (h : ∀ s a, Outward s (f s a)) (l : List α) (s : State) :
    Outward s (l.foldl f s) := by
  induction l generalizing s with
  | nil => exact outward_refl s
  | cons a r ih => exact outward_trans (h s a) (ih (f s a))

theorem outward_of_sent {s t : State} (h : Sent s t) : Outward s t :=
  ⟨h.1, h.2, by rw [h.3], h.4, h.5, h.6, h.7, h.8, h.9, h.10, h.11, h.12, h.13, h.14, h.15⟩

theorem outward_setAlert (s : State) (b : Nat) : Outward s (setAlert s b) := by constructor <;> rfl

theorem outward_loseEvent (s : State) (c : Nat) : Outward s (loseEvent s c) := by constructor <;> rfl

theorem outward_sendEvent (s : State) (e : Event) : Outward s (sendEvent s e) := by
  unfold sendEvent
  split
  · exact outward_refl s
  · extract_lets sec n src s1
    have h1 : Outward s s1 := by constructor <;> rfl
    clear_value s1 n
    exact outward_ite (outward_loseEvent _ _)
      (outward_trans (outward_trans h1 (outward_of_sent (sent_trans (sent_bump _ _) (sent_bump _ _)))) (outward_of_sent (sent_sendTo _ _ _ _ _ _)))

theorem outward_raiseEvent (s : State) (c : Nat) (p : List Byte) : Outward s (raiseEvent s c p) := by
  unfold raiseEvent
  dsimp only
  split
  · exact outward_trans (by constructor <;> rfl) (outward_sendEvent _ _)
  · split <;> constructor <;> rfl

/-- A report of the health changes nothing, or notes when SCORE was last reported and raises an event. -/
theorem healthReport_cases (s : State) : healthReport s = s ∨
    ∃ x p, healthReport s = raiseEvent { s with health := { s.health with lastScore := x, lastAt := some s.time } } evHealthChanged p := by
  unfold healthReport
  dsimp only
  generalize scoreOf s.health.d = x
  split
  · exact .inr ⟨x, _, rfl⟩
  · exact .inl rfl

theorem outward_healthReport (s : State) : Outward { s with health := (healthReport s).health } (healthReport s) ∧
    (healthReport s).health.d = s.health.d ∧ (healthReport s).health.dh = s.health.dh := by
  obtain e | ⟨x, p, e⟩ := healthReport_cases s
  · rw [e]; exact ⟨outward_refl s, rfl, rfl⟩
  · rw [e, (outward_raiseEvent _ _ _).health]
    exact ⟨outward_raiseEvent _ _ _, rfl, rfl⟩

/-- Health added changes the deficits, and what a report of it sends. -/
theorem outward_addHealth (s : State) (b : Bool) (w : Nat) : Outward { s with health := (addHealth s b w).health } (addHealth s b w) := by
  unfold addHealth
  generalize addNewest s.health.d w = d
  generalize (if b = true then addNewest s.health.dh w else s.health.dh) = e
  have h := (outward_healthReport { s with health := { s.health with d := d, dh := e } }).1
  exact ⟨h.1, h.2, h.3, h.4, h.5, h.6, h.7, h.8, h.9, h.10, h.11, h.12, h.13, h.14, h.15⟩

theorem outward_raiseSeatEvent (s : State) (c i r p : Nat) : Outward s (raiseSeatEvent s c i r p) := outward_raiseEvent _ _ _

theorem outward_flushEvents (s : State) : Outward s (flushEvents s) := by
  unfold flushEvents
  split
  · refine outward_trans ?_ (outward_foldl outward_sendEvent _ _)
    constructor <;> rfl
  · exact outward_refl s

theorem outward_hostAppears (s : State) : Outward s (hostAppears s) := by
  unfold hostAppears
  split
  · exact outward_refl s
  · rename_i node unit _
    extract_lets src src2 s1
    have h : Outward s s1 := outward_trans (outward_flushEvents s) (by constructor <;> rfl)
    clear_value s1
    split
    · split
      · exact h
      · exact outward_trans h (outward_raiseEvent _ _ _)
    · exact h

end Sys2Proof.Laws
end

