-- ==== Sys2Proof/Laws/Tab.lean ====
section
/-! SUPPORT. The laws of tables: what is read after a value has been put, changed or removed. -/

namespace Sys2Proof.Laws
open Sys2Proof.Machine

variable {κ α : Type} [DecidableEq κ]

@[simp] theorem find_nil (k : κ) : Tab.find ([] : Tab κ α) k = none := rfl

@[simp] theorem find_put_same (t : Tab κ α) (k : κ) (v : α) : Tab.find (Tab.put t k v) k = some v := by
  induction t with
  | nil => simp [Tab.put, Tab.find]
  | cons p r ih =>
    obtain ⟨k', w⟩ := p
    by_cases h : k' = k
    · simp [Tab.put, Tab.find, h]
    · simp [Tab.put, Tab.find, h, ih]

theorem find_put_other (t : Tab κ α) (k j : κ) (v : α) (h : j ≠ k) : Tab.find (Tab.put t k v) j = Tab.find t j := by
  induction t with
  | nil => simp [Tab.put, Tab.find, Ne.symm h]
  | cons p r ih =>
    obtain ⟨k', w⟩ := p
    unfold Tab.put
    split
    · subst k'; simp [Tab.find, Ne.symm h]
    · simp [Tab.find, ih]

theorem find_put (t : Tab κ α) (k j : κ) (v : α) : Tab.find (Tab.put t k v) j = if j = k then some v else Tab.find t j := by
  by_cases h : j = k
  · subst h; simp
  · simp [h, find_put_other]

@[simp] theorem get_put_same (t : Tab κ α) (d : α) (k : κ) (v : α) : Tab.get (Tab.put t k v) d k = v := by simp [Tab.get]

theorem get_put_other (t : Tab κ α) (d : α) (k j : κ) (v : α) (h : j ≠ k) : Tab.get (Tab.put t k v) d j = Tab.get t d j := by
  simp [Tab.get, find_put_other _ _ _ _ h]

theorem del_cons (p : κ × α) (r : Tab κ α) (k : κ) : Tab.del (p :: r) k = if p.1 = k then Tab.del r k else p :: Tab.del r k := by
  by_cases h : p.1 = k <;> simp [Tab.del, h]

@[simp] theorem find_del_same (t : Tab κ α) (k : κ) : Tab.find (Tab.del t k) k = none := by
  induction t with
  | nil => rfl
  | cons p r ih =>
    rw [del_cons]
    split
    · exact ih
    · next h => simp [Tab.find, h, ih]

theorem find_del_other (t : Tab κ α) (k j : κ) (h : j ≠ k) : Tab.find (Tab.del t k) j = Tab.find t j := by
  induction t with
  | nil => rfl
  | cons p r ih =>
    rw [del_cons]
    split
    · next h1 => simp [Tab.find, h1, Ne.symm h, ih]
    · simp [Tab.find, ih]

@[simp] theorem get_del_same (t : Tab κ α) (d : α) (k : κ) : Tab.get (Tab.del t k) d k = d := by simp [Tab.get]

theorem get_del_other (t : Tab κ α) (d : α) (k j : κ) (h : j ≠ k) : Tab.get (Tab.del t k) d j = Tab.get t d j := by
  simp [Tab.get, find_del_other _ _ _ h]

@[simp] theorem get_upd_same (t : Tab κ α) (d : α) (k : κ) (f : α → α) : Tab.get (Tab.upd t d k f) d k = f (Tab.get t d k) := by
  simp [Tab.upd]

theorem get_upd_other (t : Tab κ α) (d : α) (k j : κ) (f : α → α) (h : j ≠ k) : Tab.get (Tab.upd t d k f) d j = Tab.get t d j := by
  simp [Tab.upd, get_put_other _ _ _ _ _ h]

end Sys2Proof.Laws
end

