-- ==== Sys2Proof/Laws/Issue.lean ====
section
/-! SUPPORT. The issue and the completion of an instruction: what each meaning of the program families is made of. -/

namespace Sys2Proof.Laws
open Sys2Proof Sys2Proof.Machine Sys2Proof.Safety

/-- An instruction that may issue has the effect its meaning gives it. -/
theorem issueStep_eq {s : State} {c : Nat} {p : Prog} {is : Nat → Bool} (h : MayIssue s c p is) (f : State → Prog → Nat → Nat → State) :
    issueStep s c is f = f (afterIssue s c p) (issuedProg s p) (p.word p.next) p.next := by
  obtain ⟨h1, h2, h3, h4, h5, h6, _, h7⟩ := h
  unfold issueStep
  rw [h1]
  dsimp only
  rw [if_neg (by simp [h2, h3, h4, h5]), if_pos h7]
  dsimp only
  rw [if_neg Bool.false_ne_true, if_neg (by simp [h6])]
  rfl

@[simp] theorem getCtx_putCtx (s : State) (c : Nat) (p : Prog) : getCtx (putCtx s c p) c = some p := find_put_same _ _ _

theorem getCtx_putCtx_other (s : State) {c d : Nat} (p : Prog) (h : d ≠ c) : getCtx (putCtx s c p) d = getCtx s d := find_put_other _ _ _ _ h

@[simp] theorem getCtx_updLedger (s : State) (l : Nat) (f : Ledger → Ledger) (c : Nat) : getCtx (updLedger s l f) c = getCtx s c := by
  unfold updLedger; split
  · split <;> rfl
  · rfl

@[simp] theorem getCtx_ledgerProgress (s : State) (p : Prog) (c : Nat) : getCtx (ledgerProgress s p) c = getCtx s c := getCtx_updLedger _ _ _ _

@[simp] theorem getCtx_addCtr (s : State) (k : Ctr) (n c : Nat) : getCtx (addCtr s k n) c = getCtx s c := rfl
@[simp] theorem getCtx_bump (s : State) (k : Ctr) (c : Nat) : getCtx (bump s k) c = getCtx s c := rfl

theorem getCtx_outward {s t : State} (h : Outward s t) (c : Nat) : getCtx t c = getCtx s c := by unfold getCtx; rw [h.pg]

@[simp] theorem getCtx_afterIssue (s : State) (c : Nat) (p : Prog) : getCtx (afterIssue s c p) c = some (issuedProg s p) := by simp [afterIssue]

theorem getCtx_updCtx (s : State) (c : Nat) (f : Prog → Prog) : getCtx (updCtx s c f) c = (getCtx s c).map f := by
  unfold updCtx
  split <;> simp [*]

theorem getCtx_updCtx_other (s : State) {c d : Nat} (f : Prog → Prog) (h : d ≠ c) : getCtx (updCtx s c f) d = getCtx s d := by
  unfold updCtx; split
  · exact getCtx_putCtx_other _ _ h
  · rfl

/-! ### The frame of a step -/

theorem stepFrame_refl (s : State) (c : Nat) : StepFrame s s c := ⟨by constructor <;> rfl, fun _ _ => rfl, rfl, rfl⟩

theorem stepFrame_trans {s t u : State} {c : Nat} (a : StepFrame s t c) (b : StepFrame t u c) : StepFrame s u c := by
  obtain ⟨a1, a2, a3, a4⟩ := a
  obtain ⟨b1, b2, b3, b4⟩ := b
  refine ⟨?_, fun d h => (b2 d h).trans (a2 d h), b3.trans a3, b4.trans a4⟩
  have hm := b1.mem
  have ha := a1.mem
  dsimp only at hm ha
  constructor
  · exact b1.time.trans a1.time
  · exact b1.boot.trans a1.boot
  · have h1 := b1.rst; have h2 := a1.rst; dsimp only at h1 h2 ⊢; rw [h1, h2]
  · exact b1.supply.trans a1.supply
  · exact b1.mon.trans a1.mon
  · exact b1.health.trans a1.health
  · exact b1.cores.trans a1.cores
  · exact b1.fab.trans a1.fab
  · exact b1.dir.trans a1.dir
  · show u.mem = _
    rw [hm, ha]
  · exact b1.nb.trans a1.nb
  · rfl
  · exact b1.trust.trans a1.trust
  · exact b1.acc.trans a1.acc
  · exact b1.pending.trans a1.pending

theorem stepFrame_outward {s t : State} (c : Nat) (h : Outward s t) : StepFrame s t c := by
  refine ⟨?_, fun d _ => getCtx_outward h d, by rw [h.pg], by rw [h.pg]⟩
  constructor
  · exact h.time
  · exact h.boot
  · exact h.rst
  · exact h.supply
  · exact h.mon
  · exact h.health
  · exact h.cores
  · exact h.fab
  · exact h.dir
  · show t.mem = _
    rw [h.mem]
  · exact h.nb
  · rfl
  · exact h.trust
  · exact h.acc
  · exact h.pending

theorem stepFrame_putCtx (s : State) (c : Nat) (p : Prog) : StepFrame s (putCtx s c p) c :=
  ⟨by constructor <;> rfl, fun _ h => getCtx_putCtx_other _ _ h, rfl, rfl⟩

theorem stepFrame_putLedger (s : State) (c : Nat) (r : Ledger) : StepFrame s (putLedger s r) c :=
  ⟨by constructor <;> rfl, fun _ _ => rfl, rfl, rfl⟩

theorem stepFrame_updLedger (s : State) (c l : Nat) (f : Ledger → Ledger) : StepFrame s (updLedger s l f) c := by
  unfold updLedger; split
  · split
    · exact stepFrame_putLedger _ _ _
    · exact stepFrame_refl _ _
  · exact stepFrame_refl _ _

theorem stepFrame_ledgerProgress (s : State) (c : Nat) (p : Prog) : StepFrame s (ledgerProgress s p) c := stepFrame_updLedger _ _ _ _

theorem stepFrame_updCtx (s : State) (c : Nat) (f : Prog → Prog) : StepFrame s (updCtx s c f) c := by
  unfold updCtx; split
  · exact stepFrame_putCtx _ _ _
  · exact stepFrame_refl _ _

theorem stepFrame_afterIssue (s : State) (c : Nat) (p : Prog) : StepFrame s (afterIssue s c p) c :=
  stepFrame_trans (stepFrame_putCtx _ _ _) (stepFrame_ledgerProgress _ _ _)

/-! ### Completion -/

theorem time_ledgerProgress (s : State) (p : Prog) : (ledgerProgress s p).time = s.time := by
  unfold ledgerProgress updLedger; dsimp only; split
  · split <;> rfl
  · rfl

/-- The step of the program just issued runs. -/
theorem step_issuedProg {s : State} {p : Prog} (h : p.next < p.steps.length) :
    (issuedProg s p).step p.next = ⟨.running, 0, 0, s.time, decide (effRole s = roleShadow), isBank (p.word p.next) && p.polled p.next, 0, 0, [],
      p.scratch, none⟩ := by
  simp [issuedProg, Prog.step, h]

theorem complete_step {p : Prog} {k : Nat} (h : k < p.steps.length) (c : Compl) (t : Time) :
    (p.complete k c t).step k = { p.step k with phase := .done, status := c.1, detail := c.2, at' := t } := by
  unfold Prog.complete
  dsimp only
  split <;> simp [Prog.step, Prog.setScalar, h]

theorem complete_fields (p : Prog) (k : Nat) (c : Compl) (t : Time) :
    (p.complete k c t).next = p.next ∧ (p.complete k c t).words = p.words ∧ (p.complete k c t).deadline = p.deadline ∧
      (p.complete k c t).steps.length = p.steps.length ∧ (p.complete k c t).lsn = p.lsn := by
  unfold Prog.complete
  dsimp only
  split <;> simp [Prog.setScalar]

theorem wake_done {p : Prog} {k : Nat} (h : p.next = k + 1) (d : (p.step k).phase = .done) (t : Time) : p.wake t = p := by
  unfold Prog.wake
  simp [h, d]

/-- The instruction just issued completes with a status that is no failure: it is done, and the program goes on. -/
theorem finishStep_done {s : State} {c k : Nat} {q : Prog} (hq : getCtx s c = some q) (hn : q.next = k + 1) (hl : k < q.steps.length)
    (hr : (q.step k).phase = .running) (hd : deadlinePassed s q = false) (hu : writesByUnits (q.word k) = false) (r : Compl) (hf : isFailure r.1 = false) :
    StepDone (finishStep s c k r) c k r.1 r.2 ∧ StepFrame s (finishStep s c k r) c := by
  have hf' := complete_fields q k r s.time
  have hk := complete_step hl r s.time
  have hw : (q.complete k r s.time).wake s.time = q.complete k r s.time :=
    wake_done (by rw [hf'.1, hn]) (by rw [hk]) _
  have e : finishStep s c k r = ledgerProgress (putCtx s c (q.complete k r s.time)) (q.complete k r s.time) := by
    unfold finishStep
    simp only [hq, hr, hf, hu]
    have hw' : ({ q.complete k r s.time with fails := (q.complete k r s.time).fails } : Prog).wake s.time = q.complete k r s.time := hw
    simp only [Bool.false_and, Bool.false_eq_true, if_false, hw']
    have : deadlinePassed (ledgerProgress (putCtx s c (q.complete k r s.time)) (q.complete k r s.time)) (q.complete k r s.time) = false := by
      unfold deadlinePassed at *
      rw [hf'.2.2.1, time_ledgerProgress]; exact hd
    have h3 : deadlinePassed s (q.complete k r s.time) = false := by
      unfold deadlinePassed at *
      rw [hf'.2.2.1]; exact hd
    simp [h3]
  rw [e]
  refine ⟨⟨q.complete k r s.time, by simp, ?_, ?_, ?_⟩, stepFrame_trans (stepFrame_putCtx _ _ _) (stepFrame_ledgerProgress _ _ _)⟩ <;> rw [hk]

end Sys2Proof.Laws
end

