-- ==== Sys2Proof/Laws/State.lean ====
section
/-! SUPPORT. What each named update of the state leaves: one lemma for each field of the state. -/

namespace Sys2Proof.Laws
open Sys2Proof Sys2Proof.Machine

@[simp] theorem addCtr_time (s : State) (c : Ctr) (n : Nat) : (addCtr s c n).time = s.time := rfl
@[simp] theorem addCtr_boot (s : State) (c : Ctr) (n : Nat) : (addCtr s c n).boot = s.boot := rfl
@[simp] theorem addCtr_rst (s : State) (c : Ctr) (n : Nat) : (addCtr s c n).rst = s.rst := rfl
@[simp] theorem addCtr_supply (s : State) (c : Ctr) (n : Nat) : (addCtr s c n).supply = s.supply := rfl
@[simp] theorem addCtr_mon (s : State) (c : Ctr) (n : Nat) : (addCtr s c n).mon = s.mon := rfl
@[simp] theorem addCtr_health (s : State) (c : Ctr) (n : Nat) : (addCtr s c n).health = s.health := rfl
@[simp] theorem addCtr_cores (s : State) (c : Ctr) (n : Nat) : (addCtr s c n).cores = s.cores := rfl
@[simp] theorem addCtr_ev (s : State) (c : Ctr) (n : Nat) : (addCtr s c n).ev = s.ev := rfl
@[simp] theorem addCtr_seats (s : State) (c : Ctr) (n : Nat) : (addCtr s c n).seats = s.seats := rfl
@[simp] theorem addCtr_tr (s : State) (c : Ctr) (n : Nat) : (addCtr s c n).tr = s.tr := rfl
@[simp] theorem addCtr_net (s : State) (c : Ctr) (n : Nat) : (addCtr s c n).net = s.net := rfl
@[simp] theorem addCtr_fab (s : State) (c : Ctr) (n : Nat) : (addCtr s c n).fab = s.fab := rfl
@[simp] theorem addCtr_dir (s : State) (c : Ctr) (n : Nat) : (addCtr s c n).dir = s.dir := rfl
@[simp] theorem addCtr_mem (s : State) (c : Ctr) (n : Nat) : (addCtr s c n).mem = s.mem := rfl
@[simp] theorem addCtr_nb (s : State) (c : Ctr) (n : Nat) : (addCtr s c n).nb = s.nb := rfl
@[simp] theorem addCtr_pg (s : State) (c : Ctr) (n : Nat) : (addCtr s c n).pg = s.pg := rfl
@[simp] theorem addCtr_trust (s : State) (c : Ctr) (n : Nat) : (addCtr s c n).trust = s.trust := rfl
@[simp] theorem addCtr_acc (s : State) (c : Ctr) (n : Nat) : (addCtr s c n).acc = s.acc := rfl
@[simp] theorem addCtr_freeIdx (s : State) (c : Ctr) (n : Nat) : (addCtr s c n).freeIdx = s.freeIdx := rfl
@[simp] theorem addCtr_pending (s : State) (c : Ctr) (n : Nat) : (addCtr s c n).pending = s.pending := rfl

@[simp] theorem bump_time (s : State) (c : Ctr) : (bump s c).time = s.time := rfl
@[simp] theorem bump_boot (s : State) (c : Ctr) : (bump s c).boot = s.boot := rfl
@[simp] theorem bump_rst (s : State) (c : Ctr) : (bump s c).rst = s.rst := rfl
@[simp] theorem bump_supply (s : State) (c : Ctr) : (bump s c).supply = s.supply := rfl
@[simp] theorem bump_mon (s : State) (c : Ctr) : (bump s c).mon = s.mon := rfl
@[simp] theorem bump_health (s : State) (c : Ctr) : (bump s c).health = s.health := rfl
@[simp] theorem bump_cores (s : State) (c : Ctr) : (bump s c).cores = s.cores := rfl
@[simp] theorem bump_ev (s : State) (c : Ctr) : (bump s c).ev = s.ev := rfl
@[simp] theorem bump_seats (s : State) (c : Ctr) : (bump s c).seats = s.seats := rfl
@[simp] theorem bump_tr (s : State) (c : Ctr) : (bump s c).tr = s.tr := rfl
@[simp] theorem bump_net (s : State) (c : Ctr) : (bump s c).net = s.net := rfl
@[simp] theorem bump_fab (s : State) (c : Ctr) : (bump s c).fab = s.fab := rfl
@[simp] theorem bump_dir (s : State) (c : Ctr) : (bump s c).dir = s.dir := rfl
@[simp] theorem bump_mem (s : State) (c : Ctr) : (bump s c).mem = s.mem := rfl
@[simp] theorem bump_nb (s : State) (c : Ctr) : (bump s c).nb = s.nb := rfl
@[simp] theorem bump_pg (s : State) (c : Ctr) : (bump s c).pg = s.pg := rfl
@[simp] theorem bump_trust (s : State) (c : Ctr) : (bump s c).trust = s.trust := rfl
@[simp] theorem bump_acc (s : State) (c : Ctr) : (bump s c).acc = s.acc := rfl
@[simp] theorem bump_freeIdx (s : State) (c : Ctr) : (bump s c).freeIdx = s.freeIdx := rfl
@[simp] theorem bump_pending (s : State) (c : Ctr) : (bump s c).pending = s.pending := rfl

@[simp] theorem maxCtr_time (s : State) (c : Ctr) (n : Nat) : (maxCtr s c n).time = s.time := rfl
@[simp] theorem maxCtr_boot (s : State) (c : Ctr) (n : Nat) : (maxCtr s c n).boot = s.boot := rfl
@[simp] theorem maxCtr_rst (s : State) (c : Ctr) (n : Nat) : (maxCtr s c n).rst = s.rst := rfl
@[simp] theorem maxCtr_supply (s : State) (c : Ctr) (n : Nat) : (maxCtr s c n).supply = s.supply := rfl
@[simp] theorem maxCtr_mon (s : State) (c : Ctr) (n : Nat) : (maxCtr s c n).mon = s.mon := rfl
@[simp] theorem maxCtr_health (s : State) (c : Ctr) (n : Nat) : (maxCtr s c n).health = s.health := rfl
@[simp] theorem maxCtr_cores (s : State) (c : Ctr) (n : Nat) : (maxCtr s c n).cores = s.cores := rfl
@[simp] theorem maxCtr_ev (s : State) (c : Ctr) (n : Nat) : (maxCtr s c n).ev = s.ev := rfl
@[simp] theorem maxCtr_seats (s : State) (c : Ctr) (n : Nat) : (maxCtr s c n).seats = s.seats := rfl
@[simp] theorem maxCtr_tr (s : State) (c : Ctr) (n : Nat) : (maxCtr s c n).tr = s.tr := rfl
@[simp] theorem maxCtr_net (s : State) (c : Ctr) (n : Nat) : (maxCtr s c n).net = s.net := rfl
@[simp] theorem maxCtr_fab (s : State) (c : Ctr) (n : Nat) : (maxCtr s c n).fab = s.fab := rfl
@[simp] theorem maxCtr_dir (s : State) (c : Ctr) (n : Nat) : (maxCtr s c n).dir = s.dir := rfl
@[simp] theorem maxCtr_mem (s : State) (c : Ctr) (n : Nat) : (maxCtr s c n).mem = s.mem := rfl
@[simp] theorem maxCtr_nb (s : State) (c : Ctr) (n : Nat) : (maxCtr s c n).nb = s.nb := rfl
@[simp] theorem maxCtr_pg (s : State) (c : Ctr) (n : Nat) : (maxCtr s c n).pg = s.pg := rfl
@[simp] theorem maxCtr_trust (s : State) (c : Ctr) (n : Nat) : (maxCtr s c n).trust = s.trust := rfl
@[simp] theorem maxCtr_acc (s : State) (c : Ctr) (n : Nat) : (maxCtr s c n).acc = s.acc := rfl
@[simp] theorem maxCtr_freeIdx (s : State) (c : Ctr) (n : Nat) : (maxCtr s c n).freeIdx = s.freeIdx := rfl
@[simp] theorem maxCtr_pending (s : State) (c : Ctr) (n : Nat) : (maxCtr s c n).pending = s.pending := rfl

@[simp] theorem clearCtr_time (s : State) (c : Ctr) : (clearCtr s c).time = s.time := rfl
@[simp] theorem clearCtr_boot (s : State) (c : Ctr) : (clearCtr s c).boot = s.boot := rfl
@[simp] theorem clearCtr_rst (s : State) (c : Ctr) : (clearCtr s c).rst = s.rst := rfl
@[simp] theorem clearCtr_supply (s : State) (c : Ctr) : (clearCtr s c).supply = s.supply := rfl
@[simp] theorem clearCtr_mon (s : State) (c : Ctr) : (clearCtr s c).mon = s.mon := rfl
@[simp] theorem clearCtr_health (s : State) (c : Ctr) : (clearCtr s c).health = s.health := rfl
@[simp] theorem clearCtr_cores (s : State) (c : Ctr) : (clearCtr s c).cores = s.cores := rfl
@[simp] theorem clearCtr_ev (s : State) (c : Ctr) : (clearCtr s c).ev = s.ev := rfl
@[simp] theorem clearCtr_seats (s : State) (c : Ctr) : (clearCtr s c).seats = s.seats := rfl
@[simp] theorem clearCtr_tr (s : State) (c : Ctr) : (clearCtr s c).tr = s.tr := rfl
@[simp] theorem clearCtr_net (s : State) (c : Ctr) : (clearCtr s c).net = s.net := rfl
@[simp] theorem clearCtr_fab (s : State) (c : Ctr) : (clearCtr s c).fab = s.fab := rfl
@[simp] theorem clearCtr_dir (s : State) (c : Ctr) : (clearCtr s c).dir = s.dir := rfl
@[simp] theorem clearCtr_mem (s : State) (c : Ctr) : (clearCtr s c).mem = s.mem := rfl
@[simp] theorem clearCtr_nb (s : State) (c : Ctr) : (clearCtr s c).nb = s.nb := rfl
@[simp] theorem clearCtr_pg (s : State) (c : Ctr) : (clearCtr s c).pg = s.pg := rfl
@[simp] theorem clearCtr_trust (s : State) (c : Ctr) : (clearCtr s c).trust = s.trust := rfl
@[simp] theorem clearCtr_acc (s : State) (c : Ctr) : (clearCtr s c).acc = s.acc := rfl
@[simp] theorem clearCtr_freeIdx (s : State) (c : Ctr) : (clearCtr s c).freeIdx = s.freeIdx := rfl
@[simp] theorem clearCtr_pending (s : State) (c : Ctr) : (clearCtr s c).pending = s.pending := rfl

@[simp] theorem setAlert_time (s : State) (b : Nat) : (setAlert s b).time = s.time := rfl
@[simp] theorem setAlert_boot (s : State) (b : Nat) : (setAlert s b).boot = s.boot := rfl
@[simp] theorem setAlert_supply (s : State) (b : Nat) : (setAlert s b).supply = s.supply := rfl
@[simp] theorem setAlert_mon (s : State) (b : Nat) : (setAlert s b).mon = s.mon := rfl
@[simp] theorem setAlert_health (s : State) (b : Nat) : (setAlert s b).health = s.health := rfl
@[simp] theorem setAlert_cores (s : State) (b : Nat) : (setAlert s b).cores = s.cores := rfl
@[simp] theorem setAlert_ev (s : State) (b : Nat) : (setAlert s b).ev = s.ev := rfl
@[simp] theorem setAlert_ctr (s : State) (b : Nat) : (setAlert s b).ctr = s.ctr := rfl
@[simp] theorem setAlert_seats (s : State) (b : Nat) : (setAlert s b).seats = s.seats := rfl
@[simp] theorem setAlert_tr (s : State) (b : Nat) : (setAlert s b).tr = s.tr := rfl
@[simp] theorem setAlert_net (s : State) (b : Nat) : (setAlert s b).net = s.net := rfl
@[simp] theorem setAlert_fab (s : State) (b : Nat) : (setAlert s b).fab = s.fab := rfl
@[simp] theorem setAlert_dir (s : State) (b : Nat) : (setAlert s b).dir = s.dir := rfl
@[simp] theorem setAlert_mem (s : State) (b : Nat) : (setAlert s b).mem = s.mem := rfl
@[simp] theorem setAlert_nb (s : State) (b : Nat) : (setAlert s b).nb = s.nb := rfl
@[simp] theorem setAlert_pg (s : State) (b : Nat) : (setAlert s b).pg = s.pg := rfl
@[simp] theorem setAlert_trust (s : State) (b : Nat) : (setAlert s b).trust = s.trust := rfl
@[simp] theorem setAlert_acc (s : State) (b : Nat) : (setAlert s b).acc = s.acc := rfl
@[simp] theorem setAlert_freeIdx (s : State) (b : Nat) : (setAlert s b).freeIdx = s.freeIdx := rfl
@[simp] theorem setAlert_pending (s : State) (b : Nat) : (setAlert s b).pending = s.pending := rfl

@[simp] theorem reach_boot (s : State) (n : Time) : (reach s n).boot = s.boot := rfl
@[simp] theorem reach_rst (s : State) (n : Time) : (reach s n).rst = s.rst := rfl
@[simp] theorem reach_supply (s : State) (n : Time) : (reach s n).supply = s.supply := rfl
@[simp] theorem reach_mon (s : State) (n : Time) : (reach s n).mon = s.mon := rfl
@[simp] theorem reach_health (s : State) (n : Time) : (reach s n).health = s.health := rfl
@[simp] theorem reach_cores (s : State) (n : Time) : (reach s n).cores = s.cores := rfl
@[simp] theorem reach_ev (s : State) (n : Time) : (reach s n).ev = s.ev := rfl
@[simp] theorem reach_ctr (s : State) (n : Time) : (reach s n).ctr = s.ctr := rfl
@[simp] theorem reach_seats (s : State) (n : Time) : (reach s n).seats = s.seats := rfl
@[simp] theorem reach_tr (s : State) (n : Time) : (reach s n).tr = s.tr := rfl
@[simp] theorem reach_net (s : State) (n : Time) : (reach s n).net = s.net := rfl
@[simp] theorem reach_fab (s : State) (n : Time) : (reach s n).fab = s.fab := rfl
@[simp] theorem reach_dir (s : State) (n : Time) : (reach s n).dir = s.dir := rfl
@[simp] theorem reach_mem (s : State) (n : Time) : (reach s n).mem = s.mem := rfl
@[simp] theorem reach_nb (s : State) (n : Time) : (reach s n).nb = s.nb := rfl
@[simp] theorem reach_pg (s : State) (n : Time) : (reach s n).pg = s.pg := rfl
@[simp] theorem reach_trust (s : State) (n : Time) : (reach s n).trust = s.trust := rfl
@[simp] theorem reach_acc (s : State) (n : Time) : (reach s n).acc = s.acc := rfl
@[simp] theorem reach_freeIdx (s : State) (n : Time) : (reach s n).freeIdx = s.freeIdx := rfl
@[simp] theorem reach_pending (s : State) (n : Time) : (reach s n).pending = s.pending := rfl

@[simp] theorem draw_time (s : State) : ((draw s).2).time = s.time := rfl
@[simp] theorem draw_boot (s : State) : ((draw s).2).boot = s.boot := rfl
@[simp] theorem draw_rst (s : State) : ((draw s).2).rst = s.rst := rfl
@[simp] theorem draw_supply (s : State) : ((draw s).2).supply = s.supply := rfl
@[simp] theorem draw_mon (s : State) : ((draw s).2).mon = s.mon := rfl
@[simp] theorem draw_health (s : State) : ((draw s).2).health = s.health := rfl
@[simp] theorem draw_cores (s : State) : ((draw s).2).cores = s.cores := rfl
@[simp] theorem draw_ev (s : State) : ((draw s).2).ev = s.ev := rfl
@[simp] theorem draw_ctr (s : State) : ((draw s).2).ctr = s.ctr := rfl
@[simp] theorem draw_seats (s : State) : ((draw s).2).seats = s.seats := rfl
@[simp] theorem draw_tr (s : State) : ((draw s).2).tr = s.tr := rfl
@[simp] theorem draw_net (s : State) : ((draw s).2).net = s.net := rfl
@[simp] theorem draw_fab (s : State) : ((draw s).2).fab = s.fab := rfl
@[simp] theorem draw_dir (s : State) : ((draw s).2).dir = s.dir := rfl
@[simp] theorem draw_mem (s : State) : ((draw s).2).mem = s.mem := rfl
@[simp] theorem draw_nb (s : State) : ((draw s).2).nb = s.nb := rfl
@[simp] theorem draw_pg (s : State) : ((draw s).2).pg = s.pg := rfl
@[simp] theorem draw_trust (s : State) : ((draw s).2).trust = s.trust := rfl
@[simp] theorem draw_acc (s : State) : ((draw s).2).acc = s.acc := rfl
@[simp] theorem draw_pending (s : State) : ((draw s).2).pending = s.pending := rfl

@[simp] theorem drawPick_time (s : State) (n : Nat) : ((drawPick s n).2).time = s.time := rfl
@[simp] theorem drawPick_boot (s : State) (n : Nat) : ((drawPick s n).2).boot = s.boot := rfl
@[simp] theorem drawPick_rst (s : State) (n : Nat) : ((drawPick s n).2).rst = s.rst := rfl
@[simp] theorem drawPick_supply (s : State) (n : Nat) : ((drawPick s n).2).supply = s.supply := rfl
@[simp] theorem drawPick_mon (s : State) (n : Nat) : ((drawPick s n).2).mon = s.mon := rfl
@[simp] theorem drawPick_health (s : State) (n : Nat) : ((drawPick s n).2).health = s.health := rfl
@[simp] theorem drawPick_cores (s : State) (n : Nat) : ((drawPick s n).2).cores = s.cores := rfl
@[simp] theorem drawPick_ev (s : State) (n : Nat) : ((drawPick s n).2).ev = s.ev := rfl
@[simp] theorem drawPick_ctr (s : State) (n : Nat) : ((drawPick s n).2).ctr = s.ctr := rfl
@[simp] theorem drawPick_seats (s : State) (n : Nat) : ((drawPick s n).2).seats = s.seats := rfl
@[simp] theorem drawPick_tr (s : State) (n : Nat) : ((drawPick s n).2).tr = s.tr := rfl
@[simp] theorem drawPick_net (s : State) (n : Nat) : ((drawPick s n).2).net = s.net := rfl
@[simp] theorem drawPick_fab (s : State) (n : Nat) : ((drawPick s n).2).fab = s.fab := rfl
@[simp] theorem drawPick_dir (s : State) (n : Nat) : ((drawPick s n).2).dir = s.dir := rfl
@[simp] theorem drawPick_mem (s : State) (n : Nat) : ((drawPick s n).2).mem = s.mem := rfl
@[simp] theorem drawPick_nb (s : State) (n : Nat) : ((drawPick s n).2).nb = s.nb := rfl
@[simp] theorem drawPick_pg (s : State) (n : Nat) : ((drawPick s n).2).pg = s.pg := rfl
@[simp] theorem drawPick_trust (s : State) (n : Nat) : ((drawPick s n).2).trust = s.trust := rfl
@[simp] theorem drawPick_acc (s : State) (n : Nat) : ((drawPick s n).2).acc = s.acc := rfl
@[simp] theorem drawPick_pending (s : State) (n : Nat) : ((drawPick s n).2).pending = s.pending := rfl

@[simp] theorem drawBytes_time (s : State) (n : Nat) : ((drawBytes s n).2).time = s.time := rfl
@[simp] theorem drawBytes_boot (s : State) (n : Nat) : ((drawBytes s n).2).boot = s.boot := rfl
@[simp] theorem drawBytes_rst (s : State) (n : Nat) : ((drawBytes s n).2).rst = s.rst := rfl
@[simp] theorem drawBytes_supply (s : State) (n : Nat) : ((drawBytes s n).2).supply = s.supply := rfl
@[simp] theorem drawBytes_mon (s : State) (n : Nat) : ((drawBytes s n).2).mon = s.mon := rfl
@[simp] theorem drawBytes_health (s : State) (n : Nat) : ((drawBytes s n).2).health = s.health := rfl
@[simp] theorem drawBytes_cores (s : State) (n : Nat) : ((drawBytes s n).2).cores = s.cores := rfl
@[simp] theorem drawBytes_ev (s : State) (n : Nat) : ((drawBytes s n).2).ev = s.ev := rfl
@[simp] theorem drawBytes_ctr (s : State) (n : Nat) : ((drawBytes s n).2).ctr = s.ctr := rfl
@[simp] theorem drawBytes_seats (s : State) (n : Nat) : ((drawBytes s n).2).seats = s.seats := rfl
@[simp] theorem drawBytes_tr (s : State) (n : Nat) : ((drawBytes s n).2).tr = s.tr := rfl
@[simp] theorem drawBytes_net (s : State) (n : Nat) : ((drawBytes s n).2).net = s.net := rfl
@[simp] theorem drawBytes_fab (s : State) (n : Nat) : ((drawBytes s n).2).fab = s.fab := rfl
@[simp] theorem drawBytes_dir (s : State) (n : Nat) : ((drawBytes s n).2).dir = s.dir := rfl
@[simp] theorem drawBytes_mem (s : State) (n : Nat) : ((drawBytes s n).2).mem = s.mem := rfl
@[simp] theorem drawBytes_nb (s : State) (n : Nat) : ((drawBytes s n).2).nb = s.nb := rfl
@[simp] theorem drawBytes_pg (s : State) (n : Nat) : ((drawBytes s n).2).pg = s.pg := rfl
@[simp] theorem drawBytes_trust (s : State) (n : Nat) : ((drawBytes s n).2).trust = s.trust := rfl
@[simp] theorem drawBytes_acc (s : State) (n : Nat) : ((drawBytes s n).2).acc = s.acc := rfl
@[simp] theorem drawBytes_pending (s : State) (n : Nat) : ((drawBytes s n).2).pending = s.pending := rfl

@[simp] theorem putSeat_time (s : State) (i : Nat) (x : Seat) : (putSeat s i x).time = s.time := rfl
@[simp] theorem putSeat_boot (s : State) (i : Nat) (x : Seat) : (putSeat s i x).boot = s.boot := rfl
@[simp] theorem putSeat_rst (s : State) (i : Nat) (x : Seat) : (putSeat s i x).rst = s.rst := rfl
@[simp] theorem putSeat_supply (s : State) (i : Nat) (x : Seat) : (putSeat s i x).supply = s.supply := rfl
@[simp] theorem putSeat_mon (s : State) (i : Nat) (x : Seat) : (putSeat s i x).mon = s.mon := rfl
@[simp] theorem putSeat_health (s : State) (i : Nat) (x : Seat) : (putSeat s i x).health = s.health := rfl
@[simp] theorem putSeat_cores (s : State) (i : Nat) (x : Seat) : (putSeat s i x).cores = s.cores := rfl
@[simp] theorem putSeat_ev (s : State) (i : Nat) (x : Seat) : (putSeat s i x).ev = s.ev := rfl
@[simp] theorem putSeat_ctr (s : State) (i : Nat) (x : Seat) : (putSeat s i x).ctr = s.ctr := rfl
@[simp] theorem putSeat_tr (s : State) (i : Nat) (x : Seat) : (putSeat s i x).tr = s.tr := rfl
@[simp] theorem putSeat_net (s : State) (i : Nat) (x : Seat) : (putSeat s i x).net = s.net := rfl
@[simp] theorem putSeat_fab (s : State) (i : Nat) (x : Seat) : (putSeat s i x).fab = s.fab := rfl
@[simp] theorem putSeat_dir (s : State) (i : Nat) (x : Seat) : (putSeat s i x).dir = s.dir := rfl
@[simp] theorem putSeat_mem (s : State) (i : Nat) (x : Seat) : (putSeat s i x).mem = s.mem := rfl
@[simp] theorem putSeat_nb (s : State) (i : Nat) (x : Seat) : (putSeat s i x).nb = s.nb := rfl
@[simp] theorem putSeat_pg (s : State) (i : Nat) (x : Seat) : (putSeat s i x).pg = s.pg := rfl
@[simp] theorem putSeat_trust (s : State) (i : Nat) (x : Seat) : (putSeat s i x).trust = s.trust := rfl
@[simp] theorem putSeat_acc (s : State) (i : Nat) (x : Seat) : (putSeat s i x).acc = s.acc := rfl
@[simp] theorem putSeat_freeIdx (s : State) (i : Nat) (x : Seat) : (putSeat s i x).freeIdx = s.freeIdx := rfl
@[simp] theorem putSeat_pending (s : State) (i : Nat) (x : Seat) : (putSeat s i x).pending = s.pending := rfl

@[simp] theorem updSeat_time (s : State) (i : Nat) (f : Seat → Seat) : (updSeat s i f).time = s.time := rfl
@[simp] theorem updSeat_boot (s : State) (i : Nat) (f : Seat → Seat) : (updSeat s i f).boot = s.boot := rfl
@[simp] theorem updSeat_rst (s : State) (i : Nat) (f : Seat → Seat) : (updSeat s i f).rst = s.rst := rfl
@[simp] theorem updSeat_supply (s : State) (i : Nat) (f : Seat → Seat) : (updSeat s i f).supply = s.supply := rfl
@[simp] theorem updSeat_mon (s : State) (i : Nat) (f : Seat → Seat) : (updSeat s i f).mon = s.mon := rfl
@[simp] theorem updSeat_health (s : State) (i : Nat) (f : Seat → Seat) : (updSeat s i f).health = s.health := rfl
@[simp] theorem updSeat_cores (s : State) (i : Nat) (f : Seat → Seat) : (updSeat s i f).cores = s.cores := rfl
@[simp] theorem updSeat_ev (s : State) (i : Nat) (f : Seat → Seat) : (updSeat s i f).ev = s.ev := rfl
@[simp] theorem updSeat_ctr (s : State) (i : Nat) (f : Seat → Seat) : (updSeat s i f).ctr = s.ctr := rfl
@[simp] theorem updSeat_tr (s : State) (i : Nat) (f : Seat → Seat) : (updSeat s i f).tr = s.tr := rfl
@[simp] theorem updSeat_net (s : State) (i : Nat) (f : Seat → Seat) : (updSeat s i f).net = s.net := rfl
@[simp] theorem updSeat_fab (s : State) (i : Nat) (f : Seat → Seat) : (updSeat s i f).fab = s.fab := rfl
@[simp] theorem updSeat_dir (s : State) (i : Nat) (f : Seat → Seat) : (updSeat s i f).dir = s.dir := rfl
@[simp] theorem updSeat_mem (s : State) (i : Nat) (f : Seat → Seat) : (updSeat s i f).mem = s.mem := rfl
@[simp] theorem updSeat_nb (s : State) (i : Nat) (f : Seat → Seat) : (updSeat s i f).nb = s.nb := rfl
@[simp] theorem updSeat_pg (s : State) (i : Nat) (f : Seat → Seat) : (updSeat s i f).pg = s.pg := rfl
@[simp] theorem updSeat_trust (s : State) (i : Nat) (f : Seat → Seat) : (updSeat s i f).trust = s.trust := rfl
@[simp] theorem updSeat_acc (s : State) (i : Nat) (f : Seat → Seat) : (updSeat s i f).acc = s.acc := rfl
@[simp] theorem updSeat_freeIdx (s : State) (i : Nat) (f : Seat → Seat) : (updSeat s i f).freeIdx = s.freeIdx := rfl
@[simp] theorem updSeat_pending (s : State) (i : Nat) (f : Seat → Seat) : (updSeat s i f).pending = s.pending := rfl

@[simp] theorem putTenant_time (s : State) (i : Nat) (x : Tenant) : (putTenant s i x).time = s.time := rfl
@[simp] theorem putTenant_boot (s : State) (i : Nat) (x : Tenant) : (putTenant s i x).boot = s.boot := rfl
@[simp] theorem putTenant_rst (s : State) (i : Nat) (x : Tenant) : (putTenant s i x).rst = s.rst := rfl
@[simp] theorem putTenant_supply (s : State) (i : Nat) (x : Tenant) : (putTenant s i x).supply = s.supply := rfl
@[simp] theorem putTenant_mon (s : State) (i : Nat) (x : Tenant) : (putTenant s i x).mon = s.mon := rfl
@[simp] theorem putTenant_health (s : State) (i : Nat) (x : Tenant) : (putTenant s i x).health = s.health := rfl
@[simp] theorem putTenant_cores (s : State) (i : Nat) (x : Tenant) : (putTenant s i x).cores = s.cores := rfl
@[simp] theorem putTenant_ev (s : State) (i : Nat) (x : Tenant) : (putTenant s i x).ev = s.ev := rfl
@[simp] theorem putTenant_ctr (s : State) (i : Nat) (x : Tenant) : (putTenant s i x).ctr = s.ctr := rfl
@[simp] theorem putTenant_seats (s : State) (i : Nat) (x : Tenant) : (putTenant s i x).seats = s.seats := rfl
@[simp] theorem putTenant_tr (s : State) (i : Nat) (x : Tenant) : (putTenant s i x).tr = s.tr := rfl
@[simp] theorem putTenant_net (s : State) (i : Nat) (x : Tenant) : (putTenant s i x).net = s.net := rfl
@[simp] theorem putTenant_fab (s : State) (i : Nat) (x : Tenant) : (putTenant s i x).fab = s.fab := rfl
@[simp] theorem putTenant_dir (s : State) (i : Nat) (x : Tenant) : (putTenant s i x).dir = s.dir := rfl
@[simp] theorem putTenant_mem (s : State) (i : Nat) (x : Tenant) : (putTenant s i x).mem = s.mem := rfl
@[simp] theorem putTenant_nb (s : State) (i : Nat) (x : Tenant) : (putTenant s i x).nb = s.nb := rfl
@[simp] theorem putTenant_pg (s : State) (i : Nat) (x : Tenant) : (putTenant s i x).pg = s.pg := rfl
@[simp] theorem putTenant_acc (s : State) (i : Nat) (x : Tenant) : (putTenant s i x).acc = s.acc := rfl
@[simp] theorem putTenant_freeIdx (s : State) (i : Nat) (x : Tenant) : (putTenant s i x).freeIdx = s.freeIdx := rfl
@[simp] theorem putTenant_pending (s : State) (i : Nat) (x : Tenant) : (putTenant s i x).pending = s.pending := rfl

@[simp] theorem putHalf_time (s : State) (i : Nat) (x : Half) : (putHalf s i x).time = s.time := rfl
@[simp] theorem putHalf_boot (s : State) (i : Nat) (x : Half) : (putHalf s i x).boot = s.boot := rfl
@[simp] theorem putHalf_rst (s : State) (i : Nat) (x : Half) : (putHalf s i x).rst = s.rst := rfl
@[simp] theorem putHalf_supply (s : State) (i : Nat) (x : Half) : (putHalf s i x).supply = s.supply := rfl
@[simp] theorem putHalf_mon (s : State) (i : Nat) (x : Half) : (putHalf s i x).mon = s.mon := rfl
@[simp] theorem putHalf_health (s : State) (i : Nat) (x : Half) : (putHalf s i x).health = s.health := rfl
@[simp] theorem putHalf_cores (s : State) (i : Nat) (x : Half) : (putHalf s i x).cores = s.cores := rfl
@[simp] theorem putHalf_ev (s : State) (i : Nat) (x : Half) : (putHalf s i x).ev = s.ev := rfl
@[simp] theorem putHalf_ctr (s : State) (i : Nat) (x : Half) : (putHalf s i x).ctr = s.ctr := rfl
@[simp] theorem putHalf_seats (s : State) (i : Nat) (x : Half) : (putHalf s i x).seats = s.seats := rfl
@[simp] theorem putHalf_tr (s : State) (i : Nat) (x : Half) : (putHalf s i x).tr = s.tr := rfl
@[simp] theorem putHalf_net (s : State) (i : Nat) (x : Half) : (putHalf s i x).net = s.net := rfl
@[simp] theorem putHalf_fab (s : State) (i : Nat) (x : Half) : (putHalf s i x).fab = s.fab := rfl
@[simp] theorem putHalf_mem (s : State) (i : Nat) (x : Half) : (putHalf s i x).mem = s.mem := rfl
@[simp] theorem putHalf_nb (s : State) (i : Nat) (x : Half) : (putHalf s i x).nb = s.nb := rfl
@[simp] theorem putHalf_pg (s : State) (i : Nat) (x : Half) : (putHalf s i x).pg = s.pg := rfl
@[simp] theorem putHalf_trust (s : State) (i : Nat) (x : Half) : (putHalf s i x).trust = s.trust := rfl
@[simp] theorem putHalf_acc (s : State) (i : Nat) (x : Half) : (putHalf s i x).acc = s.acc := rfl
@[simp] theorem putHalf_freeIdx (s : State) (i : Nat) (x : Half) : (putHalf s i x).freeIdx = s.freeIdx := rfl
@[simp] theorem putHalf_pending (s : State) (i : Nat) (x : Half) : (putHalf s i x).pending = s.pending := rfl

@[simp] theorem putSpare_time (s : State) (i : Nat) (x : SpareMap) : (putSpare s i x).time = s.time := rfl
@[simp] theorem putSpare_boot (s : State) (i : Nat) (x : SpareMap) : (putSpare s i x).boot = s.boot := rfl
@[simp] theorem putSpare_rst (s : State) (i : Nat) (x : SpareMap) : (putSpare s i x).rst = s.rst := rfl
@[simp] theorem putSpare_supply (s : State) (i : Nat) (x : SpareMap) : (putSpare s i x).supply = s.supply := rfl
@[simp] theorem putSpare_mon (s : State) (i : Nat) (x : SpareMap) : (putSpare s i x).mon = s.mon := rfl
@[simp] theorem putSpare_health (s : State) (i : Nat) (x : SpareMap) : (putSpare s i x).health = s.health := rfl
@[simp] theorem putSpare_ev (s : State) (i : Nat) (x : SpareMap) : (putSpare s i x).ev = s.ev := rfl
@[simp] theorem putSpare_ctr (s : State) (i : Nat) (x : SpareMap) : (putSpare s i x).ctr = s.ctr := rfl
@[simp] theorem putSpare_seats (s : State) (i : Nat) (x : SpareMap) : (putSpare s i x).seats = s.seats := rfl
@[simp] theorem putSpare_tr (s : State) (i : Nat) (x : SpareMap) : (putSpare s i x).tr = s.tr := rfl
@[simp] theorem putSpare_net (s : State) (i : Nat) (x : SpareMap) : (putSpare s i x).net = s.net := rfl
@[simp] theorem putSpare_fab (s : State) (i : Nat) (x : SpareMap) : (putSpare s i x).fab = s.fab := rfl
@[simp] theorem putSpare_dir (s : State) (i : Nat) (x : SpareMap) : (putSpare s i x).dir = s.dir := rfl
@[simp] theorem putSpare_mem (s : State) (i : Nat) (x : SpareMap) : (putSpare s i x).mem = s.mem := rfl
@[simp] theorem putSpare_nb (s : State) (i : Nat) (x : SpareMap) : (putSpare s i x).nb = s.nb := rfl
@[simp] theorem putSpare_pg (s : State) (i : Nat) (x : SpareMap) : (putSpare s i x).pg = s.pg := rfl
@[simp] theorem putSpare_trust (s : State) (i : Nat) (x : SpareMap) : (putSpare s i x).trust = s.trust := rfl
@[simp] theorem putSpare_acc (s : State) (i : Nat) (x : SpareMap) : (putSpare s i x).acc = s.acc := rfl
@[simp] theorem putSpare_freeIdx (s : State) (i : Nat) (x : SpareMap) : (putSpare s i x).freeIdx = s.freeIdx := rfl
@[simp] theorem putSpare_pending (s : State) (i : Nat) (x : SpareMap) : (putSpare s i x).pending = s.pending := rfl

@[simp] theorem putST_time (s : State) (i : Nat) (x : SeatTraffic) : (putST s i x).time = s.time := rfl
@[simp] theorem putST_boot (s : State) (i : Nat) (x : SeatTraffic) : (putST s i x).boot = s.boot := rfl
@[simp] theorem putST_rst (s : State) (i : Nat) (x : SeatTraffic) : (putST s i x).rst = s.rst := rfl
@[simp] theorem putST_supply (s : State) (i : Nat) (x : SeatTraffic) : (putST s i x).supply = s.supply := rfl
@[simp] theorem putST_mon (s : State) (i : Nat) (x : SeatTraffic) : (putST s i x).mon = s.mon := rfl
@[simp] theorem putST_health (s : State) (i : Nat) (x : SeatTraffic) : (putST s i x).health = s.health := rfl
@[simp] theorem putST_cores (s : State) (i : Nat) (x : SeatTraffic) : (putST s i x).cores = s.cores := rfl
@[simp] theorem putST_ev (s : State) (i : Nat) (x : SeatTraffic) : (putST s i x).ev = s.ev := rfl
@[simp] theorem putST_ctr (s : State) (i : Nat) (x : SeatTraffic) : (putST s i x).ctr = s.ctr := rfl
@[simp] theorem putST_seats (s : State) (i : Nat) (x : SeatTraffic) : (putST s i x).seats = s.seats := rfl
@[simp] theorem putST_net (s : State) (i : Nat) (x : SeatTraffic) : (putST s i x).net = s.net := rfl
@[simp] theorem putST_fab (s : State) (i : Nat) (x : SeatTraffic) : (putST s i x).fab = s.fab := rfl
@[simp] theorem putST_dir (s : State) (i : Nat) (x : SeatTraffic) : (putST s i x).dir = s.dir := rfl
@[simp] theorem putST_mem (s : State) (i : Nat) (x : SeatTraffic) : (putST s i x).mem = s.mem := rfl
@[simp] theorem putST_nb (s : State) (i : Nat) (x : SeatTraffic) : (putST s i x).nb = s.nb := rfl
@[simp] theorem putST_pg (s : State) (i : Nat) (x : SeatTraffic) : (putST s i x).pg = s.pg := rfl
@[simp] theorem putST_trust (s : State) (i : Nat) (x : SeatTraffic) : (putST s i x).trust = s.trust := rfl
@[simp] theorem putST_acc (s : State) (i : Nat) (x : SeatTraffic) : (putST s i x).acc = s.acc := rfl
@[simp] theorem putST_freeIdx (s : State) (i : Nat) (x : SeatTraffic) : (putST s i x).freeIdx = s.freeIdx := rfl
@[simp] theorem putST_pending (s : State) (i : Nat) (x : SeatTraffic) : (putST s i x).pending = s.pending := rfl

@[simp] theorem putCC_time (s : State) (i c : Nat) (x : ClassCfg) : (putCC s i c x).time = s.time := rfl
@[simp] theorem putCC_boot (s : State) (i c : Nat) (x : ClassCfg) : (putCC s i c x).boot = s.boot := rfl
@[simp] theorem putCC_rst (s : State) (i c : Nat) (x : ClassCfg) : (putCC s i c x).rst = s.rst := rfl
@[simp] theorem putCC_supply (s : State) (i c : Nat) (x : ClassCfg) : (putCC s i c x).supply = s.supply := rfl
@[simp] theorem putCC_mon (s : State) (i c : Nat) (x : ClassCfg) : (putCC s i c x).mon = s.mon := rfl
@[simp] theorem putCC_health (s : State) (i c : Nat) (x : ClassCfg) : (putCC s i c x).health = s.health := rfl
@[simp] theorem putCC_cores (s : State) (i c : Nat) (x : ClassCfg) : (putCC s i c x).cores = s.cores := rfl
@[simp] theorem putCC_ev (s : State) (i c : Nat) (x : ClassCfg) : (putCC s i c x).ev = s.ev := rfl
@[simp] theorem putCC_ctr (s : State) (i c : Nat) (x : ClassCfg) : (putCC s i c x).ctr = s.ctr := rfl
@[simp] theorem putCC_seats (s : State) (i c : Nat) (x : ClassCfg) : (putCC s i c x).seats = s.seats := rfl
@[simp] theorem putCC_net (s : State) (i c : Nat) (x : ClassCfg) : (putCC s i c x).net = s.net := rfl
@[simp] theorem putCC_fab (s : State) (i c : Nat) (x : ClassCfg) : (putCC s i c x).fab = s.fab := rfl
@[simp] theorem putCC_dir (s : State) (i c : Nat) (x : ClassCfg) : (putCC s i c x).dir = s.dir := rfl
@[simp] theorem putCC_mem (s : State) (i c : Nat) (x : ClassCfg) : (putCC s i c x).mem = s.mem := rfl
@[simp] theorem putCC_nb (s : State) (i c : Nat) (x : ClassCfg) : (putCC s i c x).nb = s.nb := rfl
@[simp] theorem putCC_pg (s : State) (i c : Nat) (x : ClassCfg) : (putCC s i c x).pg = s.pg := rfl
@[simp] theorem putCC_trust (s : State) (i c : Nat) (x : ClassCfg) : (putCC s i c x).trust = s.trust := rfl
@[simp] theorem putCC_acc (s : State) (i c : Nat) (x : ClassCfg) : (putCC s i c x).acc = s.acc := rfl
@[simp] theorem putCC_freeIdx (s : State) (i c : Nat) (x : ClassCfg) : (putCC s i c x).freeIdx = s.freeIdx := rfl
@[simp] theorem putCC_pending (s : State) (i c : Nat) (x : ClassCfg) : (putCC s i c x).pending = s.pending := rfl

@[simp] theorem putQ_time (s : State) (q : QId) (x : EQueue) : (putQ s q x).time = s.time := rfl
@[simp] theorem putQ_boot (s : State) (q : QId) (x : EQueue) : (putQ s q x).boot = s.boot := rfl
@[simp] theorem putQ_rst (s : State) (q : QId) (x : EQueue) : (putQ s q x).rst = s.rst := rfl
@[simp] theorem putQ_supply (s : State) (q : QId) (x : EQueue) : (putQ s q x).supply = s.supply := rfl
@[simp] theorem putQ_mon (s : State) (q : QId) (x : EQueue) : (putQ s q x).mon = s.mon := rfl
@[simp] theorem putQ_health (s : State) (q : QId) (x : EQueue) : (putQ s q x).health = s.health := rfl
@[simp] theorem putQ_cores (s : State) (q : QId) (x : EQueue) : (putQ s q x).cores = s.cores := rfl
@[simp] theorem putQ_ev (s : State) (q : QId) (x : EQueue) : (putQ s q x).ev = s.ev := rfl
@[simp] theorem putQ_ctr (s : State) (q : QId) (x : EQueue) : (putQ s q x).ctr = s.ctr := rfl
@[simp] theorem putQ_seats (s : State) (q : QId) (x : EQueue) : (putQ s q x).seats = s.seats := rfl
@[simp] theorem putQ_net (s : State) (q : QId) (x : EQueue) : (putQ s q x).net = s.net := rfl
@[simp] theorem putQ_fab (s : State) (q : QId) (x : EQueue) : (putQ s q x).fab = s.fab := rfl
@[simp] theorem putQ_dir (s : State) (q : QId) (x : EQueue) : (putQ s q x).dir = s.dir := rfl
@[simp] theorem putQ_mem (s : State) (q : QId) (x : EQueue) : (putQ s q x).mem = s.mem := rfl
@[simp] theorem putQ_nb (s : State) (q : QId) (x : EQueue) : (putQ s q x).nb = s.nb := rfl
@[simp] theorem putQ_pg (s : State) (q : QId) (x : EQueue) : (putQ s q x).pg = s.pg := rfl
@[simp] theorem putQ_trust (s : State) (q : QId) (x : EQueue) : (putQ s q x).trust = s.trust := rfl
@[simp] theorem putQ_acc (s : State) (q : QId) (x : EQueue) : (putQ s q x).acc = s.acc := rfl
@[simp] theorem putQ_freeIdx (s : State) (q : QId) (x : EQueue) : (putQ s q x).freeIdx = s.freeIdx := rfl
@[simp] theorem putQ_pending (s : State) (q : QId) (x : EQueue) : (putQ s q x).pending = s.pending := rfl

@[simp] theorem putShaper_time (s : State) (i q : Nat) (x : Shaper) : (putShaper s i q x).time = s.time := rfl
@[simp] theorem putShaper_boot (s : State) (i q : Nat) (x : Shaper) : (putShaper s i q x).boot = s.boot := rfl
@[simp] theorem putShaper_rst (s : State) (i q : Nat) (x : Shaper) : (putShaper s i q x).rst = s.rst := rfl
@[simp] theorem putShaper_supply (s : State) (i q : Nat) (x : Shaper) : (putShaper s i q x).supply = s.supply := rfl
@[simp] theorem putShaper_mon (s : State) (i q : Nat) (x : Shaper) : (putShaper s i q x).mon = s.mon := rfl
@[simp] theorem putShaper_health (s : State) (i q : Nat) (x : Shaper) : (putShaper s i q x).health = s.health := rfl
@[simp] theorem putShaper_cores (s : State) (i q : Nat) (x : Shaper) : (putShaper s i q x).cores = s.cores := rfl
@[simp] theorem putShaper_ev (s : State) (i q : Nat) (x : Shaper) : (putShaper s i q x).ev = s.ev := rfl
@[simp] theorem putShaper_ctr (s : State) (i q : Nat) (x : Shaper) : (putShaper s i q x).ctr = s.ctr := rfl
@[simp] theorem putShaper_seats (s : State) (i q : Nat) (x : Shaper) : (putShaper s i q x).seats = s.seats := rfl
@[simp] theorem putShaper_net (s : State) (i q : Nat) (x : Shaper) : (putShaper s i q x).net = s.net := rfl
@[simp] theorem putShaper_fab (s : State) (i q : Nat) (x : Shaper) : (putShaper s i q x).fab = s.fab := rfl
@[simp] theorem putShaper_dir (s : State) (i q : Nat) (x : Shaper) : (putShaper s i q x).dir = s.dir := rfl
@[simp] theorem putShaper_mem (s : State) (i q : Nat) (x : Shaper) : (putShaper s i q x).mem = s.mem := rfl
@[simp] theorem putShaper_nb (s : State) (i q : Nat) (x : Shaper) : (putShaper s i q x).nb = s.nb := rfl
@[simp] theorem putShaper_pg (s : State) (i q : Nat) (x : Shaper) : (putShaper s i q x).pg = s.pg := rfl
@[simp] theorem putShaper_trust (s : State) (i q : Nat) (x : Shaper) : (putShaper s i q x).trust = s.trust := rfl
@[simp] theorem putShaper_acc (s : State) (i q : Nat) (x : Shaper) : (putShaper s i q x).acc = s.acc := rfl
@[simp] theorem putShaper_freeIdx (s : State) (i q : Nat) (x : Shaper) : (putShaper s i q x).freeIdx = s.freeIdx := rfl
@[simp] theorem putShaper_pending (s : State) (i q : Nat) (x : Shaper) : (putShaper s i q x).pending = s.pending := rfl

@[simp] theorem putPeer_time (s : State) (k : Nat) (p : Peer) : (putPeer s k p).time = s.time := rfl
@[simp] theorem putPeer_boot (s : State) (k : Nat) (p : Peer) : (putPeer s k p).boot = s.boot := rfl
@[simp] theorem putPeer_rst (s : State) (k : Nat) (p : Peer) : (putPeer s k p).rst = s.rst := rfl
@[simp] theorem putPeer_supply (s : State) (k : Nat) (p : Peer) : (putPeer s k p).supply = s.supply := rfl
@[simp] theorem putPeer_mon (s : State) (k : Nat) (p : Peer) : (putPeer s k p).mon = s.mon := rfl
@[simp] theorem putPeer_health (s : State) (k : Nat) (p : Peer) : (putPeer s k p).health = s.health := rfl
@[simp] theorem putPeer_cores (s : State) (k : Nat) (p : Peer) : (putPeer s k p).cores = s.cores := rfl
@[simp] theorem putPeer_ev (s : State) (k : Nat) (p : Peer) : (putPeer s k p).ev = s.ev := rfl
@[simp] theorem putPeer_ctr (s : State) (k : Nat) (p : Peer) : (putPeer s k p).ctr = s.ctr := rfl
@[simp] theorem putPeer_seats (s : State) (k : Nat) (p : Peer) : (putPeer s k p).seats = s.seats := rfl
@[simp] theorem putPeer_tr (s : State) (k : Nat) (p : Peer) : (putPeer s k p).tr = s.tr := rfl
@[simp] theorem putPeer_fab (s : State) (k : Nat) (p : Peer) : (putPeer s k p).fab = s.fab := rfl
@[simp] theorem putPeer_dir (s : State) (k : Nat) (p : Peer) : (putPeer s k p).dir = s.dir := rfl
@[simp] theorem putPeer_mem (s : State) (k : Nat) (p : Peer) : (putPeer s k p).mem = s.mem := rfl
@[simp] theorem putPeer_nb (s : State) (k : Nat) (p : Peer) : (putPeer s k p).nb = s.nb := rfl
@[simp] theorem putPeer_pg (s : State) (k : Nat) (p : Peer) : (putPeer s k p).pg = s.pg := rfl
@[simp] theorem putPeer_trust (s : State) (k : Nat) (p : Peer) : (putPeer s k p).trust = s.trust := rfl
@[simp] theorem putPeer_acc (s : State) (k : Nat) (p : Peer) : (putPeer s k p).acc = s.acc := rfl
@[simp] theorem putPeer_freeIdx (s : State) (k : Nat) (p : Peer) : (putPeer s k p).freeIdx = s.freeIdx := rfl
@[simp] theorem putPeer_pending (s : State) (k : Nat) (p : Peer) : (putPeer s k p).pending = s.pending := rfl

@[simp] theorem delPeer_time (s : State) (k : Nat) : (delPeer s k).time = s.time := rfl
@[simp] theorem delPeer_boot (s : State) (k : Nat) : (delPeer s k).boot = s.boot := rfl
@[simp] theorem delPeer_rst (s : State) (k : Nat) : (delPeer s k).rst = s.rst := rfl
@[simp] theorem delPeer_supply (s : State) (k : Nat) : (delPeer s k).supply = s.supply := rfl
@[simp] theorem delPeer_mon (s : State) (k : Nat) : (delPeer s k).mon = s.mon := rfl
@[simp] theorem delPeer_health (s : State) (k : Nat) : (delPeer s k).health = s.health := rfl
@[simp] theorem delPeer_cores (s : State) (k : Nat) : (delPeer s k).cores = s.cores := rfl
@[simp] theorem delPeer_ev (s : State) (k : Nat) : (delPeer s k).ev = s.ev := rfl
@[simp] theorem delPeer_ctr (s : State) (k : Nat) : (delPeer s k).ctr = s.ctr := rfl
@[simp] theorem delPeer_seats (s : State) (k : Nat) : (delPeer s k).seats = s.seats := rfl
@[simp] theorem delPeer_tr (s : State) (k : Nat) : (delPeer s k).tr = s.tr := rfl
@[simp] theorem delPeer_fab (s : State) (k : Nat) : (delPeer s k).fab = s.fab := rfl
@[simp] theorem delPeer_dir (s : State) (k : Nat) : (delPeer s k).dir = s.dir := rfl
@[simp] theorem delPeer_mem (s : State) (k : Nat) : (delPeer s k).mem = s.mem := rfl
@[simp] theorem delPeer_nb (s : State) (k : Nat) : (delPeer s k).nb = s.nb := rfl
@[simp] theorem delPeer_pg (s : State) (k : Nat) : (delPeer s k).pg = s.pg := rfl
@[simp] theorem delPeer_trust (s : State) (k : Nat) : (delPeer s k).trust = s.trust := rfl
@[simp] theorem delPeer_acc (s : State) (k : Nat) : (delPeer s k).acc = s.acc := rfl
@[simp] theorem delPeer_freeIdx (s : State) (k : Nat) : (delPeer s k).freeIdx = s.freeIdx := rfl
@[simp] theorem delPeer_pending (s : State) (k : Nat) : (delPeer s k).pending = s.pending := rfl

@[simp] theorem putTile_time (s : State) (o : Nat) (x : Tile) : (putTile s o x).time = s.time := rfl
@[simp] theorem putTile_boot (s : State) (o : Nat) (x : Tile) : (putTile s o x).boot = s.boot := rfl
@[simp] theorem putTile_rst (s : State) (o : Nat) (x : Tile) : (putTile s o x).rst = s.rst := rfl
@[simp] theorem putTile_supply (s : State) (o : Nat) (x : Tile) : (putTile s o x).supply = s.supply := rfl
@[simp] theorem putTile_mon (s : State) (o : Nat) (x : Tile) : (putTile s o x).mon = s.mon := rfl
@[simp] theorem putTile_health (s : State) (o : Nat) (x : Tile) : (putTile s o x).health = s.health := rfl
@[simp] theorem putTile_cores (s : State) (o : Nat) (x : Tile) : (putTile s o x).cores = s.cores := rfl
@[simp] theorem putTile_ev (s : State) (o : Nat) (x : Tile) : (putTile s o x).ev = s.ev := rfl
@[simp] theorem putTile_ctr (s : State) (o : Nat) (x : Tile) : (putTile s o x).ctr = s.ctr := rfl
@[simp] theorem putTile_seats (s : State) (o : Nat) (x : Tile) : (putTile s o x).seats = s.seats := rfl
@[simp] theorem putTile_tr (s : State) (o : Nat) (x : Tile) : (putTile s o x).tr = s.tr := rfl
@[simp] theorem putTile_net (s : State) (o : Nat) (x : Tile) : (putTile s o x).net = s.net := rfl
@[simp] theorem putTile_fab (s : State) (o : Nat) (x : Tile) : (putTile s o x).fab = s.fab := rfl
@[simp] theorem putTile_dir (s : State) (o : Nat) (x : Tile) : (putTile s o x).dir = s.dir := rfl
@[simp] theorem putTile_nb (s : State) (o : Nat) (x : Tile) : (putTile s o x).nb = s.nb := rfl
@[simp] theorem putTile_pg (s : State) (o : Nat) (x : Tile) : (putTile s o x).pg = s.pg := rfl
@[simp] theorem putTile_trust (s : State) (o : Nat) (x : Tile) : (putTile s o x).trust = s.trust := rfl
@[simp] theorem putTile_acc (s : State) (o : Nat) (x : Tile) : (putTile s o x).acc = s.acc := rfl
@[simp] theorem putTile_freeIdx (s : State) (o : Nat) (x : Tile) : (putTile s o x).freeIdx = s.freeIdx := rfl
@[simp] theorem putTile_pending (s : State) (o : Nat) (x : Tile) : (putTile s o x).pending = s.pending := rfl

@[simp] theorem delTile_time (s : State) (o : Nat) : (delTile s o).time = s.time := rfl
@[simp] theorem delTile_boot (s : State) (o : Nat) : (delTile s o).boot = s.boot := rfl
@[simp] theorem delTile_rst (s : State) (o : Nat) : (delTile s o).rst = s.rst := rfl
@[simp] theorem delTile_supply (s : State) (o : Nat) : (delTile s o).supply = s.supply := rfl
@[simp] theorem delTile_mon (s : State) (o : Nat) : (delTile s o).mon = s.mon := rfl
@[simp] theorem delTile_health (s : State) (o : Nat) : (delTile s o).health = s.health := rfl
@[simp] theorem delTile_cores (s : State) (o : Nat) : (delTile s o).cores = s.cores := rfl
@[simp] theorem delTile_ev (s : State) (o : Nat) : (delTile s o).ev = s.ev := rfl
@[simp] theorem delTile_ctr (s : State) (o : Nat) : (delTile s o).ctr = s.ctr := rfl
@[simp] theorem delTile_seats (s : State) (o : Nat) : (delTile s o).seats = s.seats := rfl
@[simp] theorem delTile_tr (s : State) (o : Nat) : (delTile s o).tr = s.tr := rfl
@[simp] theorem delTile_net (s : State) (o : Nat) : (delTile s o).net = s.net := rfl
@[simp] theorem delTile_fab (s : State) (o : Nat) : (delTile s o).fab = s.fab := rfl
@[simp] theorem delTile_dir (s : State) (o : Nat) : (delTile s o).dir = s.dir := rfl
@[simp] theorem delTile_nb (s : State) (o : Nat) : (delTile s o).nb = s.nb := rfl
@[simp] theorem delTile_pg (s : State) (o : Nat) : (delTile s o).pg = s.pg := rfl
@[simp] theorem delTile_trust (s : State) (o : Nat) : (delTile s o).trust = s.trust := rfl
@[simp] theorem delTile_acc (s : State) (o : Nat) : (delTile s o).acc = s.acc := rfl
@[simp] theorem delTile_freeIdx (s : State) (o : Nat) : (delTile s o).freeIdx = s.freeIdx := rfl
@[simp] theorem delTile_pending (s : State) (o : Nat) : (delTile s o).pending = s.pending := rfl

@[simp] theorem putDesc_time (s : State) (d : Nat) (x : RunDesc) : (putDesc s d x).time = s.time := rfl
@[simp] theorem putDesc_boot (s : State) (d : Nat) (x : RunDesc) : (putDesc s d x).boot = s.boot := rfl
@[simp] theorem putDesc_rst (s : State) (d : Nat) (x : RunDesc) : (putDesc s d x).rst = s.rst := rfl
@[simp] theorem putDesc_supply (s : State) (d : Nat) (x : RunDesc) : (putDesc s d x).supply = s.supply := rfl
@[simp] theorem putDesc_mon (s : State) (d : Nat) (x : RunDesc) : (putDesc s d x).mon = s.mon := rfl
@[simp] theorem putDesc_health (s : State) (d : Nat) (x : RunDesc) : (putDesc s d x).health = s.health := rfl
@[simp] theorem putDesc_cores (s : State) (d : Nat) (x : RunDesc) : (putDesc s d x).cores = s.cores := rfl
@[simp] theorem putDesc_ev (s : State) (d : Nat) (x : RunDesc) : (putDesc s d x).ev = s.ev := rfl
@[simp] theorem putDesc_ctr (s : State) (d : Nat) (x : RunDesc) : (putDesc s d x).ctr = s.ctr := rfl
@[simp] theorem putDesc_seats (s : State) (d : Nat) (x : RunDesc) : (putDesc s d x).seats = s.seats := rfl
@[simp] theorem putDesc_tr (s : State) (d : Nat) (x : RunDesc) : (putDesc s d x).tr = s.tr := rfl
@[simp] theorem putDesc_net (s : State) (d : Nat) (x : RunDesc) : (putDesc s d x).net = s.net := rfl
@[simp] theorem putDesc_fab (s : State) (d : Nat) (x : RunDesc) : (putDesc s d x).fab = s.fab := rfl
@[simp] theorem putDesc_dir (s : State) (d : Nat) (x : RunDesc) : (putDesc s d x).dir = s.dir := rfl
@[simp] theorem putDesc_nb (s : State) (d : Nat) (x : RunDesc) : (putDesc s d x).nb = s.nb := rfl
@[simp] theorem putDesc_pg (s : State) (d : Nat) (x : RunDesc) : (putDesc s d x).pg = s.pg := rfl
@[simp] theorem putDesc_trust (s : State) (d : Nat) (x : RunDesc) : (putDesc s d x).trust = s.trust := rfl
@[simp] theorem putDesc_acc (s : State) (d : Nat) (x : RunDesc) : (putDesc s d x).acc = s.acc := rfl
@[simp] theorem putDesc_freeIdx (s : State) (d : Nat) (x : RunDesc) : (putDesc s d x).freeIdx = s.freeIdx := rfl
@[simp] theorem putDesc_pending (s : State) (d : Nat) (x : RunDesc) : (putDesc s d x).pending = s.pending := rfl

@[simp] theorem delDesc_time (s : State) (d : Nat) : (delDesc s d).time = s.time := rfl
@[simp] theorem delDesc_boot (s : State) (d : Nat) : (delDesc s d).boot = s.boot := rfl
@[simp] theorem delDesc_rst (s : State) (d : Nat) : (delDesc s d).rst = s.rst := rfl
@[simp] theorem delDesc_supply (s : State) (d : Nat) : (delDesc s d).supply = s.supply := rfl
@[simp] theorem delDesc_mon (s : State) (d : Nat) : (delDesc s d).mon = s.mon := rfl
@[simp] theorem delDesc_health (s : State) (d : Nat) : (delDesc s d).health = s.health := rfl
@[simp] theorem delDesc_cores (s : State) (d : Nat) : (delDesc s d).cores = s.cores := rfl
@[simp] theorem delDesc_ev (s : State) (d : Nat) : (delDesc s d).ev = s.ev := rfl
@[simp] theorem delDesc_ctr (s : State) (d : Nat) : (delDesc s d).ctr = s.ctr := rfl
@[simp] theorem delDesc_seats (s : State) (d : Nat) : (delDesc s d).seats = s.seats := rfl
@[simp] theorem delDesc_tr (s : State) (d : Nat) : (delDesc s d).tr = s.tr := rfl
@[simp] theorem delDesc_net (s : State) (d : Nat) : (delDesc s d).net = s.net := rfl
@[simp] theorem delDesc_fab (s : State) (d : Nat) : (delDesc s d).fab = s.fab := rfl
@[simp] theorem delDesc_dir (s : State) (d : Nat) : (delDesc s d).dir = s.dir := rfl
@[simp] theorem delDesc_nb (s : State) (d : Nat) : (delDesc s d).nb = s.nb := rfl
@[simp] theorem delDesc_pg (s : State) (d : Nat) : (delDesc s d).pg = s.pg := rfl
@[simp] theorem delDesc_trust (s : State) (d : Nat) : (delDesc s d).trust = s.trust := rfl
@[simp] theorem delDesc_acc (s : State) (d : Nat) : (delDesc s d).acc = s.acc := rfl
@[simp] theorem delDesc_freeIdx (s : State) (d : Nat) : (delDesc s d).freeIdx = s.freeIdx := rfl
@[simp] theorem delDesc_pending (s : State) (d : Nat) : (delDesc s d).pending = s.pending := rfl

@[simp] theorem putFetch_time (s : State) (k : Nat) (f : Fetch) : (putFetch s k f).time = s.time := rfl
@[simp] theorem putFetch_boot (s : State) (k : Nat) (f : Fetch) : (putFetch s k f).boot = s.boot := rfl
@[simp] theorem putFetch_rst (s : State) (k : Nat) (f : Fetch) : (putFetch s k f).rst = s.rst := rfl
@[simp] theorem putFetch_supply (s : State) (k : Nat) (f : Fetch) : (putFetch s k f).supply = s.supply := rfl
@[simp] theorem putFetch_mon (s : State) (k : Nat) (f : Fetch) : (putFetch s k f).mon = s.mon := rfl
@[simp] theorem putFetch_health (s : State) (k : Nat) (f : Fetch) : (putFetch s k f).health = s.health := rfl
@[simp] theorem putFetch_cores (s : State) (k : Nat) (f : Fetch) : (putFetch s k f).cores = s.cores := rfl
@[simp] theorem putFetch_ev (s : State) (k : Nat) (f : Fetch) : (putFetch s k f).ev = s.ev := rfl
@[simp] theorem putFetch_ctr (s : State) (k : Nat) (f : Fetch) : (putFetch s k f).ctr = s.ctr := rfl
@[simp] theorem putFetch_seats (s : State) (k : Nat) (f : Fetch) : (putFetch s k f).seats = s.seats := rfl
@[simp] theorem putFetch_tr (s : State) (k : Nat) (f : Fetch) : (putFetch s k f).tr = s.tr := rfl
@[simp] theorem putFetch_net (s : State) (k : Nat) (f : Fetch) : (putFetch s k f).net = s.net := rfl
@[simp] theorem putFetch_fab (s : State) (k : Nat) (f : Fetch) : (putFetch s k f).fab = s.fab := rfl
@[simp] theorem putFetch_dir (s : State) (k : Nat) (f : Fetch) : (putFetch s k f).dir = s.dir := rfl
@[simp] theorem putFetch_nb (s : State) (k : Nat) (f : Fetch) : (putFetch s k f).nb = s.nb := rfl
@[simp] theorem putFetch_pg (s : State) (k : Nat) (f : Fetch) : (putFetch s k f).pg = s.pg := rfl
@[simp] theorem putFetch_trust (s : State) (k : Nat) (f : Fetch) : (putFetch s k f).trust = s.trust := rfl
@[simp] theorem putFetch_acc (s : State) (k : Nat) (f : Fetch) : (putFetch s k f).acc = s.acc := rfl
@[simp] theorem putFetch_freeIdx (s : State) (k : Nat) (f : Fetch) : (putFetch s k f).freeIdx = s.freeIdx := rfl
@[simp] theorem putFetch_pending (s : State) (k : Nat) (f : Fetch) : (putFetch s k f).pending = s.pending := rfl

@[simp] theorem delFetch_time (s : State) (k : Nat) : (delFetch s k).time = s.time := rfl
@[simp] theorem delFetch_boot (s : State) (k : Nat) : (delFetch s k).boot = s.boot := rfl
@[simp] theorem delFetch_rst (s : State) (k : Nat) : (delFetch s k).rst = s.rst := rfl
@[simp] theorem delFetch_supply (s : State) (k : Nat) : (delFetch s k).supply = s.supply := rfl
@[simp] theorem delFetch_mon (s : State) (k : Nat) : (delFetch s k).mon = s.mon := rfl
@[simp] theorem delFetch_health (s : State) (k : Nat) : (delFetch s k).health = s.health := rfl
@[simp] theorem delFetch_cores (s : State) (k : Nat) : (delFetch s k).cores = s.cores := rfl
@[simp] theorem delFetch_ev (s : State) (k : Nat) : (delFetch s k).ev = s.ev := rfl
@[simp] theorem delFetch_ctr (s : State) (k : Nat) : (delFetch s k).ctr = s.ctr := rfl
@[simp] theorem delFetch_seats (s : State) (k : Nat) : (delFetch s k).seats = s.seats := rfl
@[simp] theorem delFetch_tr (s : State) (k : Nat) : (delFetch s k).tr = s.tr := rfl
@[simp] theorem delFetch_net (s : State) (k : Nat) : (delFetch s k).net = s.net := rfl
@[simp] theorem delFetch_fab (s : State) (k : Nat) : (delFetch s k).fab = s.fab := rfl
@[simp] theorem delFetch_dir (s : State) (k : Nat) : (delFetch s k).dir = s.dir := rfl
@[simp] theorem delFetch_nb (s : State) (k : Nat) : (delFetch s k).nb = s.nb := rfl
@[simp] theorem delFetch_pg (s : State) (k : Nat) : (delFetch s k).pg = s.pg := rfl
@[simp] theorem delFetch_trust (s : State) (k : Nat) : (delFetch s k).trust = s.trust := rfl
@[simp] theorem delFetch_acc (s : State) (k : Nat) : (delFetch s k).acc = s.acc := rfl
@[simp] theorem delFetch_freeIdx (s : State) (k : Nat) : (delFetch s k).freeIdx = s.freeIdx := rfl
@[simp] theorem delFetch_pending (s : State) (k : Nat) : (delFetch s k).pending = s.pending := rfl

@[simp] theorem putSet_time (s : State) (k : SetKey) (w : WeightSet) : (putSet s k w).time = s.time := rfl
@[simp] theorem putSet_boot (s : State) (k : SetKey) (w : WeightSet) : (putSet s k w).boot = s.boot := rfl
@[simp] theorem putSet_rst (s : State) (k : SetKey) (w : WeightSet) : (putSet s k w).rst = s.rst := rfl
@[simp] theorem putSet_supply (s : State) (k : SetKey) (w : WeightSet) : (putSet s k w).supply = s.supply := rfl
@[simp] theorem putSet_mon (s : State) (k : SetKey) (w : WeightSet) : (putSet s k w).mon = s.mon := rfl
@[simp] theorem putSet_health (s : State) (k : SetKey) (w : WeightSet) : (putSet s k w).health = s.health := rfl
@[simp] theorem putSet_cores (s : State) (k : SetKey) (w : WeightSet) : (putSet s k w).cores = s.cores := rfl
@[simp] theorem putSet_ev (s : State) (k : SetKey) (w : WeightSet) : (putSet s k w).ev = s.ev := rfl
@[simp] theorem putSet_ctr (s : State) (k : SetKey) (w : WeightSet) : (putSet s k w).ctr = s.ctr := rfl
@[simp] theorem putSet_seats (s : State) (k : SetKey) (w : WeightSet) : (putSet s k w).seats = s.seats := rfl
@[simp] theorem putSet_tr (s : State) (k : SetKey) (w : WeightSet) : (putSet s k w).tr = s.tr := rfl
@[simp] theorem putSet_net (s : State) (k : SetKey) (w : WeightSet) : (putSet s k w).net = s.net := rfl
@[simp] theorem putSet_fab (s : State) (k : SetKey) (w : WeightSet) : (putSet s k w).fab = s.fab := rfl
@[simp] theorem putSet_dir (s : State) (k : SetKey) (w : WeightSet) : (putSet s k w).dir = s.dir := rfl
@[simp] theorem putSet_nb (s : State) (k : SetKey) (w : WeightSet) : (putSet s k w).nb = s.nb := rfl
@[simp] theorem putSet_pg (s : State) (k : SetKey) (w : WeightSet) : (putSet s k w).pg = s.pg := rfl
@[simp] theorem putSet_trust (s : State) (k : SetKey) (w : WeightSet) : (putSet s k w).trust = s.trust := rfl
@[simp] theorem putSet_acc (s : State) (k : SetKey) (w : WeightSet) : (putSet s k w).acc = s.acc := rfl
@[simp] theorem putSet_freeIdx (s : State) (k : SetKey) (w : WeightSet) : (putSet s k w).freeIdx = s.freeIdx := rfl
@[simp] theorem putSet_pending (s : State) (k : SetKey) (w : WeightSet) : (putSet s k w).pending = s.pending := rfl

@[simp] theorem putErr_time (s : State) (n : Nat) (c : Blk) : (putErr s n c).time = s.time := rfl
@[simp] theorem putErr_boot (s : State) (n : Nat) (c : Blk) : (putErr s n c).boot = s.boot := rfl
@[simp] theorem putErr_rst (s : State) (n : Nat) (c : Blk) : (putErr s n c).rst = s.rst := rfl
@[simp] theorem putErr_supply (s : State) (n : Nat) (c : Blk) : (putErr s n c).supply = s.supply := rfl
@[simp] theorem putErr_mon (s : State) (n : Nat) (c : Blk) : (putErr s n c).mon = s.mon := rfl
@[simp] theorem putErr_health (s : State) (n : Nat) (c : Blk) : (putErr s n c).health = s.health := rfl
@[simp] theorem putErr_cores (s : State) (n : Nat) (c : Blk) : (putErr s n c).cores = s.cores := rfl
@[simp] theorem putErr_ev (s : State) (n : Nat) (c : Blk) : (putErr s n c).ev = s.ev := rfl
@[simp] theorem putErr_ctr (s : State) (n : Nat) (c : Blk) : (putErr s n c).ctr = s.ctr := rfl
@[simp] theorem putErr_seats (s : State) (n : Nat) (c : Blk) : (putErr s n c).seats = s.seats := rfl
@[simp] theorem putErr_tr (s : State) (n : Nat) (c : Blk) : (putErr s n c).tr = s.tr := rfl
@[simp] theorem putErr_net (s : State) (n : Nat) (c : Blk) : (putErr s n c).net = s.net := rfl
@[simp] theorem putErr_fab (s : State) (n : Nat) (c : Blk) : (putErr s n c).fab = s.fab := rfl
@[simp] theorem putErr_dir (s : State) (n : Nat) (c : Blk) : (putErr s n c).dir = s.dir := rfl
@[simp] theorem putErr_nb (s : State) (n : Nat) (c : Blk) : (putErr s n c).nb = s.nb := rfl
@[simp] theorem putErr_pg (s : State) (n : Nat) (c : Blk) : (putErr s n c).pg = s.pg := rfl
@[simp] theorem putErr_trust (s : State) (n : Nat) (c : Blk) : (putErr s n c).trust = s.trust := rfl
@[simp] theorem putErr_acc (s : State) (n : Nat) (c : Blk) : (putErr s n c).acc = s.acc := rfl
@[simp] theorem putErr_freeIdx (s : State) (n : Nat) (c : Blk) : (putErr s n c).freeIdx = s.freeIdx := rfl
@[simp] theorem putErr_pending (s : State) (n : Nat) (c : Blk) : (putErr s n c).pending = s.pending := rfl

@[simp] theorem putUnit_time (s : State) (u : Nat × Nat) (x : Unit') : (putUnit s u x).time = s.time := rfl
@[simp] theorem putUnit_boot (s : State) (u : Nat × Nat) (x : Unit') : (putUnit s u x).boot = s.boot := rfl
@[simp] theorem putUnit_rst (s : State) (u : Nat × Nat) (x : Unit') : (putUnit s u x).rst = s.rst := rfl
@[simp] theorem putUnit_supply (s : State) (u : Nat × Nat) (x : Unit') : (putUnit s u x).supply = s.supply := rfl
@[simp] theorem putUnit_mon (s : State) (u : Nat × Nat) (x : Unit') : (putUnit s u x).mon = s.mon := rfl
@[simp] theorem putUnit_health (s : State) (u : Nat × Nat) (x : Unit') : (putUnit s u x).health = s.health := rfl
@[simp] theorem putUnit_cores (s : State) (u : Nat × Nat) (x : Unit') : (putUnit s u x).cores = s.cores := rfl
@[simp] theorem putUnit_ev (s : State) (u : Nat × Nat) (x : Unit') : (putUnit s u x).ev = s.ev := rfl
@[simp] theorem putUnit_ctr (s : State) (u : Nat × Nat) (x : Unit') : (putUnit s u x).ctr = s.ctr := rfl
@[simp] theorem putUnit_seats (s : State) (u : Nat × Nat) (x : Unit') : (putUnit s u x).seats = s.seats := rfl
@[simp] theorem putUnit_tr (s : State) (u : Nat × Nat) (x : Unit') : (putUnit s u x).tr = s.tr := rfl
@[simp] theorem putUnit_net (s : State) (u : Nat × Nat) (x : Unit') : (putUnit s u x).net = s.net := rfl
@[simp] theorem putUnit_fab (s : State) (u : Nat × Nat) (x : Unit') : (putUnit s u x).fab = s.fab := rfl
@[simp] theorem putUnit_dir (s : State) (u : Nat × Nat) (x : Unit') : (putUnit s u x).dir = s.dir := rfl
@[simp] theorem putUnit_mem (s : State) (u : Nat × Nat) (x : Unit') : (putUnit s u x).mem = s.mem := rfl
@[simp] theorem putUnit_pg (s : State) (u : Nat × Nat) (x : Unit') : (putUnit s u x).pg = s.pg := rfl
@[simp] theorem putUnit_trust (s : State) (u : Nat × Nat) (x : Unit') : (putUnit s u x).trust = s.trust := rfl
@[simp] theorem putUnit_acc (s : State) (u : Nat × Nat) (x : Unit') : (putUnit s u x).acc = s.acc := rfl
@[simp] theorem putUnit_freeIdx (s : State) (u : Nat × Nat) (x : Unit') : (putUnit s u x).freeIdx = s.freeIdx := rfl
@[simp] theorem putUnit_pending (s : State) (u : Nat × Nat) (x : Unit') : (putUnit s u x).pending = s.pending := rfl

@[simp] theorem putCtx_time (s : State) (c : Nat) (p : Prog) : (putCtx s c p).time = s.time := rfl
@[simp] theorem putCtx_boot (s : State) (c : Nat) (p : Prog) : (putCtx s c p).boot = s.boot := rfl
@[simp] theorem putCtx_rst (s : State) (c : Nat) (p : Prog) : (putCtx s c p).rst = s.rst := rfl
@[simp] theorem putCtx_supply (s : State) (c : Nat) (p : Prog) : (putCtx s c p).supply = s.supply := rfl
@[simp] theorem putCtx_mon (s : State) (c : Nat) (p : Prog) : (putCtx s c p).mon = s.mon := rfl
@[simp] theorem putCtx_health (s : State) (c : Nat) (p : Prog) : (putCtx s c p).health = s.health := rfl
@[simp] theorem putCtx_cores (s : State) (c : Nat) (p : Prog) : (putCtx s c p).cores = s.cores := rfl
@[simp] theorem putCtx_ev (s : State) (c : Nat) (p : Prog) : (putCtx s c p).ev = s.ev := rfl
@[simp] theorem putCtx_ctr (s : State) (c : Nat) (p : Prog) : (putCtx s c p).ctr = s.ctr := rfl
@[simp] theorem putCtx_seats (s : State) (c : Nat) (p : Prog) : (putCtx s c p).seats = s.seats := rfl
@[simp] theorem putCtx_tr (s : State) (c : Nat) (p : Prog) : (putCtx s c p).tr = s.tr := rfl
@[simp] theorem putCtx_net (s : State) (c : Nat) (p : Prog) : (putCtx s c p).net = s.net := rfl
@[simp] theorem putCtx_fab (s : State) (c : Nat) (p : Prog) : (putCtx s c p).fab = s.fab := rfl
@[simp] theorem putCtx_dir (s : State) (c : Nat) (p : Prog) : (putCtx s c p).dir = s.dir := rfl
@[simp] theorem putCtx_mem (s : State) (c : Nat) (p : Prog) : (putCtx s c p).mem = s.mem := rfl
@[simp] theorem putCtx_nb (s : State) (c : Nat) (p : Prog) : (putCtx s c p).nb = s.nb := rfl
@[simp] theorem putCtx_trust (s : State) (c : Nat) (p : Prog) : (putCtx s c p).trust = s.trust := rfl
@[simp] theorem putCtx_acc (s : State) (c : Nat) (p : Prog) : (putCtx s c p).acc = s.acc := rfl
@[simp] theorem putCtx_freeIdx (s : State) (c : Nat) (p : Prog) : (putCtx s c p).freeIdx = s.freeIdx := rfl
@[simp] theorem putCtx_pending (s : State) (c : Nat) (p : Prog) : (putCtx s c p).pending = s.pending := rfl

@[simp] theorem delCtx_time (s : State) (c : Nat) : (delCtx s c).time = s.time := rfl
@[simp] theorem delCtx_boot (s : State) (c : Nat) : (delCtx s c).boot = s.boot := rfl
@[simp] theorem delCtx_rst (s : State) (c : Nat) : (delCtx s c).rst = s.rst := rfl
@[simp] theorem delCtx_supply (s : State) (c : Nat) : (delCtx s c).supply = s.supply := rfl
@[simp] theorem delCtx_mon (s : State) (c : Nat) : (delCtx s c).mon = s.mon := rfl
@[simp] theorem delCtx_health (s : State) (c : Nat) : (delCtx s c).health = s.health := rfl
@[simp] theorem delCtx_cores (s : State) (c : Nat) : (delCtx s c).cores = s.cores := rfl
@[simp] theorem delCtx_ev (s : State) (c : Nat) : (delCtx s c).ev = s.ev := rfl
@[simp] theorem delCtx_ctr (s : State) (c : Nat) : (delCtx s c).ctr = s.ctr := rfl
@[simp] theorem delCtx_seats (s : State) (c : Nat) : (delCtx s c).seats = s.seats := rfl
@[simp] theorem delCtx_tr (s : State) (c : Nat) : (delCtx s c).tr = s.tr := rfl
@[simp] theorem delCtx_net (s : State) (c : Nat) : (delCtx s c).net = s.net := rfl
@[simp] theorem delCtx_fab (s : State) (c : Nat) : (delCtx s c).fab = s.fab := rfl
@[simp] theorem delCtx_dir (s : State) (c : Nat) : (delCtx s c).dir = s.dir := rfl
@[simp] theorem delCtx_mem (s : State) (c : Nat) : (delCtx s c).mem = s.mem := rfl
@[simp] theorem delCtx_nb (s : State) (c : Nat) : (delCtx s c).nb = s.nb := rfl
@[simp] theorem delCtx_trust (s : State) (c : Nat) : (delCtx s c).trust = s.trust := rfl
@[simp] theorem delCtx_acc (s : State) (c : Nat) : (delCtx s c).acc = s.acc := rfl
@[simp] theorem delCtx_freeIdx (s : State) (c : Nat) : (delCtx s c).freeIdx = s.freeIdx := rfl
@[simp] theorem delCtx_pending (s : State) (c : Nat) : (delCtx s c).pending = s.pending := rfl

@[simp] theorem delPly_time (s : State) (i : Nat) : (delPly s i).time = s.time := rfl
@[simp] theorem delPly_boot (s : State) (i : Nat) : (delPly s i).boot = s.boot := rfl
@[simp] theorem delPly_rst (s : State) (i : Nat) : (delPly s i).rst = s.rst := rfl
@[simp] theorem delPly_supply (s : State) (i : Nat) : (delPly s i).supply = s.supply := rfl
@[simp] theorem delPly_mon (s : State) (i : Nat) : (delPly s i).mon = s.mon := rfl
@[simp] theorem delPly_health (s : State) (i : Nat) : (delPly s i).health = s.health := rfl
@[simp] theorem delPly_cores (s : State) (i : Nat) : (delPly s i).cores = s.cores := rfl
@[simp] theorem delPly_ev (s : State) (i : Nat) : (delPly s i).ev = s.ev := rfl
@[simp] theorem delPly_ctr (s : State) (i : Nat) : (delPly s i).ctr = s.ctr := rfl
@[simp] theorem delPly_seats (s : State) (i : Nat) : (delPly s i).seats = s.seats := rfl
@[simp] theorem delPly_tr (s : State) (i : Nat) : (delPly s i).tr = s.tr := rfl
@[simp] theorem delPly_net (s : State) (i : Nat) : (delPly s i).net = s.net := rfl
@[simp] theorem delPly_fab (s : State) (i : Nat) : (delPly s i).fab = s.fab := rfl
@[simp] theorem delPly_dir (s : State) (i : Nat) : (delPly s i).dir = s.dir := rfl
@[simp] theorem delPly_mem (s : State) (i : Nat) : (delPly s i).mem = s.mem := rfl
@[simp] theorem delPly_nb (s : State) (i : Nat) : (delPly s i).nb = s.nb := rfl
@[simp] theorem delPly_trust (s : State) (i : Nat) : (delPly s i).trust = s.trust := rfl
@[simp] theorem delPly_acc (s : State) (i : Nat) : (delPly s i).acc = s.acc := rfl
@[simp] theorem delPly_freeIdx (s : State) (i : Nat) : (delPly s i).freeIdx = s.freeIdx := rfl
@[simp] theorem delPly_pending (s : State) (i : Nat) : (delPly s i).pending = s.pending := rfl

@[simp] theorem putOwn_time (s : State) (t st : Nat) (o : Own) : (putOwn s t st o).time = s.time := rfl
@[simp] theorem putOwn_boot (s : State) (t st : Nat) (o : Own) : (putOwn s t st o).boot = s.boot := rfl
@[simp] theorem putOwn_rst (s : State) (t st : Nat) (o : Own) : (putOwn s t st o).rst = s.rst := rfl
@[simp] theorem putOwn_supply (s : State) (t st : Nat) (o : Own) : (putOwn s t st o).supply = s.supply := rfl
@[simp] theorem putOwn_mon (s : State) (t st : Nat) (o : Own) : (putOwn s t st o).mon = s.mon := rfl
@[simp] theorem putOwn_health (s : State) (t st : Nat) (o : Own) : (putOwn s t st o).health = s.health := rfl
@[simp] theorem putOwn_cores (s : State) (t st : Nat) (o : Own) : (putOwn s t st o).cores = s.cores := rfl
@[simp] theorem putOwn_ev (s : State) (t st : Nat) (o : Own) : (putOwn s t st o).ev = s.ev := rfl
@[simp] theorem putOwn_ctr (s : State) (t st : Nat) (o : Own) : (putOwn s t st o).ctr = s.ctr := rfl
@[simp] theorem putOwn_seats (s : State) (t st : Nat) (o : Own) : (putOwn s t st o).seats = s.seats := rfl
@[simp] theorem putOwn_tr (s : State) (t st : Nat) (o : Own) : (putOwn s t st o).tr = s.tr := rfl
@[simp] theorem putOwn_net (s : State) (t st : Nat) (o : Own) : (putOwn s t st o).net = s.net := rfl
@[simp] theorem putOwn_dir (s : State) (t st : Nat) (o : Own) : (putOwn s t st o).dir = s.dir := rfl
@[simp] theorem putOwn_mem (s : State) (t st : Nat) (o : Own) : (putOwn s t st o).mem = s.mem := rfl
@[simp] theorem putOwn_nb (s : State) (t st : Nat) (o : Own) : (putOwn s t st o).nb = s.nb := rfl
@[simp] theorem putOwn_pg (s : State) (t st : Nat) (o : Own) : (putOwn s t st o).pg = s.pg := rfl
@[simp] theorem putOwn_trust (s : State) (t st : Nat) (o : Own) : (putOwn s t st o).trust = s.trust := rfl
@[simp] theorem putOwn_acc (s : State) (t st : Nat) (o : Own) : (putOwn s t st o).acc = s.acc := rfl
@[simp] theorem putOwn_freeIdx (s : State) (t st : Nat) (o : Own) : (putOwn s t st o).freeIdx = s.freeIdx := rfl
@[simp] theorem putOwn_pending (s : State) (t st : Nat) (o : Own) : (putOwn s t st o).pending = s.pending := rfl

@[simp] theorem updPath_time (s : State) (p : Path) (f : PathState → PathState) : (updPath s p f).time = s.time := rfl
@[simp] theorem updPath_boot (s : State) (p : Path) (f : PathState → PathState) : (updPath s p f).boot = s.boot := rfl
@[simp] theorem updPath_rst (s : State) (p : Path) (f : PathState → PathState) : (updPath s p f).rst = s.rst := rfl
@[simp] theorem updPath_supply (s : State) (p : Path) (f : PathState → PathState) : (updPath s p f).supply = s.supply := rfl
@[simp] theorem updPath_mon (s : State) (p : Path) (f : PathState → PathState) : (updPath s p f).mon = s.mon := rfl
@[simp] theorem updPath_health (s : State) (p : Path) (f : PathState → PathState) : (updPath s p f).health = s.health := rfl
@[simp] theorem updPath_cores (s : State) (p : Path) (f : PathState → PathState) : (updPath s p f).cores = s.cores := rfl
@[simp] theorem updPath_ev (s : State) (p : Path) (f : PathState → PathState) : (updPath s p f).ev = s.ev := rfl
@[simp] theorem updPath_ctr (s : State) (p : Path) (f : PathState → PathState) : (updPath s p f).ctr = s.ctr := rfl
@[simp] theorem updPath_seats (s : State) (p : Path) (f : PathState → PathState) : (updPath s p f).seats = s.seats := rfl
@[simp] theorem updPath_tr (s : State) (p : Path) (f : PathState → PathState) : (updPath s p f).tr = s.tr := rfl
@[simp] theorem updPath_net (s : State) (p : Path) (f : PathState → PathState) : (updPath s p f).net = s.net := rfl
@[simp] theorem updPath_fab (s : State) (p : Path) (f : PathState → PathState) : (updPath s p f).fab = s.fab := rfl
@[simp] theorem updPath_dir (s : State) (p : Path) (f : PathState → PathState) : (updPath s p f).dir = s.dir := rfl
@[simp] theorem updPath_mem (s : State) (p : Path) (f : PathState → PathState) : (updPath s p f).mem = s.mem := rfl
@[simp] theorem updPath_nb (s : State) (p : Path) (f : PathState → PathState) : (updPath s p f).nb = s.nb := rfl
@[simp] theorem updPath_pg (s : State) (p : Path) (f : PathState → PathState) : (updPath s p f).pg = s.pg := rfl
@[simp] theorem updPath_trust (s : State) (p : Path) (f : PathState → PathState) : (updPath s p f).trust = s.trust := rfl
@[simp] theorem updPath_freeIdx (s : State) (p : Path) (f : PathState → PathState) : (updPath s p f).freeIdx = s.freeIdx := rfl
@[simp] theorem updPath_pending (s : State) (p : Path) (f : PathState → PathState) : (updPath s p f).pending = s.pending := rfl

end Sys2Proof.Laws
end

