-- ==== Sys2Proof/Laws/Events.lean ====
section
/-! SUPPORT. What raising an event does to the events, and what changes nothing of them. -/

namespace Sys2Proof.Laws
open Sys2Proof Sys2Proof.Machine Sys2Proof.Safety

theorem sendEvent_ev (s : State) (e : Event) : (sendEvent s e).ev.nextSeq = s.ev.nextSeq ∧ (sendEvent s e).ev.queue = s.ev.queue := by
  unfold sendEvent
  split
  · exact ⟨rfl, rfl⟩
  · extract_lets sec n src s1
    split
    · exact ⟨rfl, rfl⟩
    · rw [(sent_sendTo _ _ _ _ _ _).ev]; exact ⟨rfl, rfl⟩

theorem raiseEvent_nextSeq (s : State) (c : Nat) (p : List Byte) : (raiseEvent s c p).ev.nextSeq = (s.ev.nextSeq + 1) % 2 ^ 32 := by
  unfold raiseEvent
  dsimp only
  split
  · rw [(sendEvent_ev _ _).1]
  · split <;> rfl

theorem raiseEvent_queue (s : State) (c : Nat) (p : List Byte) (h : (hostLink s).isSome = true) : (raiseEvent s c p).ev.queue = s.ev.queue := by
  unfold raiseEvent
  dsimp only
  rw [if_pos h, (sendEvent_ev _ _).2]

theorem raiseEvent_waits (s : State) (c : Nat) (p : List Byte) (h : hostLink s = none) (l : s.ev.queue.length < 256) :
    raiseEvent s c p = { s with ev := { s.ev with nextSeq := (s.ev.nextSeq + 1) % 2 ^ 32, queue := s.ev.queue ++ [⟨c, s.ev.nextSeq, s.time, p⟩] } } := by
  unfold raiseEvent
  simp [h, l]

/-- An event raised in a state that stands as `s` in its clock, its events and the host its events go to. -/
theorem raised_of {s u : State} (c : Nat) (p : List Byte) (h : hostLink u = hostLink s) (e : u.ev = s.ev) (t : u.time = s.time) :
    Raised s (raiseEvent u c p) c p := by
  refine ⟨by rw [raiseEvent_nextSeq, e], fun n l => ?_⟩
  rw [raiseEvent_waits u c p (h.trans n) (by rw [e]; exact l)]
  simp [e, t]

/-- Who the owning host is depends on the seats, the host seat, and the configuration. -/
theorem owningHost_congr {s u : State} (a : u.seats = s.seats) (b : u.net.hostActive = s.net.hostActive) (c : u.boot.cfgSeats = s.boot.cfgSeats) :
    owningHost u = owningHost s := by
  unfold owningHost getSeat
  rw [a, b, c]

/-- Where events go depends on the placement too. -/
theorem hostLink_congr {s u : State} (a : u.seats = s.seats) (b : u.net.hostActive = s.net.hostActive) (c : u.boot.cfgSeats = s.boot.cfgSeats)
    (d : u.fab.active = s.fab.active) : hostLink u = hostLink s := by
  unfold hostLink placed
  rw [owningHost_congr a b c, d]

/-- An alert that is set stays set through what goes out. -/
theorem alertSet_or (s : State) (b : Nat) (h : b < 10) : AlertSet (setAlert s b) b := by
  unfold AlertSet setAlert
  rw [BitVec.getLsbD_or, BitVec.getLsbD_ofNat]
  simp [h, Nat.testBit_two_pow_self]

theorem alertSet_more {s : State} {a : Nat} (b : Nat) (h : AlertSet s a) : AlertSet (setAlert s b) a := by
  unfold AlertSet setAlert at *
  simp [BitVec.getLsbD_or, h]

theorem alertSet_rst {s t : State} {a : Nat} (h : AlertSet s a) (e : t.rst.alertStat = s.rst.alertStat) : AlertSet t a := by
  unfold AlertSet at *; rw [e]; exact h

theorem alertSet_sendEvent {s : State} {a : Nat} (h : AlertSet s a) (e : Event) : AlertSet (sendEvent s e) a := by
  unfold sendEvent
  split
  · exact h
  · extract_lets sec n src s1
    split
    · exact alertSet_more _ (alertSet_rst h rfl)
    · exact alertSet_rst h (by rw [(sent_sendTo _ _ _ _ _ _).rst]; rfl)

theorem alertSet_raiseEvent {s : State} {a : Nat} (h : AlertSet s a) (c : Nat) (p : List Byte) : AlertSet (raiseEvent s c p) a := by
  unfold raiseEvent
  dsimp only
  split
  · exact alertSet_sendEvent (s := { s with ev := { s.ev with nextSeq := (s.ev.nextSeq + 1) % 2 ^ 32 } }) h _
  · split
    · exact h
    · exact alertSet_more (s := bump (bump { s with ev := { s.ev with nextSeq := (s.ev.nextSeq + 1) % 2 ^ 32 } } _) _) _ h

end Sys2Proof.Laws
end

