-- ==== Sys2Proof/Laws/Keeps.lean ====
section
/-! SUPPORT. What every operation keeps. `Keeps` is for those that are no reset and no change of stage: power, RESET_N, hold, stage, the commands
that wait, the free values drawn so far, and the parts of the invariant that do not speak of boot. `Pres` is for all: the commands that wait,
the free values, the invariant. -/

namespace Sys2Proof.Laws
open Sys2Proof Sys2Proof.Machine Sys2Proof.Safety

/-- `t` comes from `s` without a reset. -/
structure Keeps (s t : State) : Prop where
  pending : t.pending = s.pending
  powered : t.boot.powered = s.boot.powered
  low : t.boot.resetLow = s.boot.resetLow
  hold : t.boot.hold = s.boot.hold
  stage : t.boot.stage = s.boot.stage
  free : s.freeIdx ≤ t.freeIdx
  sound : Sound s → Sound t
  rows : RowsSound s → RowsSound t

theorem Keeps_refl (s : State) : Keeps s s := ⟨rfl, rfl, rfl, rfl, rfl, Nat.le_refl _, id, id⟩

theorem Keeps_trans {s t u : State} (a : Keeps s t) (b : Keeps t u) : Keeps s u :=
  ⟨b.1.trans a.1, b.2.trans a.2, b.3.trans a.3, b.4.trans a.4, b.5.trans a.5, Nat.le_trans a.6 b.6, fun h => b.7 (a.7 h), fun h => b.8 (a.8 h)⟩

/-- The directory's rows stand as they were. -/
theorem RowsSound_same {s t : State} (h : t.dir = s.dir) : RowsSound s → RowsSound t := by
  unfold RowsSound getHalf; rw [h]; exact id

/-- An update of fields that the invariant does not speak of. -/
theorem Keeps_same {s t : State} (p : t.pending = s.pending) (a : t.boot.powered = s.boot.powered) (b : t.boot.hold = s.boot.hold)
    (c : t.boot.stage = s.boot.stage) (d : t.freeIdx = s.freeIdx) (e : t.mem.err = s.mem.err) (f : t.supply.target = s.supply.target)
    (g : t.supply.prevTarget = s.supply.prevTarget) (h : t.ev.queue = s.ev.queue) (i : t.ev.nextSeq = s.ev.nextSeq)
    (j : t.rst.ctlCount = s.rst.ctlCount) (l : t.boot.resetLow = s.boot.resetLow) (r : t.dir = s.dir) : Keeps s t :=
  ⟨p, a, l, b, c, Nat.le_of_eq d.symm, fun k => by
    unfold Sound at *; rw [e, f, g, h, i, j]; exact k, RowsSound_same r⟩

theorem Keeps_ite {s a b : State} {c : Prop} [Decidable c] (ha : Keeps s a) (hb : Keeps s b) : Keeps s (if c then a else b) := by
  split
  · exact ha
  · exact hb

theorem Keeps_ite_1 {α : Type} {s : State} {a b : State × α} {c : Prop} [Decidable c] (ha : Keeps s a.1) (hb : Keeps s b.1) :
    Keeps s (if c then a else b).1 := by
  split
  · exact ha
  · exact hb

theorem Keeps_ite_2 {α : Type} {s : State} {a b : α × State} {c : Prop} [Decidable c] (ha : Keeps s a.2) (hb : Keeps s b.2) :
    Keeps s (if c then a else b).2 := by
  split
  · exact ha
  · exact hb

theorem Keeps_ite_2_2 {α β : Type} {s : State} {a b : α × β × State} {c : Prop} [Decidable c] (ha : Keeps s a.2.2) (hb : Keeps s b.2.2) :
    Keeps s (if c then a else b).2.2 := by
  split
  · exact ha
  · exact hb

theorem Keeps_ite_2_1 {α β : Type} {s : State} {a b : α × State × β} {c : Prop} [Decidable c] (ha : Keeps s a.2.1) (hb : Keeps s b.2.1) :
    Keeps s (if c then a else b).2.1 := by
  split
  · exact ha
  · exact hb

theorem Keeps_foldl {α : Type} {f : State → α → State} (h : ∀ s a, Keeps s (f s a)) (l : List α) (s : State) : Keeps s (l.foldl f s) := by
  induction l generalizing s with
  | nil => exact Keeps_refl s
  | cons a r ih => exact Keeps_trans (h s a) (ih _)

theorem Keeps_foldl_1 {α β : Type} {f : State × β → α → State × β} (h : ∀ s a, Keeps s.1 (f s a).1) (l : List α) (s : State × β) :
    Keeps s.1 (l.foldl f s).1 := by
  induction l generalizing s with
  | nil => exact Keeps_refl _
  | cons a r ih => exact Keeps_trans (h s a) (ih _)

theorem Keeps_foldl_2 {α β : Type} {f : β × State → α → β × State} (h : ∀ s a, Keeps s.2 (f s a).2) (l : List α) (s : β × State) :
    Keeps s.2 (l.foldl f s).2 := by
  induction l generalizing s with
  | nil => exact Keeps_refl _
  | cons a r ih => exact Keeps_trans (h s a) (ih _)

theorem Keeps_foldl_2_2 {α β γ : Type} {f : β × γ × State → α → β × γ × State} (h : ∀ s a, Keeps s.2.2 (f s a).2.2) (l : List α)
    (s : β × γ × State) : Keeps s.2.2 (l.foldl f s).2.2 := by
  induction l generalizing s with
  | nil => exact Keeps_refl _
  | cons a r ih => exact Keeps_trans (h s a) (ih _)

theorem Keeps_foldl_2_1 {α β γ : Type} {f : β × State × γ → α → β × State × γ} (h : ∀ s a, Keeps s.2.1 (f s a).2.1) (l : List α)
    (s : β × State × γ) : Keeps s.2.1 (l.foldl f s).2.1 := by
  induction l generalizing s with
  | nil => exact Keeps_refl _
  | cons a r ih => exact Keeps_trans (h s a) (ih _)

/-- `t` comes from `s` by any operation. -/
structure Pres (s t : State) : Prop where
  pending : t.pending = s.pending
  free : s.freeIdx ≤ t.freeIdx
  inv : Inv s → Inv t

theorem Pres_refl (s : State) : Pres s s := ⟨rfl, Nat.le_refl _, id⟩

theorem Pres_trans {s t u : State} (a : Pres s t) (b : Pres t u) : Pres s u :=
  ⟨b.1.trans a.1, Nat.le_trans a.2 b.2, fun h => b.3 (a.3 h)⟩

theorem Pres_of {s t : State} (a : Keeps s t) : Pres s t :=
  ⟨a.pending, a.free, fun h => ⟨a.sound h.1, by rw [a.stage]; exact h.2.1, by
    unfold running; rw [a.stage, a.powered, a.low, a.hold]; exact h.2.2.1, a.rows h.2.2.2⟩⟩

theorem Pres_same {s t : State} (p : t.pending = s.pending) (a : t.boot.powered = s.boot.powered) (b : t.boot.hold = s.boot.hold)
    (c : t.boot.stage = s.boot.stage) (d : t.freeIdx = s.freeIdx) (e : t.mem.err = s.mem.err) (f : t.supply.target = s.supply.target)
    (g : t.supply.prevTarget = s.supply.prevTarget) (h : t.ev.queue = s.ev.queue) (i : t.ev.nextSeq = s.ev.nextSeq)
    (j : t.rst.ctlCount = s.rst.ctlCount) (l : t.boot.resetLow = s.boot.resetLow) (r : t.dir = s.dir) : Pres s t :=
  Pres_of (Keeps_same p a b c d e f g h i j l r)

theorem Pres_ite {s a b : State} {c : Prop} [Decidable c] (ha : Pres s a) (hb : Pres s b) : Pres s (if c then a else b) := by
  split
  · exact ha
  · exact hb

theorem Pres_ite_1 {α : Type} {s : State} {a b : State × α} {c : Prop} [Decidable c] (ha : Pres s a.1) (hb : Pres s b.1) :
    Pres s (if c then a else b).1 := by
  split
  · exact ha
  · exact hb

theorem Pres_ite_2 {α : Type} {s : State} {a b : α × State} {c : Prop} [Decidable c] (ha : Pres s a.2) (hb : Pres s b.2) :
    Pres s (if c then a else b).2 := by
  split
  · exact ha
  · exact hb

theorem Pres_ite_2_2 {α β : Type} {s : State} {a b : α × β × State} {c : Prop} [Decidable c] (ha : Pres s a.2.2) (hb : Pres s b.2.2) :
    Pres s (if c then a else b).2.2 := by
  split
  · exact ha
  · exact hb

theorem Pres_ite_2_1 {α β : Type} {s : State} {a b : α × State × β} {c : Prop} [Decidable c] (ha : Pres s a.2.1) (hb : Pres s b.2.1) :
    Pres s (if c then a else b).2.1 := by
  split
  · exact ha
  · exact hb

theorem Pres_foldl {α : Type} {f : State → α → State} (h : ∀ s a, Pres s (f s a)) (l : List α) (s : State) : Pres s (l.foldl f s) := by
  induction l generalizing s with
  | nil => exact Pres_refl s
  | cons a r ih => exact Pres_trans (h s a) (ih _)

theorem Pres_foldl_1 {α β : Type} {f : State × β → α → State × β} (h : ∀ s a, Pres s.1 (f s a).1) (l : List α) (s : State × β) :
    Pres s.1 (l.foldl f s).1 := by
  induction l generalizing s with
  | nil => exact Pres_refl _
  | cons a r ih => exact Pres_trans (h s a) (ih _)

theorem Pres_foldl_2 {α β : Type} {f : β × State → α → β × State} (h : ∀ s a, Pres s.2 (f s a).2) (l : List α) (s : β × State) :
    Pres s.2 (l.foldl f s).2 := by
  induction l generalizing s with
  | nil => exact Pres_refl _
  | cons a r ih => exact Pres_trans (h s a) (ih _)

theorem Pres_foldl_2_2 {α β γ : Type} {f : β × γ × State → α → β × γ × State} (h : ∀ s a, Pres s.2.2 (f s a).2.2) (l : List α)
    (s : β × γ × State) : Pres s.2.2 (l.foldl f s).2.2 := by
  induction l generalizing s with
  | nil => exact Pres_refl _
  | cons a r ih => exact Pres_trans (h s a) (ih _)

theorem Pres_foldl_2_1 {α β γ : Type} {f : β × State × γ → α → β × State × γ} (h : ∀ s a, Pres s.2.1 (f s a).2.1) (l : List α)
    (s : β × State × γ) : Pres s.2.1 (l.foldl f s).2.1 := by
  induction l generalizing s with
  | nil => exact Pres_refl _
  | cons a r ih => exact Pres_trans (h s a) (ih _)

end Sys2Proof.Laws
end

