-- ==== Sys2Proof/WellFormed.lean ====
section
/-! DEFINITION. Well-formed commands: every operand that names a thing of the block names one the block has, by the numbers of the
spec. A meaning is total: what an ill-formed command names is not there, and the command has no effect on it. -/

namespace Sys2Proof
open Sys2Proof.Machine

/-- Six seats, three on each die (R8, R315). -/
def okSeat (n : Nat) : Bool := decide (n < 6)
/-- 1,024 contexts (R233). -/
def okCtx (n : Nat) : Bool := decide (n < 1024)
/-- 16-bit node IDs (R338). -/
def okNode (n : Nat) : Bool := decide (n < 65536)
/-- Two dies, two directory halves, two seat references (R8, R138, R482). -/
def okHalf (n : Nat) : Bool := decide (n < 2)
/-- 4,096 tenant slots (R25). -/
def okSlot (n : Nat) : Bool := decide (n < 4096)
/-- 32-bit stream IDs (R383). -/
def okStream (n : Nat) : Bool := decide (n < 2 ^ 32)
/-- 24-bit positions (R383 END). -/
def okPos (n : Nat) : Bool := decide (n < 2 ^ 24)
/-- Twelve stacks (R13). -/
def okStack (n : Nat) : Bool := decide (n < 12)
/-- 32 near-bank units in a stack (R182). -/
def okUnit (n : Nat) : Bool := decide (n < 32)
/-- Eight clusters (R9). -/
def okCluster (n : Nat) : Bool := decide (n < 8)
/-- Nine physical cores in a cluster (R9). -/
def okPcore (n : Nat) : Bool := decide (n < 9)
/-- A peer: a node ID, or a link-local peer by its seat (R338, R366). -/
def okPeer (n : Nat) : Bool := decide (n < 0xFFFF ∨ 0x10000 ≤ n ∧ n < 0x10006)
/-- A path to the registers (R449). -/
def okPath (p : Path) : Bool := match p with | .ctx n => okCtx n | .smbus => true | .jtag => true
/-- A 7-bit target address (R450). -/
def okAddr7 (n : Nat) : Bool := decide (n < 128)
/-- A canary run on a core that exists (R311). -/
def okRun (r : CanaryRun) : Bool := okCluster r.cluster && okPcore r.pcore
/-- A place in on-die SRAM that exists (R216). -/
def okPlace (p : SramPlace) : Bool :=
  match p with
  | .core c k => okCluster c && okPcore k
  | .cluster c => okCluster c
  | .dieData d => okHalf d
  | .dieMeta d => okHalf d

/-- The command is well formed. -/
def Instr.wf (i : Instr) : Bool :=
  match i with
  | .powerGood _ => true
  | .pwrgdLow => true
  | .resetNAssert => true
  | .firmwareVerified _ => true
  | .memoryTrainingDone => true
  | .nodePlaceable runs => runs.all okRun
  | .nodeReset cause => decide (2 ≤ cause ∧ cause ≤ 9)
  | .controlReset cause => decide (0x21 ≤ cause ∧ cause ≤ 0x25)
  | .controlResetDone => true
  | .sagWarning index _ _ => decide (index < 48)
  | .sagRelease => true
  | .sagReset r => decide (r.index < 48)
  | .avsTargetChange => true
  | .avsTargetSettled => true
  | .avsFault _ => true
  | .monitorSample _ _ _ => true
  | .thermalThrottleEnd _ _ => true
  | .watchdogTrip die core => okHalf die && decide (core < 8)
  | .wdogHoldExpiry => true
  | .dieLinkLost => true
  | .refclkSysLost => true
  | .refclkHoldExpiry => true
  | .seatRefclkLost ref => okHalf ref
  | .trustEpochDisagree => true
  | .canaryScheduled run => okRun run
  | .canaryFastPeriodEnd cluster pcore => okCluster cluster && okPcore pcore
  | .spareSubstitution cluster pcore _ => okCluster cluster && okPcore pcore
  | .coreDrainDegrade cluster pcore => okCluster cluster && okPcore pcore
  | .healthDecay => true
  | .programMessage seat node _ => okSeat seat && okNode node
  | .contextTake die => okHalf die
  | .deadlinePasses _ => true
  | .commitStart ctx => okCtx ctx
  | .commitPoint ctx => okCtx ctx
  | .commitApplyEnd ctx => okCtx ctx
  | .fence ctx => okCtx ctx
  | .wait ctx => okCtx ctx
  | .emit ctx => okCtx ctx
  | .ledgerRd ctx => okCtx ctx
  | .tileAppend ctx => okCtx ctx
  | .tileSeal ctx => okCtx ctx
  | .runSplice ctx => okCtx ctx
  | .runDrop ctx => okCtx ctx
  | .moveWload ctx => okCtx ctx
  | .moveWfetch ctx => okCtx ctx
  | .moveWdrop ctx => okCtx ctx
  | .prefetch ctx => okCtx ctx
  | .keyAdmit ctx => okCtx ctx
  | .keyRotate ctx => okCtx ctx
  | .keyStageAck ctx step => okCtx ctx && decide (step < 65536)
  | .keyRemove ctx => okCtx ctx
  | .keyStatus ctx => okCtx ctx
  | .tenantReclaim slot => okSlot slot
  | .reencObject slot die _ => okSlot slot && okHalf die
  | .keyRetire slot => okSlot slot
  | .regRd ctx => okCtx ctx
  | .regWr ctx => okCtx ctx
  | .canary ctx runs => okCtx ctx && runs.all okRun
  | .scrub ctx => okCtx ctx
  | .scrubPassStart die _ => okHalf die
  | .scrubPassEnd die => okHalf die
  | .attDec ctx => okCtx ctx
  | .attPre ctx => okCtx ctx
  | .attBwd ctx => okCtx ctx
  | .attMerge ctx => okCtx ctx
  | .projKv ctx => okCtx ctx
  | .projKvGradient ctx => okCtx ctx
  | .mm ctx => okCtx ctx
  | .nbEw ctx => okCtx ctx
  | .nbRope ctx => okCtx ctx
  | .nbQuant ctx => okCtx ctx
  | .nbAdam ctx => okCtx ctx
  | .plyIssue _ cores _ => cores.all (fun c => decide (c < 64))
  | .plyComplete _ => true
  | .prefetchProtectExpiry _ => true
  | .dirLookup half _ tenant stream low high => okHalf half && okSlot tenant && okStream stream && okPos low && okPos high
  | .dirLookupRepeat half _ => okHalf half
  | .dirStagingRequest half => okHalf half
  | .dirStage half => okHalf half
  | .dirSpreadingPass half => okHalf half
  | .readsDrained _ => true
  | .t2CopyStart _ => true
  | .t2CopyTimeout _ target => okNode target
  | .eviction die => okHalf die
  | .interDieMove _ => true
  | .fetchAttemptTimeout _ => true
  | .fetchRetryRound _ => true
  | .migrationCondition reason tenant stream target => decide (1 ≤ reason ∧ reason ≤ 3) && okSlot tenant && okStream stream && okNode target
  | .migrationAnswerTimeout tenant stream => okSlot tenant && okStream stream
  | .migrationWithdraw tenant stream => okSlot tenant && okStream stream
  | .nbSeqStart stack unit => okStack stack && okUnit unit
  | .nbRowStepEnd stack unit _ _ => okStack stack && okUnit unit
  | .refreshDue stack unit => okStack stack && okUnit unit
  | .pass1End stack unit => okStack stack && okUnit unit
  | .refreshComplete stack unit => okStack stack && okUnit unit
  | .nbSeqFinal stack unit => okStack stack && okUnit unit
  | .nbPollRead => true
  | .eccEventIntervalEnd => true
  | .sramUncorrectable place => okPlace place
  | .seatEnable seat => okSeat seat
  | .trainingComplete seat => okSeat seat
  | .trainingRetry seat => okSeat seat
  | .linkLoss seat => okSeat seat
  | .helloTimer seat => okSeat seat
  | .hello seat _ => okSeat seat
  | .keepaliveTimer seat => okSeat seat
  | .keepalive seat _ => okSeat seat
  | .partnerLost seat => okSeat seat
  | .pfcFrame seat _ => okSeat seat
  | .dataFrame seat _ => okSeat seat
  | .ackFrame seat _ => okSeat seat
  | .ackTimer peer => okPeer peer
  | .rtoExpiry peer => okPeer peer
  | .peerUnreachable peer => okPeer peer
  | .rateIncrease peer => okPeer peer
  | .forwardFrame seat _ => okSeat seat
  | .egressFrameStart seat => okSeat seat
  | .boardWrite seat node _ => okSeat seat && okNode node
  | .boardCommit seat node _ => okSeat seat && okNode node
  | .boardAbort seat node _ => okSeat seat && okNode node
  | .boardGraceEnd => true
  | .discoveryProbe seat _ => okSeat seat
  | .discoveryAssign seat _ => okSeat seat
  | .tierPut node _ => okNode node
  | .tierPutAck node _ => okNode node
  | .tierGet node _ => okNode node
  | .tierData node _ => okNode node
  | .tierRelease node _ => okNode node
  | .tierReleaseAck node _ => okNode node
  | .migrationOffer node _ => okNode node
  | .migrationAnswer node _ => okNode node
  | .tailOffer node _ => okNode node
  | .tailOfferKeepExpiry tenant stream => okSlot tenant && okStream stream
  | .handoverFetchDone tenant stream => okSlot tenant && okStream stream
  | .tailAck node _ => okNode node
  | .tailAsk node _ => okNode node
  | .tailRefuse node _ => okNode node
  | .awaitingTimeout tenant stream => okSlot tenant && okStream stream
  | .stallEnd tenant stream => okSlot tenant && okStream stream
  | .reclaimTimeout tenant stream => okSlot tenant && okStream stream
  | .copyAsk node _ => okNode node
  | .digestSend => true
  | .digest node _ => okNode node
  | .digestUnpairedExpiry tenant program step => okSlot tenant && decide (program < 2 ^ 64) && decide (step < 65536)
  | .spdmGetVersion _ => true
  | .spdmGetCapabilities _ => true
  | .spdmNegotiateAlgorithms _ => true
  | .spdmGetMeasurements _ => true
  | .spdmUnsupported _ => true
  | .ctlResetWrite path => okPath path
  | .nodeResetWrite path => okPath path
  | .scanUnlock path => okPath path
  | .regSeal path _ => okPath path
  | .spareRetire path cluster pcore => okPath path && okCluster cluster && okPcore pcore
  | .spareClearList path => okPath path
  | .seatRetrain path seat => okPath path && okSeat seat
  | .policerEnableWrite path _ _ => okPath path
  | .weightReserveWrite path die _ => okPath path && okHalf die
  | .rcRead path _ => okPath path
  | .registerWrite path _ _ _ => okPath path
  | .smbusRegisterWrite x _ => okAddr7 x.target
  | .smbusReadRequest x _ => okAddr7 x.target
  | .smbusReadResult => true
  | .jtagIdcode => true
  | .jtagSamplePreload _ => true
  | .jtagExtest _ => true
  | .jtagRegAccess _ => true
  | .jtagCoreDebug core _ => decide (core < 16)
  | .jtagScan _ => true
  | .jtagBypass _ => true
  | .trainingFailed seat => okSeat seat
  | .resetNDeassert => true
  | .nodeResetRelease => true
  | .refclkSysReturn => true
  | .seatRefclkReturn ref => okHalf ref
  | .discoveryAnswer seat _ => okSeat seat
  | .dirQuietWindowEnd half tenant stream => okHalf half && okSlot tenant && okStream stream
  | .i3cDynamicAddress addr => decide (addr < 128)

/-- The seats a command names. -/
def Instr.seats (i : Instr) : List Nat :=
  match i with
  | .powerGood _ => []
  | .pwrgdLow => []
  | .resetNAssert => []
  | .firmwareVerified _ => []
  | .memoryTrainingDone => []
  | .nodePlaceable _ => []
  | .nodeReset _ => []
  | .controlReset _ => []
  | .controlResetDone => []
  | .sagWarning _ _ _ => []
  | .sagRelease => []
  | .sagReset _ => []
  | .avsTargetChange => []
  | .avsTargetSettled => []
  | .avsFault _ => []
  | .monitorSample _ _ _ => []
  | .thermalThrottleEnd _ _ => []
  | .watchdogTrip _ _ => []
  | .wdogHoldExpiry => []
  | .dieLinkLost => []
  | .refclkSysLost => []
  | .refclkHoldExpiry => []
  | .seatRefclkLost _ => []
  | .trustEpochDisagree => []
  | .canaryScheduled _ => []
  | .canaryFastPeriodEnd _ _ => []
  | .spareSubstitution _ _ _ => []
  | .coreDrainDegrade _ _ => []
  | .healthDecay => []
  | .programMessage seat _ _ => [seat]
  | .contextTake _ => []
  | .deadlinePasses _ => []
  | .commitStart _ => []
  | .commitPoint _ => []
  | .commitApplyEnd _ => []
  | .fence _ => []
  | .wait _ => []
  | .emit _ => []
  | .ledgerRd _ => []
  | .tileAppend _ => []
  | .tileSeal _ => []
  | .runSplice _ => []
  | .runDrop _ => []
  | .moveWload _ => []
  | .moveWfetch _ => []
  | .moveWdrop _ => []
  | .prefetch _ => []
  | .keyAdmit _ => []
  | .keyRotate _ => []
  | .keyStageAck _ _ => []
  | .keyRemove _ => []
  | .keyStatus _ => []
  | .tenantReclaim _ => []
  | .reencObject _ _ _ => []
  | .keyRetire _ => []
  | .regRd _ => []
  | .regWr _ => []
  | .canary _ _ => []
  | .scrub _ => []
  | .scrubPassStart _ _ => []
  | .scrubPassEnd _ => []
  | .attDec _ => []
  | .attPre _ => []
  | .attBwd _ => []
  | .attMerge _ => []
  | .projKv _ => []
  | .projKvGradient _ => []
  | .mm _ => []
  | .nbEw _ => []
  | .nbRope _ => []
  | .nbQuant _ => []
  | .nbAdam _ => []
  | .plyIssue _ _ _ => []
  | .plyComplete _ => []
  | .prefetchProtectExpiry _ => []
  | .dirLookup _ _ _ _ _ _ => []
  | .dirLookupRepeat _ _ => []
  | .dirStagingRequest _ => []
  | .dirStage _ => []
  | .dirSpreadingPass _ => []
  | .readsDrained _ => []
  | .t2CopyStart _ => []
  | .t2CopyTimeout _ _ => []
  | .eviction _ => []
  | .interDieMove _ => []
  | .fetchAttemptTimeout _ => []
  | .fetchRetryRound _ => []
  | .migrationCondition _ _ _ _ => []
  | .migrationAnswerTimeout _ _ => []
  | .migrationWithdraw _ _ => []
  | .nbSeqStart _ _ => []
  | .nbRowStepEnd _ _ _ _ => []
  | .refreshDue _ _ => []
  | .pass1End _ _ => []
  | .refreshComplete _ _ => []
  | .nbSeqFinal _ _ => []
  | .nbPollRead => []
  | .eccEventIntervalEnd => []
  | .sramUncorrectable _ => []
  | .seatEnable seat => [seat]
  | .trainingComplete seat => [seat]
  | .trainingRetry seat => [seat]
  | .linkLoss seat => [seat]
  | .helloTimer seat => [seat]
  | .hello seat _ => [seat]
  | .keepaliveTimer seat => [seat]
  | .keepalive seat _ => [seat]
  | .partnerLost seat => [seat]
  | .pfcFrame seat _ => [seat]
  | .dataFrame seat _ => [seat]
  | .ackFrame seat _ => [seat]
  | .ackTimer _ => []
  | .rtoExpiry _ => []
  | .peerUnreachable _ => []
  | .rateIncrease _ => []
  | .forwardFrame seat _ => [seat]
  | .egressFrameStart seat => [seat]
  | .boardWrite seat _ _ => [seat]
  | .boardCommit seat _ _ => [seat]
  | .boardAbort seat _ _ => [seat]
  | .boardGraceEnd => []
  | .discoveryProbe seat _ => [seat]
  | .discoveryAssign seat _ => [seat]
  | .tierPut _ _ => []
  | .tierPutAck _ _ => []
  | .tierGet _ _ => []
  | .tierData _ _ => []
  | .tierRelease _ _ => []
  | .tierReleaseAck _ _ => []
  | .migrationOffer _ _ => []
  | .migrationAnswer _ _ => []
  | .tailOffer _ _ => []
  | .tailOfferKeepExpiry _ _ => []
  | .handoverFetchDone _ _ => []
  | .tailAck _ _ => []
  | .tailAsk _ _ => []
  | .tailRefuse _ _ => []
  | .awaitingTimeout _ _ => []
  | .stallEnd _ _ => []
  | .reclaimTimeout _ _ => []
  | .copyAsk _ _ => []
  | .digestSend => []
  | .digest _ _ => []
  | .digestUnpairedExpiry _ _ _ => []
  | .spdmGetVersion _ => []
  | .spdmGetCapabilities _ => []
  | .spdmNegotiateAlgorithms _ => []
  | .spdmGetMeasurements _ => []
  | .spdmUnsupported _ => []
  | .ctlResetWrite _ => []
  | .nodeResetWrite _ => []
  | .scanUnlock _ => []
  | .regSeal _ _ => []
  | .spareRetire _ _ _ => []
  | .spareClearList _ => []
  | .seatRetrain _ seat => [seat]
  | .policerEnableWrite _ _ _ => []
  | .weightReserveWrite _ _ _ => []
  | .rcRead _ _ => []
  | .registerWrite _ _ _ _ => []
  | .smbusRegisterWrite _ _ => []
  | .smbusReadRequest _ _ => []
  | .smbusReadResult => []
  | .jtagIdcode => []
  | .jtagSamplePreload _ => []
  | .jtagExtest _ => []
  | .jtagRegAccess _ => []
  | .jtagCoreDebug _ _ => []
  | .jtagScan _ => []
  | .jtagBypass _ => []
  | .trainingFailed seat => [seat]
  | .resetNDeassert => []
  | .nodeResetRelease => []
  | .refclkSysReturn => []
  | .seatRefclkReturn _ => []
  | .discoveryAnswer seat _ => [seat]
  | .dirQuietWindowEnd _ _ _ => []
  | .i3cDynamicAddress _ => []

/-- The contexts a command names as those of an instruction. -/
def Instr.contexts (i : Instr) : List Nat :=
  match i with
  | .powerGood _ => []
  | .pwrgdLow => []
  | .resetNAssert => []
  | .firmwareVerified _ => []
  | .memoryTrainingDone => []
  | .nodePlaceable _ => []
  | .nodeReset _ => []
  | .controlReset _ => []
  | .controlResetDone => []
  | .sagWarning _ _ _ => []
  | .sagRelease => []
  | .sagReset _ => []
  | .avsTargetChange => []
  | .avsTargetSettled => []
  | .avsFault _ => []
  | .monitorSample _ _ _ => []
  | .thermalThrottleEnd _ _ => []
  | .watchdogTrip _ _ => []
  | .wdogHoldExpiry => []
  | .dieLinkLost => []
  | .refclkSysLost => []
  | .refclkHoldExpiry => []
  | .seatRefclkLost _ => []
  | .trustEpochDisagree => []
  | .canaryScheduled _ => []
  | .canaryFastPeriodEnd _ _ => []
  | .spareSubstitution _ _ _ => []
  | .coreDrainDegrade _ _ => []
  | .healthDecay => []
  | .programMessage _ _ _ => []
  | .contextTake _ => []
  | .deadlinePasses _ => []
  | .commitStart ctx => [ctx]
  | .commitPoint ctx => [ctx]
  | .commitApplyEnd ctx => [ctx]
  | .fence ctx => [ctx]
  | .wait ctx => [ctx]
  | .emit ctx => [ctx]
  | .ledgerRd ctx => [ctx]
  | .tileAppend ctx => [ctx]
  | .tileSeal ctx => [ctx]
  | .runSplice ctx => [ctx]
  | .runDrop ctx => [ctx]
  | .moveWload ctx => [ctx]
  | .moveWfetch ctx => [ctx]
  | .moveWdrop ctx => [ctx]
  | .prefetch ctx => [ctx]
  | .keyAdmit ctx => [ctx]
  | .keyRotate ctx => [ctx]
  | .keyStageAck ctx _ => [ctx]
  | .keyRemove ctx => [ctx]
  | .keyStatus ctx => [ctx]
  | .tenantReclaim _ => []
  | .reencObject _ _ _ => []
  | .keyRetire _ => []
  | .regRd ctx => [ctx]
  | .regWr ctx => [ctx]
  | .canary ctx _ => [ctx]
  | .scrub ctx => [ctx]
  | .scrubPassStart _ _ => []
  | .scrubPassEnd _ => []
  | .attDec ctx => [ctx]
  | .attPre ctx => [ctx]
  | .attBwd ctx => [ctx]
  | .attMerge ctx => [ctx]
  | .projKv ctx => [ctx]
  | .projKvGradient ctx => [ctx]
  | .mm ctx => [ctx]
  | .nbEw ctx => [ctx]
  | .nbRope ctx => [ctx]
  | .nbQuant ctx => [ctx]
  | .nbAdam ctx => [ctx]
  | .plyIssue _ _ _ => []
  | .plyComplete _ => []
  | .prefetchProtectExpiry _ => []
  | .dirLookup _ _ _ _ _ _ => []
  | .dirLookupRepeat _ _ => []
  | .dirStagingRequest _ => []
  | .dirStage _ => []
  | .dirSpreadingPass _ => []
  | .readsDrained _ => []
  | .t2CopyStart _ => []
  | .t2CopyTimeout _ _ => []
  | .eviction _ => []
  | .interDieMove _ => []
  | .fetchAttemptTimeout _ => []
  | .fetchRetryRound _ => []
  | .migrationCondition _ _ _ _ => []
  | .migrationAnswerTimeout _ _ => []
  | .migrationWithdraw _ _ => []
  | .nbSeqStart _ _ => []
  | .nbRowStepEnd _ _ _ _ => []
  | .refreshDue _ _ => []
  | .pass1End _ _ => []
  | .refreshComplete _ _ => []
  | .nbSeqFinal _ _ => []
  | .nbPollRead => []
  | .eccEventIntervalEnd => []
  | .sramUncorrectable _ => []
  | .seatEnable _ => []
  | .trainingComplete _ => []
  | .trainingRetry _ => []
  | .linkLoss _ => []
  | .helloTimer _ => []
  | .hello _ _ => []
  | .keepaliveTimer _ => []
  | .keepalive _ _ => []
  | .partnerLost _ => []
  | .pfcFrame _ _ => []
  | .dataFrame _ _ => []
  | .ackFrame _ _ => []
  | .ackTimer _ => []
  | .rtoExpiry _ => []
  | .peerUnreachable _ => []
  | .rateIncrease _ => []
  | .forwardFrame _ _ => []
  | .egressFrameStart _ => []
  | .boardWrite _ _ _ => []
  | .boardCommit _ _ _ => []
  | .boardAbort _ _ _ => []
  | .boardGraceEnd => []
  | .discoveryProbe _ _ => []
  | .discoveryAssign _ _ => []
  | .tierPut _ _ => []
  | .tierPutAck _ _ => []
  | .tierGet _ _ => []
  | .tierData _ _ => []
  | .tierRelease _ _ => []
  | .tierReleaseAck _ _ => []
  | .migrationOffer _ _ => []
  | .migrationAnswer _ _ => []
  | .tailOffer _ _ => []
  | .tailOfferKeepExpiry _ _ => []
  | .handoverFetchDone _ _ => []
  | .tailAck _ _ => []
  | .tailAsk _ _ => []
  | .tailRefuse _ _ => []
  | .awaitingTimeout _ _ => []
  | .stallEnd _ _ => []
  | .reclaimTimeout _ _ => []
  | .copyAsk _ _ => []
  | .digestSend => []
  | .digest _ _ => []
  | .digestUnpairedExpiry _ _ _ => []
  | .spdmGetVersion _ => []
  | .spdmGetCapabilities _ => []
  | .spdmNegotiateAlgorithms _ => []
  | .spdmGetMeasurements _ => []
  | .spdmUnsupported _ => []
  | .ctlResetWrite _ => []
  | .nodeResetWrite _ => []
  | .scanUnlock _ => []
  | .regSeal _ _ => []
  | .spareRetire _ _ _ => []
  | .spareClearList _ => []
  | .seatRetrain _ _ => []
  | .policerEnableWrite _ _ _ => []
  | .weightReserveWrite _ _ _ => []
  | .rcRead _ _ => []
  | .registerWrite _ _ _ _ => []
  | .smbusRegisterWrite _ _ => []
  | .smbusReadRequest _ _ => []
  | .smbusReadResult => []
  | .jtagIdcode => []
  | .jtagSamplePreload _ => []
  | .jtagExtest _ => []
  | .jtagRegAccess _ => []
  | .jtagCoreDebug _ _ => []
  | .jtagScan _ => []
  | .jtagBypass _ => []
  | .trainingFailed _ => []
  | .resetNDeassert => []
  | .nodeResetRelease => []
  | .refclkSysReturn => []
  | .seatRefclkReturn _ => []
  | .discoveryAnswer _ _ => []
  | .dirQuietWindowEnd _ _ _ => []
  | .i3cDynamicAddress _ => []

/-- The tenant slots a command names. -/
def Instr.slots (i : Instr) : List Nat :=
  match i with
  | .powerGood _ => []
  | .pwrgdLow => []
  | .resetNAssert => []
  | .firmwareVerified _ => []
  | .memoryTrainingDone => []
  | .nodePlaceable _ => []
  | .nodeReset _ => []
  | .controlReset _ => []
  | .controlResetDone => []
  | .sagWarning _ _ _ => []
  | .sagRelease => []
  | .sagReset _ => []
  | .avsTargetChange => []
  | .avsTargetSettled => []
  | .avsFault _ => []
  | .monitorSample _ _ _ => []
  | .thermalThrottleEnd _ _ => []
  | .watchdogTrip _ _ => []
  | .wdogHoldExpiry => []
  | .dieLinkLost => []
  | .refclkSysLost => []
  | .refclkHoldExpiry => []
  | .seatRefclkLost _ => []
  | .trustEpochDisagree => []
  | .canaryScheduled _ => []
  | .canaryFastPeriodEnd _ _ => []
  | .spareSubstitution _ _ _ => []
  | .coreDrainDegrade _ _ => []
  | .healthDecay => []
  | .programMessage _ _ _ => []
  | .contextTake _ => []
  | .deadlinePasses _ => []
  | .commitStart _ => []
  | .commitPoint _ => []
  | .commitApplyEnd _ => []
  | .fence _ => []
  | .wait _ => []
  | .emit _ => []
  | .ledgerRd _ => []
  | .tileAppend _ => []
  | .tileSeal _ => []
  | .runSplice _ => []
  | .runDrop _ => []
  | .moveWload _ => []
  | .moveWfetch _ => []
  | .moveWdrop _ => []
  | .prefetch _ => []
  | .keyAdmit _ => []
  | .keyRotate _ => []
  | .keyStageAck _ _ => []
  | .keyRemove _ => []
  | .keyStatus _ => []
  | .tenantReclaim slot => [slot]
  | .reencObject slot _ _ => [slot]
  | .keyRetire slot => [slot]
  | .regRd _ => []
  | .regWr _ => []
  | .canary _ _ => []
  | .scrub _ => []
  | .scrubPassStart _ _ => []
  | .scrubPassEnd _ => []
  | .attDec _ => []
  | .attPre _ => []
  | .attBwd _ => []
  | .attMerge _ => []
  | .projKv _ => []
  | .projKvGradient _ => []
  | .mm _ => []
  | .nbEw _ => []
  | .nbRope _ => []
  | .nbQuant _ => []
  | .nbAdam _ => []
  | .plyIssue _ _ _ => []
  | .plyComplete _ => []
  | .prefetchProtectExpiry _ => []
  | .dirLookup _ _ tenant _ _ _ => [tenant]
  | .dirLookupRepeat _ _ => []
  | .dirStagingRequest _ => []
  | .dirStage _ => []
  | .dirSpreadingPass _ => []
  | .readsDrained _ => []
  | .t2CopyStart _ => []
  | .t2CopyTimeout _ _ => []
  | .eviction _ => []
  | .interDieMove _ => []
  | .fetchAttemptTimeout _ => []
  | .fetchRetryRound _ => []
  | .migrationCondition _ tenant _ _ => [tenant]
  | .migrationAnswerTimeout tenant _ => [tenant]
  | .migrationWithdraw tenant _ => [tenant]
  | .nbSeqStart _ _ => []
  | .nbRowStepEnd _ _ _ _ => []
  | .refreshDue _ _ => []
  | .pass1End _ _ => []
  | .refreshComplete _ _ => []
  | .nbSeqFinal _ _ => []
  | .nbPollRead => []
  | .eccEventIntervalEnd => []
  | .sramUncorrectable _ => []
  | .seatEnable _ => []
  | .trainingComplete _ => []
  | .trainingRetry _ => []
  | .linkLoss _ => []
  | .helloTimer _ => []
  | .hello _ _ => []
  | .keepaliveTimer _ => []
  | .keepalive _ _ => []
  | .partnerLost _ => []
  | .pfcFrame _ _ => []
  | .dataFrame _ _ => []
  | .ackFrame _ _ => []
  | .ackTimer _ => []
  | .rtoExpiry _ => []
  | .peerUnreachable _ => []
  | .rateIncrease _ => []
  | .forwardFrame _ _ => []
  | .egressFrameStart _ => []
  | .boardWrite _ _ _ => []
  | .boardCommit _ _ _ => []
  | .boardAbort _ _ _ => []
  | .boardGraceEnd => []
  | .discoveryProbe _ _ => []
  | .discoveryAssign _ _ => []
  | .tierPut _ _ => []
  | .tierPutAck _ _ => []
  | .tierGet _ _ => []
  | .tierData _ _ => []
  | .tierRelease _ _ => []
  | .tierReleaseAck _ _ => []
  | .migrationOffer _ _ => []
  | .migrationAnswer _ _ => []
  | .tailOffer _ _ => []
  | .tailOfferKeepExpiry tenant _ => [tenant]
  | .handoverFetchDone tenant _ => [tenant]
  | .tailAck _ _ => []
  | .tailAsk _ _ => []
  | .tailRefuse _ _ => []
  | .awaitingTimeout tenant _ => [tenant]
  | .stallEnd tenant _ => [tenant]
  | .reclaimTimeout tenant _ => [tenant]
  | .copyAsk _ _ => []
  | .digestSend => []
  | .digest _ _ => []
  | .digestUnpairedExpiry tenant _ _ => [tenant]
  | .spdmGetVersion _ => []
  | .spdmGetCapabilities _ => []
  | .spdmNegotiateAlgorithms _ => []
  | .spdmGetMeasurements _ => []
  | .spdmUnsupported _ => []
  | .ctlResetWrite _ => []
  | .nodeResetWrite _ => []
  | .scanUnlock _ => []
  | .regSeal _ _ => []
  | .spareRetire _ _ _ => []
  | .spareClearList _ => []
  | .seatRetrain _ _ => []
  | .policerEnableWrite _ _ _ => []
  | .weightReserveWrite _ _ _ => []
  | .rcRead _ _ => []
  | .registerWrite _ _ _ _ => []
  | .smbusRegisterWrite _ _ => []
  | .smbusReadRequest _ _ => []
  | .smbusReadResult => []
  | .jtagIdcode => []
  | .jtagSamplePreload _ => []
  | .jtagExtest _ => []
  | .jtagRegAccess _ => []
  | .jtagCoreDebug _ _ => []
  | .jtagScan _ => []
  | .jtagBypass _ => []
  | .trainingFailed _ => []
  | .resetNDeassert => []
  | .nodeResetRelease => []
  | .refclkSysReturn => []
  | .seatRefclkReturn _ => []
  | .discoveryAnswer _ _ => []
  | .dirQuietWindowEnd _ tenant _ => [tenant]
  | .i3cDynamicAddress _ => []

/-- The node IDs a command names. -/
def Instr.nodes (i : Instr) : List Nat :=
  match i with
  | .powerGood _ => []
  | .pwrgdLow => []
  | .resetNAssert => []
  | .firmwareVerified _ => []
  | .memoryTrainingDone => []
  | .nodePlaceable _ => []
  | .nodeReset _ => []
  | .controlReset _ => []
  | .controlResetDone => []
  | .sagWarning _ _ _ => []
  | .sagRelease => []
  | .sagReset _ => []
  | .avsTargetChange => []
  | .avsTargetSettled => []
  | .avsFault _ => []
  | .monitorSample _ _ _ => []
  | .thermalThrottleEnd _ _ => []
  | .watchdogTrip _ _ => []
  | .wdogHoldExpiry => []
  | .dieLinkLost => []
  | .refclkSysLost => []
  | .refclkHoldExpiry => []
  | .seatRefclkLost _ => []
  | .trustEpochDisagree => []
  | .canaryScheduled _ => []
  | .canaryFastPeriodEnd _ _ => []
  | .spareSubstitution _ _ _ => []
  | .coreDrainDegrade _ _ => []
  | .healthDecay => []
  | .programMessage _ node _ => [node]
  | .contextTake _ => []
  | .deadlinePasses _ => []
  | .commitStart _ => []
  | .commitPoint _ => []
  | .commitApplyEnd _ => []
  | .fence _ => []
  | .wait _ => []
  | .emit _ => []
  | .ledgerRd _ => []
  | .tileAppend _ => []
  | .tileSeal _ => []
  | .runSplice _ => []
  | .runDrop _ => []
  | .moveWload _ => []
  | .moveWfetch _ => []
  | .moveWdrop _ => []
  | .prefetch _ => []
  | .keyAdmit _ => []
  | .keyRotate _ => []
  | .keyStageAck _ _ => []
  | .keyRemove _ => []
  | .keyStatus _ => []
  | .tenantReclaim _ => []
  | .reencObject _ _ _ => []
  | .keyRetire _ => []
  | .regRd _ => []
  | .regWr _ => []
  | .canary _ _ => []
  | .scrub _ => []
  | .scrubPassStart _ _ => []
  | .scrubPassEnd _ => []
  | .attDec _ => []
  | .attPre _ => []
  | .attBwd _ => []
  | .attMerge _ => []
  | .projKv _ => []
  | .projKvGradient _ => []
  | .mm _ => []
  | .nbEw _ => []
  | .nbRope _ => []
  | .nbQuant _ => []
  | .nbAdam _ => []
  | .plyIssue _ _ _ => []
  | .plyComplete _ => []
  | .prefetchProtectExpiry _ => []
  | .dirLookup _ _ _ _ _ _ => []
  | .dirLookupRepeat _ _ => []
  | .dirStagingRequest _ => []
  | .dirStage _ => []
  | .dirSpreadingPass _ => []
  | .readsDrained _ => []
  | .t2CopyStart _ => []
  | .t2CopyTimeout _ target => [target]
  | .eviction _ => []
  | .interDieMove _ => []
  | .fetchAttemptTimeout _ => []
  | .fetchRetryRound _ => []
  | .migrationCondition _ _ _ target => [target]
  | .migrationAnswerTimeout _ _ => []
  | .migrationWithdraw _ _ => []
  | .nbSeqStart _ _ => []
  | .nbRowStepEnd _ _ _ _ => []
  | .refreshDue _ _ => []
  | .pass1End _ _ => []
  | .refreshComplete _ _ => []
  | .nbSeqFinal _ _ => []
  | .nbPollRead => []
  | .eccEventIntervalEnd => []
  | .sramUncorrectable _ => []
  | .seatEnable _ => []
  | .trainingComplete _ => []
  | .trainingRetry _ => []
  | .linkLoss _ => []
  | .helloTimer _ => []
  | .hello _ _ => []
  | .keepaliveTimer _ => []
  | .keepalive _ _ => []
  | .partnerLost _ => []
  | .pfcFrame _ _ => []
  | .dataFrame _ _ => []
  | .ackFrame _ _ => []
  | .ackTimer _ => []
  | .rtoExpiry _ => []
  | .peerUnreachable _ => []
  | .rateIncrease _ => []
  | .forwardFrame _ _ => []
  | .egressFrameStart _ => []
  | .boardWrite _ node _ => [node]
  | .boardCommit _ node _ => [node]
  | .boardAbort _ node _ => [node]
  | .boardGraceEnd => []
  | .discoveryProbe _ _ => []
  | .discoveryAssign _ _ => []
  | .tierPut node _ => [node]
  | .tierPutAck node _ => [node]
  | .tierGet node _ => [node]
  | .tierData node _ => [node]
  | .tierRelease node _ => [node]
  | .tierReleaseAck node _ => [node]
  | .migrationOffer node _ => [node]
  | .migrationAnswer node _ => [node]
  | .tailOffer node _ => [node]
  | .tailOfferKeepExpiry _ _ => []
  | .handoverFetchDone _ _ => []
  | .tailAck node _ => [node]
  | .tailAsk node _ => [node]
  | .tailRefuse node _ => [node]
  | .awaitingTimeout _ _ => []
  | .stallEnd _ _ => []
  | .reclaimTimeout _ _ => []
  | .copyAsk node _ => [node]
  | .digestSend => []
  | .digest node _ => [node]
  | .digestUnpairedExpiry _ _ _ => []
  | .spdmGetVersion _ => []
  | .spdmGetCapabilities _ => []
  | .spdmNegotiateAlgorithms _ => []
  | .spdmGetMeasurements _ => []
  | .spdmUnsupported _ => []
  | .ctlResetWrite _ => []
  | .nodeResetWrite _ => []
  | .scanUnlock _ => []
  | .regSeal _ _ => []
  | .spareRetire _ _ _ => []
  | .spareClearList _ => []
  | .seatRetrain _ _ => []
  | .policerEnableWrite _ _ _ => []
  | .weightReserveWrite _ _ _ => []
  | .rcRead _ _ => []
  | .registerWrite _ _ _ _ => []
  | .smbusRegisterWrite _ _ => []
  | .smbusReadRequest _ _ => []
  | .smbusReadResult => []
  | .jtagIdcode => []
  | .jtagSamplePreload _ => []
  | .jtagExtest _ => []
  | .jtagRegAccess _ => []
  | .jtagCoreDebug _ _ => []
  | .jtagScan _ => []
  | .jtagBypass _ => []
  | .trainingFailed _ => []
  | .resetNDeassert => []
  | .nodeResetRelease => []
  | .refclkSysReturn => []
  | .seatRefclkReturn _ => []
  | .discoveryAnswer _ _ => []
  | .dirQuietWindowEnd _ _ _ => []
  | .i3cDynamicAddress _ => []

end Sys2Proof
end

