-- ==== Sys2Proof/Laws/PerInstr.lean ====
section
/-! SUPPORT. One lemma for each command: a well-formed command names only seats, contexts, tenant slots and node IDs that exist. -/

namespace Sys2Proof.Laws.Shape
open Sys2Proof

/-- What a well-formed command names exists. -/
def Statement (i : Instr) : Prop :=
  i.wf = true → (∀ n ∈ i.seats, n < 6) ∧ (∀ n ∈ i.contexts, n < 1024) ∧ (∀ n ∈ i.slots, n < 4096) ∧ (∀ n ∈ i.nodes, n < 65536)

theorem named_none (k : Nat) : ∀ n ∈ ([] : List Nat), n < k := fun _ h => nomatch h

theorem named_one {k n : Nat} (h : decide (n < k) = true) : ∀ m ∈ [n], m < k := fun _ hm =>
  List.eq_of_mem_singleton hm ▸ of_decide_eq_true h

theorem first_holds {a b : Bool} (h : (a && b) = true) : a = true := (Bool.and_eq_true_iff.mp h).1

theorem second_holds {a b : Bool} (h : (a && b) = true) : b = true := (Bool.and_eq_true_iff.mp h).2

theorem powerGood (resetNLow : Bool) : Statement (.powerGood resetNLow) := fun _ => ⟨named_none _, named_none _, named_none _, named_none _⟩
theorem pwrgdLow : Statement .pwrgdLow := fun _ => ⟨named_none _, named_none _, named_none _, named_none _⟩
theorem resetNAssert : Statement .resetNAssert := fun _ => ⟨named_none _, named_none _, named_none _, named_none _⟩
theorem firmwareVerified (check : BootCheck) : Statement (.firmwareVerified check) := fun _ => ⟨named_none _, named_none _, named_none _, named_none _⟩
theorem memoryTrainingDone : Statement .memoryTrainingDone := fun _ => ⟨named_none _, named_none _, named_none _, named_none _⟩
theorem nodePlaceable (runs : List CanaryRun) : Statement (.nodePlaceable runs) := fun _ => ⟨named_none _, named_none _, named_none _, named_none _⟩
theorem nodeReset (cause : Nat) : Statement (.nodeReset cause) := fun _ => ⟨named_none _, named_none _, named_none _, named_none _⟩
theorem controlReset (cause : Nat) : Statement (.controlReset cause) := fun _ => ⟨named_none _, named_none _, named_none _, named_none _⟩
theorem controlResetDone : Statement .controlResetDone := fun _ => ⟨named_none _, named_none _, named_none _, named_none _⟩
theorem sagWarning (index : Nat) (value : Nat) (durationNs : Nat) : Statement (.sagWarning index value durationNs) := fun _ => ⟨named_none _, named_none _, named_none _, named_none _⟩
theorem sagRelease : Statement .sagRelease := fun _ => ⟨named_none _, named_none _, named_none _, named_none _⟩
theorem sagReset (r : Reading) : Statement (.sagReset r) := fun _ => ⟨named_none _, named_none _, named_none _, named_none _⟩
theorem avsTargetChange : Statement .avsTargetChange := fun _ => ⟨named_none _, named_none _, named_none _, named_none _⟩
theorem avsTargetSettled : Statement .avsTargetSettled := fun _ => ⟨named_none _, named_none _, named_none _, named_none _⟩
theorem avsFault (status : Nat) : Statement (.avsFault status) := fun _ => ⟨named_none _, named_none _, named_none _, named_none _⟩
theorem monitorSample (kind : Nat) (index : Nat) (value : Nat) : Statement (.monitorSample kind index value) := fun _ => ⟨named_none _, named_none _, named_none _, named_none _⟩
theorem thermalThrottleEnd (kind : Nat) (index : Nat) : Statement (.thermalThrottleEnd kind index) := fun _ => ⟨named_none _, named_none _, named_none _, named_none _⟩
theorem watchdogTrip (die : Nat) (core : Nat) : Statement (.watchdogTrip die core) := fun _ => ⟨named_none _, named_none _, named_none _, named_none _⟩
theorem wdogHoldExpiry : Statement .wdogHoldExpiry := fun _ => ⟨named_none _, named_none _, named_none _, named_none _⟩
theorem dieLinkLost : Statement .dieLinkLost := fun _ => ⟨named_none _, named_none _, named_none _, named_none _⟩
theorem refclkSysLost : Statement .refclkSysLost := fun _ => ⟨named_none _, named_none _, named_none _, named_none _⟩
theorem refclkHoldExpiry : Statement .refclkHoldExpiry := fun _ => ⟨named_none _, named_none _, named_none _, named_none _⟩
theorem seatRefclkLost (ref : Nat) : Statement (.seatRefclkLost ref) := fun _ => ⟨named_none _, named_none _, named_none _, named_none _⟩
theorem trustEpochDisagree : Statement .trustEpochDisagree := fun _ => ⟨named_none _, named_none _, named_none _, named_none _⟩
theorem canaryScheduled (run : CanaryRun) : Statement (.canaryScheduled run) := fun _ => ⟨named_none _, named_none _, named_none _, named_none _⟩
theorem canaryFastPeriodEnd (cluster : Nat) (pcore : Nat) : Statement (.canaryFastPeriodEnd cluster pcore) := fun _ => ⟨named_none _, named_none _, named_none _, named_none _⟩
theorem spareSubstitution (cluster : Nat) (pcore : Nat) (switchNs : Nat) : Statement (.spareSubstitution cluster pcore switchNs) := fun _ => ⟨named_none _, named_none _, named_none _, named_none _⟩
theorem coreDrainDegrade (cluster : Nat) (pcore : Nat) : Statement (.coreDrainDegrade cluster pcore) := fun _ => ⟨named_none _, named_none _, named_none _, named_none _⟩
theorem healthDecay : Statement .healthDecay := fun _ => ⟨named_none _, named_none _, named_none _, named_none _⟩
theorem programMessage (seat : Nat) (node : Nat) (bytes : List Byte) : Statement (.programMessage seat node bytes) := fun h => ⟨named_one (first_holds h), named_none _, named_none _, named_one (second_holds h)⟩
theorem contextTake (die : Nat) : Statement (.contextTake die) := fun _ => ⟨named_none _, named_none _, named_none _, named_none _⟩
theorem deadlinePasses (lsn : Nat) : Statement (.deadlinePasses lsn) := fun _ => ⟨named_none _, named_none _, named_none _, named_none _⟩
theorem commitStart (ctx : Nat) : Statement (.commitStart ctx) := fun h => ⟨named_none _, named_one h, named_none _, named_none _⟩
theorem commitPoint (ctx : Nat) : Statement (.commitPoint ctx) := fun h => ⟨named_none _, named_one h, named_none _, named_none _⟩
theorem commitApplyEnd (ctx : Nat) : Statement (.commitApplyEnd ctx) := fun h => ⟨named_none _, named_one h, named_none _, named_none _⟩
theorem fence (ctx : Nat) : Statement (.fence ctx) := fun h => ⟨named_none _, named_one h, named_none _, named_none _⟩
theorem wait (ctx : Nat) : Statement (.wait ctx) := fun h => ⟨named_none _, named_one h, named_none _, named_none _⟩
theorem emit (ctx : Nat) : Statement (.emit ctx) := fun h => ⟨named_none _, named_one h, named_none _, named_none _⟩
theorem ledgerRd (ctx : Nat) : Statement (.ledgerRd ctx) := fun h => ⟨named_none _, named_one h, named_none _, named_none _⟩
theorem tileAppend (ctx : Nat) : Statement (.tileAppend ctx) := fun h => ⟨named_none _, named_one h, named_none _, named_none _⟩
theorem tileSeal (ctx : Nat) : Statement (.tileSeal ctx) := fun h => ⟨named_none _, named_one h, named_none _, named_none _⟩
theorem runSplice (ctx : Nat) : Statement (.runSplice ctx) := fun h => ⟨named_none _, named_one h, named_none _, named_none _⟩
theorem runDrop (ctx : Nat) : Statement (.runDrop ctx) := fun h => ⟨named_none _, named_one h, named_none _, named_none _⟩
theorem moveWload (ctx : Nat) : Statement (.moveWload ctx) := fun h => ⟨named_none _, named_one h, named_none _, named_none _⟩
theorem moveWfetch (ctx : Nat) : Statement (.moveWfetch ctx) := fun h => ⟨named_none _, named_one h, named_none _, named_none _⟩
theorem moveWdrop (ctx : Nat) : Statement (.moveWdrop ctx) := fun h => ⟨named_none _, named_one h, named_none _, named_none _⟩
theorem prefetch (ctx : Nat) : Statement (.prefetch ctx) := fun h => ⟨named_none _, named_one h, named_none _, named_none _⟩
theorem keyAdmit (ctx : Nat) : Statement (.keyAdmit ctx) := fun h => ⟨named_none _, named_one h, named_none _, named_none _⟩
theorem keyRotate (ctx : Nat) : Statement (.keyRotate ctx) := fun h => ⟨named_none _, named_one h, named_none _, named_none _⟩
theorem keyStageAck (ctx : Nat) (step : Nat) : Statement (.keyStageAck ctx step) := fun h => ⟨named_none _, named_one (first_holds h), named_none _, named_none _⟩
theorem keyRemove (ctx : Nat) : Statement (.keyRemove ctx) := fun h => ⟨named_none _, named_one h, named_none _, named_none _⟩
theorem keyStatus (ctx : Nat) : Statement (.keyStatus ctx) := fun h => ⟨named_none _, named_one h, named_none _, named_none _⟩
theorem tenantReclaim (slot : Nat) : Statement (.tenantReclaim slot) := fun h => ⟨named_none _, named_none _, named_one h, named_none _⟩
theorem reencObject (slot : Nat) (die : Nat) (flips : List Machine.Flip) : Statement (.reencObject slot die flips) := fun h => ⟨named_none _, named_none _, named_one (first_holds h), named_none _⟩
theorem keyRetire (slot : Nat) : Statement (.keyRetire slot) := fun h => ⟨named_none _, named_none _, named_one h, named_none _⟩
theorem regRd (ctx : Nat) : Statement (.regRd ctx) := fun h => ⟨named_none _, named_one h, named_none _, named_none _⟩
theorem regWr (ctx : Nat) : Statement (.regWr ctx) := fun h => ⟨named_none _, named_one h, named_none _, named_none _⟩
theorem canary (ctx : Nat) (runs : List CanaryRun) : Statement (.canary ctx runs) := fun h => ⟨named_none _, named_one (first_holds h), named_none _, named_none _⟩
theorem scrub (ctx : Nat) : Statement (.scrub ctx) := fun h => ⟨named_none _, named_one h, named_none _, named_none _⟩
theorem scrubPassStart (die : Nat) (flips : List Machine.Flip) : Statement (.scrubPassStart die flips) := fun _ => ⟨named_none _, named_none _, named_none _, named_none _⟩
theorem scrubPassEnd (die : Nat) : Statement (.scrubPassEnd die) := fun _ => ⟨named_none _, named_none _, named_none _, named_none _⟩
theorem attDec (ctx : Nat) : Statement (.attDec ctx) := fun h => ⟨named_none _, named_one h, named_none _, named_none _⟩
theorem attPre (ctx : Nat) : Statement (.attPre ctx) := fun h => ⟨named_none _, named_one h, named_none _, named_none _⟩
theorem attBwd (ctx : Nat) : Statement (.attBwd ctx) := fun h => ⟨named_none _, named_one h, named_none _, named_none _⟩
theorem attMerge (ctx : Nat) : Statement (.attMerge ctx) := fun h => ⟨named_none _, named_one h, named_none _, named_none _⟩
theorem projKv (ctx : Nat) : Statement (.projKv ctx) := fun h => ⟨named_none _, named_one h, named_none _, named_none _⟩
theorem projKvGradient (ctx : Nat) : Statement (.projKvGradient ctx) := fun h => ⟨named_none _, named_one h, named_none _, named_none _⟩
theorem mm (ctx : Nat) : Statement (.mm ctx) := fun h => ⟨named_none _, named_one h, named_none _, named_none _⟩
theorem nbEw (ctx : Nat) : Statement (.nbEw ctx) := fun h => ⟨named_none _, named_one h, named_none _, named_none _⟩
theorem nbRope (ctx : Nat) : Statement (.nbRope ctx) := fun h => ⟨named_none _, named_one h, named_none _, named_none _⟩
theorem nbQuant (ctx : Nat) : Statement (.nbQuant ctx) := fun h => ⟨named_none _, named_one h, named_none _, named_none _⟩
theorem nbAdam (ctx : Nat) : Statement (.nbAdam ctx) := fun h => ⟨named_none _, named_one h, named_none _, named_none _⟩
theorem plyIssue (ply : Nat) (cores : List Nat) (flips : List Machine.Flip) : Statement (.plyIssue ply cores flips) := fun _ => ⟨named_none _, named_none _, named_none _, named_none _⟩
theorem plyComplete (ply : Nat) : Statement (.plyComplete ply) := fun _ => ⟨named_none _, named_none _, named_none _, named_none _⟩
theorem prefetchProtectExpiry (obj : Nat) : Statement (.prefetchProtectExpiry obj) := fun _ => ⟨named_none _, named_none _, named_none _, named_none _⟩
theorem dirLookup (half : Nat) (req : Nat) (tenant : Nat) (stream : Nat) (low : Nat) (high : Nat) : Statement (.dirLookup half req tenant stream low high) := fun h => ⟨named_none _, named_none _, named_one (second_holds (first_holds (first_holds (first_holds h)))), named_none _⟩
theorem dirLookupRepeat (half : Nat) (req : Nat) : Statement (.dirLookupRepeat half req) := fun _ => ⟨named_none _, named_none _, named_none _, named_none _⟩
theorem dirStagingRequest (half : Nat) : Statement (.dirStagingRequest half) := fun _ => ⟨named_none _, named_none _, named_none _, named_none _⟩
theorem dirStage (half : Nat) : Statement (.dirStage half) := fun _ => ⟨named_none _, named_none _, named_none _, named_none _⟩
theorem dirSpreadingPass (half : Nat) : Statement (.dirSpreadingPass half) := fun _ => ⟨named_none _, named_none _, named_none _, named_none _⟩
theorem readsDrained (drain : Nat) : Statement (.readsDrained drain) := fun _ => ⟨named_none _, named_none _, named_none _, named_none _⟩
theorem t2CopyStart (tile : Nat) : Statement (.t2CopyStart tile) := fun _ => ⟨named_none _, named_none _, named_none _, named_none _⟩
theorem t2CopyTimeout (tile : Nat) (target : Nat) : Statement (.t2CopyTimeout tile target) := fun h => ⟨named_none _, named_none _, named_none _, named_one h⟩
theorem eviction (die : Nat) : Statement (.eviction die) := fun _ => ⟨named_none _, named_none _, named_none _, named_none _⟩
theorem interDieMove (tile : Nat) : Statement (.interDieMove tile) := fun _ => ⟨named_none _, named_none _, named_none _, named_none _⟩
theorem fetchAttemptTimeout (obj : Nat) : Statement (.fetchAttemptTimeout obj) := fun _ => ⟨named_none _, named_none _, named_none _, named_none _⟩
theorem fetchRetryRound (obj : Nat) : Statement (.fetchRetryRound obj) := fun _ => ⟨named_none _, named_none _, named_none _, named_none _⟩
theorem migrationCondition (reason : Nat) (tenant : Nat) (stream : Nat) (target : Nat) : Statement (.migrationCondition reason tenant stream target) := fun h => ⟨named_none _, named_none _, named_one (second_holds (first_holds (first_holds h))), named_one (second_holds h)⟩
theorem migrationAnswerTimeout (tenant : Nat) (stream : Nat) : Statement (.migrationAnswerTimeout tenant stream) := fun h => ⟨named_none _, named_none _, named_one (first_holds h), named_none _⟩
theorem migrationWithdraw (tenant : Nat) (stream : Nat) : Statement (.migrationWithdraw tenant stream) := fun h => ⟨named_none _, named_none _, named_one (first_holds h), named_none _⟩
theorem nbSeqStart (stack : Nat) (unit : Nat) : Statement (.nbSeqStart stack unit) := fun _ => ⟨named_none _, named_none _, named_none _, named_none _⟩
theorem nbRowStepEnd (stack : Nat) (unit : Nat) (domains : Nat) (flips : List Machine.Flip) : Statement (.nbRowStepEnd stack unit domains flips) := fun _ => ⟨named_none _, named_none _, named_none _, named_none _⟩
theorem refreshDue (stack : Nat) (unit : Nat) : Statement (.refreshDue stack unit) := fun _ => ⟨named_none _, named_none _, named_none _, named_none _⟩
theorem pass1End (stack : Nat) (unit : Nat) : Statement (.pass1End stack unit) := fun _ => ⟨named_none _, named_none _, named_none _, named_none _⟩
theorem refreshComplete (stack : Nat) (unit : Nat) : Statement (.refreshComplete stack unit) := fun _ => ⟨named_none _, named_none _, named_none _, named_none _⟩
theorem nbSeqFinal (stack : Nat) (unit : Nat) : Statement (.nbSeqFinal stack unit) := fun _ => ⟨named_none _, named_none _, named_none _, named_none _⟩
theorem nbPollRead : Statement .nbPollRead := fun _ => ⟨named_none _, named_none _, named_none _, named_none _⟩
theorem eccEventIntervalEnd : Statement .eccEventIntervalEnd := fun _ => ⟨named_none _, named_none _, named_none _, named_none _⟩
theorem sramUncorrectable (place : SramPlace) : Statement (.sramUncorrectable place) := fun _ => ⟨named_none _, named_none _, named_none _, named_none _⟩
theorem seatEnable (seat : Nat) : Statement (.seatEnable seat) := fun h => ⟨named_one h, named_none _, named_none _, named_none _⟩
theorem trainingComplete (seat : Nat) : Statement (.trainingComplete seat) := fun h => ⟨named_one h, named_none _, named_none _, named_none _⟩
theorem trainingRetry (seat : Nat) : Statement (.trainingRetry seat) := fun h => ⟨named_one h, named_none _, named_none _, named_none _⟩
theorem linkLoss (seat : Nat) : Statement (.linkLoss seat) := fun h => ⟨named_one h, named_none _, named_none _, named_none _⟩
theorem helloTimer (seat : Nat) : Statement (.helloTimer seat) := fun h => ⟨named_one h, named_none _, named_none _, named_none _⟩
theorem hello (seat : Nat) (frame : Frame) : Statement (.hello seat frame) := fun h => ⟨named_one h, named_none _, named_none _, named_none _⟩
theorem keepaliveTimer (seat : Nat) : Statement (.keepaliveTimer seat) := fun h => ⟨named_one h, named_none _, named_none _, named_none _⟩
theorem keepalive (seat : Nat) (frame : Frame) : Statement (.keepalive seat frame) := fun h => ⟨named_one h, named_none _, named_none _, named_none _⟩
theorem partnerLost (seat : Nat) : Statement (.partnerLost seat) := fun h => ⟨named_one h, named_none _, named_none _, named_none _⟩
theorem pfcFrame (seat : Nat) (frame : Frame) : Statement (.pfcFrame seat frame) := fun h => ⟨named_one h, named_none _, named_none _, named_none _⟩
theorem dataFrame (seat : Nat) (frame : Frame) : Statement (.dataFrame seat frame) := fun h => ⟨named_one h, named_none _, named_none _, named_none _⟩
theorem ackFrame (seat : Nat) (frame : Frame) : Statement (.ackFrame seat frame) := fun h => ⟨named_one h, named_none _, named_none _, named_none _⟩
theorem ackTimer (peer : Nat) : Statement (.ackTimer peer) := fun _ => ⟨named_none _, named_none _, named_none _, named_none _⟩
theorem rtoExpiry (peer : Nat) : Statement (.rtoExpiry peer) := fun _ => ⟨named_none _, named_none _, named_none _, named_none _⟩
theorem peerUnreachable (peer : Nat) : Statement (.peerUnreachable peer) := fun _ => ⟨named_none _, named_none _, named_none _, named_none _⟩
theorem rateIncrease (peer : Nat) : Statement (.rateIncrease peer) := fun _ => ⟨named_none _, named_none _, named_none _, named_none _⟩
theorem forwardFrame (seat : Nat) (frame : Frame) : Statement (.forwardFrame seat frame) := fun h => ⟨named_one h, named_none _, named_none _, named_none _⟩
theorem egressFrameStart (seat : Nat) : Statement (.egressFrameStart seat) := fun h => ⟨named_one h, named_none _, named_none _, named_none _⟩
theorem boardWrite (seat : Nat) (node : Nat) (bytes : List Byte) : Statement (.boardWrite seat node bytes) := fun h => ⟨named_one (first_holds h), named_none _, named_none _, named_one (second_holds h)⟩
theorem boardCommit (seat : Nat) (node : Nat) (bytes : List Byte) : Statement (.boardCommit seat node bytes) := fun h => ⟨named_one (first_holds h), named_none _, named_none _, named_one (second_holds h)⟩
theorem boardAbort (seat : Nat) (node : Nat) (bytes : List Byte) : Statement (.boardAbort seat node bytes) := fun h => ⟨named_one (first_holds h), named_none _, named_none _, named_one (second_holds h)⟩
theorem boardGraceEnd : Statement .boardGraceEnd := fun _ => ⟨named_none _, named_none _, named_none _, named_none _⟩
theorem discoveryProbe (seat : Nat) (frame : Frame) : Statement (.discoveryProbe seat frame) := fun h => ⟨named_one h, named_none _, named_none _, named_none _⟩
theorem discoveryAssign (seat : Nat) (frame : Frame) : Statement (.discoveryAssign seat frame) := fun h => ⟨named_one h, named_none _, named_none _, named_none _⟩
theorem tierPut (node : Nat) (bytes : List Byte) : Statement (.tierPut node bytes) := fun h => ⟨named_none _, named_none _, named_none _, named_one h⟩
theorem tierPutAck (node : Nat) (bytes : List Byte) : Statement (.tierPutAck node bytes) := fun h => ⟨named_none _, named_none _, named_none _, named_one h⟩
theorem tierGet (node : Nat) (bytes : List Byte) : Statement (.tierGet node bytes) := fun h => ⟨named_none _, named_none _, named_none _, named_one h⟩
theorem tierData (node : Nat) (bytes : List Byte) : Statement (.tierData node bytes) := fun h => ⟨named_none _, named_none _, named_none _, named_one h⟩
theorem tierRelease (node : Nat) (bytes : List Byte) : Statement (.tierRelease node bytes) := fun h => ⟨named_none _, named_none _, named_none _, named_one h⟩
theorem tierReleaseAck (node : Nat) (bytes : List Byte) : Statement (.tierReleaseAck node bytes) := fun h => ⟨named_none _, named_none _, named_none _, named_one h⟩
theorem migrationOffer (node : Nat) (bytes : List Byte) : Statement (.migrationOffer node bytes) := fun h => ⟨named_none _, named_none _, named_none _, named_one h⟩
theorem migrationAnswer (node : Nat) (bytes : List Byte) : Statement (.migrationAnswer node bytes) := fun h => ⟨named_none _, named_none _, named_none _, named_one h⟩
theorem tailOffer (node : Nat) (bytes : List Byte) : Statement (.tailOffer node bytes) := fun h => ⟨named_none _, named_none _, named_none _, named_one h⟩
theorem tailOfferKeepExpiry (tenant : Nat) (stream : Nat) : Statement (.tailOfferKeepExpiry tenant stream) := fun h => ⟨named_none _, named_none _, named_one (first_holds h), named_none _⟩
theorem handoverFetchDone (tenant : Nat) (stream : Nat) : Statement (.handoverFetchDone tenant stream) := fun h => ⟨named_none _, named_none _, named_one (first_holds h), named_none _⟩
theorem tailAck (node : Nat) (bytes : List Byte) : Statement (.tailAck node bytes) := fun h => ⟨named_none _, named_none _, named_none _, named_one h⟩
theorem tailAsk (node : Nat) (bytes : List Byte) : Statement (.tailAsk node bytes) := fun h => ⟨named_none _, named_none _, named_none _, named_one h⟩
theorem tailRefuse (node : Nat) (bytes : List Byte) : Statement (.tailRefuse node bytes) := fun h => ⟨named_none _, named_none _, named_none _, named_one h⟩
theorem awaitingTimeout (tenant : Nat) (stream : Nat) : Statement (.awaitingTimeout tenant stream) := fun h => ⟨named_none _, named_none _, named_one (first_holds h), named_none _⟩
theorem stallEnd (tenant : Nat) (stream : Nat) : Statement (.stallEnd tenant stream) := fun h => ⟨named_none _, named_none _, named_one (first_holds h), named_none _⟩
theorem reclaimTimeout (tenant : Nat) (stream : Nat) : Statement (.reclaimTimeout tenant stream) := fun h => ⟨named_none _, named_none _, named_one (first_holds h), named_none _⟩
theorem copyAsk (node : Nat) (bytes : List Byte) : Statement (.copyAsk node bytes) := fun h => ⟨named_none _, named_none _, named_none _, named_one h⟩
theorem digestSend : Statement .digestSend := fun _ => ⟨named_none _, named_none _, named_none _, named_none _⟩
theorem digest (node : Nat) (bytes : List Byte) : Statement (.digest node bytes) := fun h => ⟨named_none _, named_none _, named_none _, named_one h⟩
theorem digestUnpairedExpiry (tenant : Nat) (program : Nat) (step : Nat) : Statement (.digestUnpairedExpiry tenant program step) := fun h => ⟨named_none _, named_none _, named_one (first_holds (first_holds h)), named_none _⟩
theorem spdmGetVersion (bytes : List Byte) : Statement (.spdmGetVersion bytes) := fun _ => ⟨named_none _, named_none _, named_none _, named_none _⟩
theorem spdmGetCapabilities (bytes : List Byte) : Statement (.spdmGetCapabilities bytes) := fun _ => ⟨named_none _, named_none _, named_none _, named_none _⟩
theorem spdmNegotiateAlgorithms (bytes : List Byte) : Statement (.spdmNegotiateAlgorithms bytes) := fun _ => ⟨named_none _, named_none _, named_none _, named_none _⟩
theorem spdmGetMeasurements (bytes : List Byte) : Statement (.spdmGetMeasurements bytes) := fun _ => ⟨named_none _, named_none _, named_none _, named_none _⟩
theorem spdmUnsupported (bytes : List Byte) : Statement (.spdmUnsupported bytes) := fun _ => ⟨named_none _, named_none _, named_none _, named_none _⟩
theorem ctlResetWrite (path : Path) : Statement (.ctlResetWrite path) := fun _ => ⟨named_none _, named_none _, named_none _, named_none _⟩
theorem nodeResetWrite (path : Path) : Statement (.nodeResetWrite path) := fun _ => ⟨named_none _, named_none _, named_none _, named_none _⟩
theorem scanUnlock (path : Path) : Statement (.scanUnlock path) := fun _ => ⟨named_none _, named_none _, named_none _, named_none _⟩
theorem regSeal (path : Path) (blocks : BitVec 12) : Statement (.regSeal path blocks) := fun _ => ⟨named_none _, named_none _, named_none _, named_none _⟩
theorem spareRetire (path : Path) (cluster : Nat) (pcore : Nat) : Statement (.spareRetire path cluster pcore) := fun _ => ⟨named_none _, named_none _, named_none _, named_none _⟩
theorem spareClearList (path : Path) : Statement (.spareClearList path) := fun _ => ⟨named_none _, named_none _, named_none _, named_none _⟩
theorem seatRetrain (path : Path) (seat : Nat) : Statement (.seatRetrain path seat) := fun h => ⟨named_one (second_holds h), named_none _, named_none _, named_none _⟩
theorem policerEnableWrite (path : Path) (transit : Bool) (word : W32) : Statement (.policerEnableWrite path transit word) := fun _ => ⟨named_none _, named_none _, named_none _, named_none _⟩
theorem weightReserveWrite (path : Path) (die : Nat) (bytes : W64) : Statement (.weightReserveWrite path die bytes) := fun _ => ⟨named_none _, named_none _, named_none _, named_none _⟩
theorem rcRead (path : Path) (addr : Nat) : Statement (.rcRead path addr) := fun _ => ⟨named_none _, named_none _, named_none _, named_none _⟩
theorem registerWrite (path : Path) (addr : Nat) (wide : Bool) (data : W64) : Statement (.registerWrite path addr wide data) := fun _ => ⟨named_none _, named_none _, named_none _, named_none _⟩
theorem smbusRegisterWrite (x : Xfer) (bytes : List Byte) : Statement (.smbusRegisterWrite x bytes) := fun _ => ⟨named_none _, named_none _, named_none _, named_none _⟩
theorem smbusReadRequest (x : Xfer) (bytes : List Byte) : Statement (.smbusReadRequest x bytes) := fun _ => ⟨named_none _, named_none _, named_none _, named_none _⟩
theorem smbusReadResult : Statement .smbusReadResult := fun _ => ⟨named_none _, named_none _, named_none _, named_none _⟩
theorem jtagIdcode : Statement .jtagIdcode := fun _ => ⟨named_none _, named_none _, named_none _, named_none _⟩
theorem jtagSamplePreload (bits : List Bool) : Statement (.jtagSamplePreload bits) := fun _ => ⟨named_none _, named_none _, named_none _, named_none _⟩
theorem jtagExtest (bits : List Bool) : Statement (.jtagExtest bits) := fun _ => ⟨named_none _, named_none _, named_none _, named_none _⟩
theorem jtagRegAccess (dr : BitVec 98) : Statement (.jtagRegAccess dr) := fun _ => ⟨named_none _, named_none _, named_none _, named_none _⟩
theorem jtagCoreDebug (core : Nat) (op : CoreDebug) : Statement (.jtagCoreDebug core op) := fun _ => ⟨named_none _, named_none _, named_none _, named_none _⟩
theorem jtagScan (bits : List Bool) : Statement (.jtagScan bits) := fun _ => ⟨named_none _, named_none _, named_none _, named_none _⟩
theorem jtagBypass (bits : List Bool) : Statement (.jtagBypass bits) := fun _ => ⟨named_none _, named_none _, named_none _, named_none _⟩
theorem trainingFailed (seat : Nat) : Statement (.trainingFailed seat) := fun h => ⟨named_one h, named_none _, named_none _, named_none _⟩
theorem resetNDeassert : Statement .resetNDeassert := fun _ => ⟨named_none _, named_none _, named_none _, named_none _⟩
theorem nodeResetRelease : Statement .nodeResetRelease := fun _ => ⟨named_none _, named_none _, named_none _, named_none _⟩
theorem refclkSysReturn : Statement .refclkSysReturn := fun _ => ⟨named_none _, named_none _, named_none _, named_none _⟩
theorem seatRefclkReturn (ref : Nat) : Statement (.seatRefclkReturn ref) := fun _ => ⟨named_none _, named_none _, named_none _, named_none _⟩
theorem discoveryAnswer (seat : Nat) (frame : Frame) : Statement (.discoveryAnswer seat frame) := fun h => ⟨named_one h, named_none _, named_none _, named_none _⟩
theorem dirQuietWindowEnd (half : Nat) (tenant : Nat) (stream : Nat) : Statement (.dirQuietWindowEnd half tenant stream) := fun h => ⟨named_none _, named_none _, named_one (second_holds (first_holds h)), named_none _⟩
theorem i3cDynamicAddress (addr : Nat) : Statement (.i3cDynamicAddress addr) := fun _ => ⟨named_none _, named_none _, named_none _, named_none _⟩

end Sys2Proof.Laws.Shape
end

