-- ==== Sys2Proof/Tests/Slice0.lean ====
section
/-! SUPPORT. The model's own tests: small states, the well-formedness smoke, figures of the spec's examples, and a witness for the hypotheses of every statement. -/

namespace Sys2Proof.Tests
open Sys2Proof Sys2Proof.Machine Sys2Proof.Safety

set_option Elab.async false
set_option linter.unusedVariables false

/-! ### Small states -/

/-- A board: version 7, node 0x0140, fabric manager 1, SERVE; everything from 0x0200 to 0x02FF goes by seat 1. -/
def board : Board := ⟨7, 0x0140, 0x0001, 1, [0x1000, 0x1001, 0x1002, 0x1003, 0x1004, 0x1005], [0, 0, 0, 0, 0, 0],
  [⟨0x0200, 0x02FF, 1, 7, 0x020000000001, 0, 0x2001, 0⟩], [0x0150, 0x0151, 0x0152], []⟩

/-- A seat in UP with a node as its partner. -/
def seatIn (state node role : Nat) : Seat :=
  { Seat.reset none with state := state, nodeId := node, role := role, version := 2, partnerMac := 0x020000000009, partnerIp := 0x3000 + node }

/-- A powered node in boot stage `n` without a board. -/
def booted (n : Nat) : State := { State.reset with boot := { State.reset.boot with stage := n, thermometer := 0 } }

/-- A node on its board: seat 0 in UP without a host, seats 1 and 2 in UP with neighbours. -/
def node : State :=
  { booted 3 with fab := { Fabric.reset with active := some board },
                  seats := [(0, seatIn seatUp 0x0141 0), (1, seatIn seatUp 0x0150 1), (2, seatIn seatUp 0x0151 1)] }

/-- The same with a host on seat 0. -/
def hosted : State := updSeat node 0 (fun x => { x with role := roleHost, nodeId := 0x0002 })

/-- A tenant key and an admitted tenant. -/
def key1 : Key := ⟨1, 0, List.replicate 32 0x11, 1⟩
def tenantIn : Tenant := { Tenant.reset with state := .admitted, current := some key1 }

/-- A frame of the transport for a seat of the board, over IPv6. -/
def frameTo (seat : Nat) (h : THdr) (payload : List Byte) : Frame :=
  let len := payload.length
  { bytes := beBytes 6 0x020000000099 ++ beBytes 6 0x020000000001 ++ beBytes 2 0x86DD ++ beBytes 4 0x60000000 ++ beBytes 2 (56 + len) ++ beBytes 1 17 ++
      beBytes 1 64 ++ beBytes 16 0x3141 ++ beBytes 16 (0x1000 + seat) ++ beBytes 2 4000 ++ beBytes 2 46880 ++ beBytes 2 (56 + len) ++ beBytes 2 0 ++
      headerBytes { h with plen := len } ++ payload,
    fcsOk := true, fecUncorr := 0, fecCorrected := 0 }

/-- What a seat reads of a frame. -/
def rxOf (s : State) (i : Nat) (f : Frame) : Rx :=
  (receive s i f).2.getD ⟨9, none, 0, 0, 0, 0, {}, [], 0⟩

/-- A peer with one frame outstanding and one to acknowledge. -/
def peerIn : Peer :=
  { (newPeer node 0x0150 ⟨1, 0x020000000009, 0x3150⟩).1 with nextSeq := 6, inflight := [⟨5, 0, 0, 100, 0, none, false, true⟩], recvNext := some 41,
                                                              unacked := 1, oldestUnacked := some 10, ackNowAt := none }

/-- The node with that peer, node 0x0150 on seat 1. -/
def peered : State := putPeer node 0x0150 peerIn

/-- A hello payload: kind, versions. -/
def helloBytes (kind versions : Nat) : List Byte :=
  recordBytes [(8, kind), (8, 0), (4, 1), (12, 0), (16, 0x0150), (16, 0), (32, 7), (32, versions), (32, 15), (32, 77), (64, 9)]

def helloFrame (kind versions : Nat) : Frame := frameTo 1 { type := ftHello, dst := 0xFFFF, hops := 1 } (helloBytes kind versions)

/-- A DISCOVERY payload: operation, LEN, INDEX, first seats of the route. -/
def discBytes (op len index route : Nat) : List Byte :=
  recordBytes [(8, op), (8, len), (8, index), (8, 0), (16, 1), (16, 0x0333), (32, 77), (160, 0)] ++ leBytes 128 route ++ zeros 224

def discFrame (op len index route : Nat) : Frame := frameTo 1 { type := ftDiscovery, dst := 0xFFFF, hops := 3 } (discBytes op len index route)

/-- A DATA frame from node 0x0150: destination, message type, sequence number. -/
def dataFrameTo (dst type seq : Nat) : Frame := frameTo 1 { type := ftData, src := 0x0150, dst := dst, boardVer := 7, msgType := type, seq := seq, msgId := 3, msgLen := 40 } (zeros 16)

def ackFrameTo : Frame := frameTo 1 { type := ftAck, src := 0x0150, dst := 0x0140, boardVer := 7, flags := 16, ack := 5 } (recordBytes [(32, 1000), (32, 20), (32, 10), (32, 0)])

/-- A node with one frame in a common queue of seat 1. -/
def queued (c : Nat) : State := putQ node (1, c, commonQ) { EQueue.reset with frames := [⟨zeros 60, 0, false, false, false, false⟩] }
def queuedTurn (c : Nat) : State := putCC (queued c) 1 c { (ClassCfg.reset c) with turn := commonQ }

/-- The node with an ownership entry, of tenant 5 and stream 9, and a record of the board. -/
def ownRec (owner prev epoch : Nat) : OwnRec := ⟨5, 9, owner, prev, false, epoch⟩
def owning (st : OwnState) (r : Option OwnRec) : State :=
  { node with fab := { node.fab with active := some { board with own := r.toList }, own := [((5, 9), ownEntry 0 st 7 0x0150 false)] },
              trust := { Trust.reset with tenants := [(5, tenantIn)] } }
def tail (op epoch owner reason : Nat) (copy : Bool) : List Byte := tailBytes ⟨op, false, copy, reason, 5, 9, epoch, owner, 0, 0, 0, 0⟩

/-- The node with a peer that compares digests, and a digest of its own. -/
def entryOf (digest : Nat) : List Byte := digestEntry ⟨5, 100, 2, digest, 0, 0⟩
def digestBytes (digest : Nat) : List Byte := recordBytes [(8, 9), (8, 0), (16, 1), (96, 0)] ++ entryOf digest
def shadowed (mine : List DigEntry) : State := { node with fab := { node.fab with shEnable := true, shPeer := 0x0150, digMine := mine, digSend := mine } }

/-- The staged image of a board: version 8, node 0x0140, no entries. -/
def imageTail : List Byte := zeros 192
def image (digest : List Byte) : List Byte :=
  recordBytes [(32, 1), (32, 8), (16, 0x0140), (16, 1), (32, 1), (16, 0), (16, 0), (32, 0), (64, 0)] ++ digest ++ imageTail
def staged (digest : List Byte) : State := { node with fab := { node.fab with staging := [(0, image digest)] } }
def boardBytes (op ver off len : Nat) (data : List Byte) : List Byte := recordBytes [(8, op), (24, 0), (32, ver), (32, off), (32, len)] ++ data

theorem readTile_clean {s : State} {o : Nat} {x : Tile} (e : s.mem.err = []) (h : getTile s o = some x) (p : x.poisoned = false) (q : tileSound x = true) :
    readTile s o = (false, s) := by
  simp [readTile, readSound, readObject, readBlocksFree, EccRes.zero, e, h, p, q]

theorem received {s : State} {i : Nat} {f : Frame} (h : (receive s i f).2 = some (rxOf s i f)) :
    receive s i f = ((receive s i f).1, some (rxOf s i f)) := by rw [← h]

theorem checked {s : State} {v r : Nat} {b : Option Board} (h : (checkBoard s v).1 = r) (g : (checkBoard s v).2.1 = b) :
    checkBoard s v = (r, b, (checkBoard s v).2.2) := by rw [← h, ← g]

theorem hop_error {x : Except Nat Hop} {n : Nat} (h : (match x with | .error m => some m | .ok _ => none) = some n) : x = .error n := by
  cases x <;> simp_all

theorem hop_ok {x : Except Nat Hop} {n : Hop} (h : (match x with | .error _ => none | .ok m => some m) = some n) : x = .ok n := by
  cases x <;> simp_all

theorem belowThreshold_low {u : Supply} {k pct i v : Nat} (h : 100 * v + 500 < pct * u.compared) : belowThreshold u k pct i v = true :=
  decide_eq_true (Nat.lt_of_lt_of_le h (Nat.le_add_right _ _))

theorem belowThreshold_high {u : Supply} {k pct i v : Nat} (h : pct * u.compared + 500 ≤ 100 * v) : belowThreshold u k pct i v = false :=
  decide_eq_false (by have := (Config.sagTrim k i).isLt; omega)

theorem underFloor_low {i v : Nat} (h : v < 545) : underFloor i v = true := decide_eq_true (by omega)

theorem underFloor_high {i v : Nat} (h : 555 ≤ v) : underFloor i v = false := decide_eq_false (by have := (Config.sagTrim 2 i).isLt; omega)

/-! ### Held nodes, monitors, ports -/

def heldNode (h : Hold) : State := { State.reset with boot := { State.reset.boot with hold := h } }

/-- Every voltage monitor at 900 mV. -/
def allVolts : Tab MonId (BitVec 16) := (List.range 48).map (fun i => ((1, i), 900))
theorem allVolts_find : ∀ i, i < 48 → Tab.find allVolts (1, i) = some 900 := by decide +kernel

/-- The node with its SMBus address at 0x5B. -/
def ported : State := { node with acc := { node.acc with straps := 3 } }

/-- A DISCOVERY frame of the manager behind the board's one entry. -/
def discIn : Disc := ⟨1, 0, 0, 0x0200, 0, 77, [], List.replicate 256 0⟩

def recIn (level index : Nat) : InRec := ⟨⟨1, 0, level, 0, index, 1, 5, 0, 0, 9, 0⟩, true, false, [⟨f32Zero, f32One, [f32One]⟩]⟩

/-! ### Programs -/

/-- The node with tenant 5 admitted. -/
def admittedNode : State :=
  { node with fab := { node.fab with own := [((5, 9), ownEntry 0 .owner 7 0x0150 false), ((5, 10), ownEntry 0 .owner 7 0x0150 false)] },
              trust := { Trust.reset with tenants := [(5, { tenantIn with dirQuota := 32768, ctxQuota := 16, tierQuota := 2 ^ 36 })] } }

def stepIdle : Step := ⟨.idle, 0, 0, 0, false, false, 0, 0, [], [], none⟩
def stepRun : Step := ⟨.running, 0, 0, 0, false, false, 0, 0, [], [], none⟩

/-- A program of tenant 5 with the flag OWNER: one instruction word, buffers, and its data. -/
def prog (w : Nat) (bufs : List BufDesc) (data : List Byte) : Prog :=
  { lsn := 77, die := 0, id := 1, tenant := 5, tclass := 4, owner := true, minor := 2, deadline := none, sender := 2, seat := 0, retNode := 2,
    scratchKib := 0, state := .running, scalars := List.replicate 16 0, bufs := bufs, handles := [(9, true), (10, true), (11, true), (12, true)], words := [w],
    data := data, scratch := [], steps := [stepIdle], next := 0, fails := 0, digest := 0, epoch := 0, tiles := [], holds := [], changes := [],
    newStreams := [], seenLayers := [], deferred := false, place := [] }

/-- A buffer descriptor: KIND, FMT, OFFSET, LENGTH, NAME. -/
def runs (s : State) (p : Prog) : State := putCtx s 0 p

/-- A committed tile of stream 9: one position, one head of 64 elements, and its run. -/
def tile1 : Tile :=
  { tenant := 5, stream := 9, layer := 0, base := 0, kFmt := 4, vFmt := 4, zp := false, isSealed := false, posEnc := 0, valid := 1, epoch := 1, share := 0,
    heads := 1, dimCode := 0, counter := ⟨0, 1, 1⟩, kScale := [f32One], vScale := [f32One], kZp := [0], vZp := [0],
    slots := [⟨List.replicate 64 0, [0, 0, 0, 0], List.replicate 64 0, [0, 0, 0, 0], []⟩], written := 1, die := 0,
    body := [(0, 699051), (1, 699051), (2, 699051), (3, 699051), (4, 699050), (5, 699050)], hdr := 5592416, poisoned := false, lost := false,
    retired := false, tier := .resident, replicas := [], objKey := 0, ageBase := 0, protectUntil := none, unread := [] }

def rowOf (st : RowState) : Row := ⟨0, 16777215, 9, 5, dirTag 5 9, st, false, false, 1048576, 0, 0, 0⟩
def run1 : RunDesc := ⟨5, false, true, 0, 16777215, 0, 0, [(0, 1)]⟩
def halfWith (st : RowState) : Half := { Half.reset with rows := [(0, rowOf st)] }

/-- Tenant 5 with a tile and its run in both the table of tiles and the directory. -/
def tiledAs (t : Tile) : State :=
  { admittedNode with mem := { Memory.reset with tiles := [(1, t)], descs := [(1048576, run1)] }, dir := [(homeDie admittedNode 5 9, halfWith .valid)] }
def tiled : State := tiledAs tile1

/-- A weight set of one matrix, 16 rows of 16 elements in BF16, trainable. -/
def matBody : MatBody := ⟨1, List.replicate 16 [⟨f32One, 0, [], List.replicate 16 0⟩], List.replicate 16 [], []⟩
def msgOf (tenant count : Nat) (owner : Nat) (words : List Byte) : List Byte :=
  leBytes 4 (2 + 256 + 4 * 65536 + owner * 2 ^ 19) ++ leBytes 4 (tenant + count * 65536) ++ leBytes 8 1 ++ zeros 8 ++ zeros 8 ++ leBytes 2 2 ++ zeros 30 ++
    zeros 320 ++ words
def contexts (p : Prog) : State := runs admittedNode p

/-- A load descriptor: format, matrix, set, layer, rows, elements, weight buffer, first row, rows of the piece, object, replicas. -/
def loadBytes (fmt mat set layer rows d wb row0 n object : Nat) (repl : List Nat) : List Byte :=
  leBytes 4 (1 + fmt * 16 + mat * 2048) ++ leBytes 2 set ++ leBytes 2 layer ++ leBytes 4 rows ++ leBytes 4 d ++ leBytes 4 wb ++ leBytes 4 row0 ++ leBytes 4 n ++
    leBytes 8 object ++ (repl.map (leBytes 2)).flatten ++ zeros 20

def matrix1 : Matrix :=
  { cur := some matBody, bias := [], master := none, m := [], v := [], grad := none, gradPending := none, gradBias := [], gradBiasPending := [],
    load := none, recs := [(0, [⟨1, ⟨0, 2, 1⟩⟩])], place := [(0, 800000)], auxPlace := [], poisoned := false, auxPoisoned := false, present := true,
    backing := none, loadedAt := 0, protectUntil := none, backEpoch := 0 }
/-- Tenant 5 with matrix 0 of weight set 3 in layer 0. -/
def weighted : State :=
  { admittedNode with mem := { Memory.reset with weights := [((5, 3, 0), { state := .ready, die := 0, dModel := 16, train := false, mats := [(0, matrix1)], steppers := [], torn := [], gradHolder := none })] } }

/-- Tenant 5 in rotation from epoch 1 to epoch 2. -/
def rotating (ms : Memory) : State :=
  { admittedNode with mem := ms, trust := { Trust.reset with tenants := [(5, { tenantIn with old := some key1, current := some { key1 with epoch := 2 } })] } }

def scrubIn : Scrub := ⟨77, 0, 1, 0, 5, 0, none, 0, 699000, 1, 0, 0, 0, 0, [0], 0, none, 0, 0, 0, 0, 0, 0, none, 2, none, 0, none⟩
def scrubbing (x : Scrub) : State := { admittedNode with mem := { Memory.reset with scrubRun := [x] } }
/-- A node with four passes queued, and a program that asks for another of tenant 5. -/
def scrubProg : Prog := prog (0x73 + 2 ^ 21 + 2 ^ 35) [⟨1, 0, 0, 32, 0⟩, ⟨3, 0, 0, 0, 0⟩] (leBytes 4 (6 + 5 * 2 ^ 16) ++ zeros 28)
def busyScrub : State := runs { admittedNode with mem := { Memory.reset with scrubRun := [scrubIn], scrubQueue := List.replicate 4 scrubIn } } scrubProg


theorem read_ok {x : Ans × State} {v : Nat} (h : x.1 = .ok v) : x = (.ok v, x.2) := by rw [← h]

/-- A parameter block: SCALE 1, ROPE_BASE 10000, one query head; the backward fields. -/
def pblockBytes (bwd : List Byte) : List Byte :=
  leBytes 4 1 ++ leBytes 4 0x3F800000 ++ leBytes 4 0x461C4000 ++ leBytes 4 0 ++ leBytes 8 0 ++ leBytes 4 0 ++ leBytes 4 1 ++ bwd

/-- The header of a record of ATT.MERGE: tenant 5, heads 1, head code 0. -/
def recordHead : List Byte := leBytes 8 1 ++ leBytes 2 0 ++ leBytes 1 0 ++ leBytes 1 0 ++ leBytes 2 0 ++ leBytes 2 1 ++ leBytes 2 5 ++ leBytes 2 0 ++ leBytes 4 9 ++ leBytes 4 0 ++ leBytes 4 0

/-- A tensor reference to a buffer in BF16. -/
def refBytesOf (buf n : Nat) : List Byte := leBytes 4 (1 + buf * 16 + 256) ++ zeros 16 ++ leBytes 4 n ++ zeros 8

def seqIn (st : SeqState) : Seq := ⟨77, 0, 5, 1, st, [], [], [0], 1, 0, 0, 0, 0, 0, 0, false, false, false, none, none, 0, [], 0, false⟩
def withSeq (q : Seq) : State := { admittedNode with nb := { NearBank.reset with units := [((0, 0), { Unit'.reset with seqs := [q] })] } }
/-- A pass of raw blocks that its unit carries out; the unit of granule 1000 of stack 0. -/
def passUnit : Nat := (unitOf (0, 1000)).2
def passSeq : Seq := { seqIn .running with pass := true }
def passIn : Scrub := { scrubIn with first := 1000, started := some 0 }
def passing (u : Nat) : State := { scrubbing passIn with nb := { NearBank.reset with units := [((0, u), { Unit'.reset with seqs := [passSeq] })] } }
theorem passing_unit (u : Nat) : getUnit (passing u) (0, u) = { Unit'.reset with seqs := [passSeq] } := by simp [getUnit, passing, Tab.get, Tab.find]

/-- Two bits of a block of the working area have flipped. -/
def hitFlips : List Flip := [⟨blockNo 0 1000 0, 3, 0⟩]
def hitState : State := applyFlips (passing passUnit) hitFlips
theorem passing_hit : (passRead (applyFlips (passing passUnit) hitFlips) passSeq.lsn passSeq.step (0, passUnit)).1.workHit = true := by
  have e : hitState.mem.scrubRun.find? (fun x => decide (x.lsn = passSeq.lsn ∧ x.step = passSeq.step)) = some passIn := by decide +kernel
  rw [show applyFlips (passing passUnit) hitFlips = hitState from rfl]
  have f : (hitState.mem.err.map Prod.fst).filter (fun b => blockUnit b == (0, passUnit) && inScope passIn [] b) = [8000] := by
    rw [show hitState.mem.err.map Prod.fst = [8000] from by decide +kernel, List.filter_cons_of_pos]
    · rfl
    · rw [show blockUnit 8000 = (0, passUnit) from by simp [blockUnit, unitOf, passUnit, blockStack, blockGranule], Bool.and_eq_true]
      exact ⟨beq_self_eq_true _, by decide +kernel⟩
  have g : (readWhere hitState (fun b => blockUnit b == (0, passUnit) && inScope passIn [] b)).1.workHit = true := by
    unfold readWhere
    rw [f]
    decide +kernel
  simp only [passRead, e]
  rw [if_pos (show passIn.scope = 0 from rfl)]
  exact g

/-- A two-pass sequence in pass 1: an NB.EW from a buffer of 16 elements into one in FP4; `lane` is what its unit has formed. -/
def ewProg : Prog :=
  { prog (0x40 + 8 * 256) [⟨1, 0, 0, 128, 0⟩, ⟨1, 1, 128, 32, 0⟩, ⟨2, 1, 0, 32, 0⟩] (refBytesOf 1 16 ++ zeros 32 ++ refBytesOf 2 16 ++ zeros 64) with
    steps := [{ stepRun with seqs := 1 }], next := 1 }
def lockedSeq : Seq := { seqIn .running with lock := true }
def locking (lane : Tab Nat (List F32)) : State :=
  { runs admittedNode ewProg with nb := { NearBank.reset with units := [((0, 0), { Unit'.reset with seqs := [lockedSeq], lane := lane })] } }

def maskAll : Mask := ⟨0, 255, false, 0, 0, [], 1, 1⟩
def memberIn (st : Option Nat) : Member := ⟨77, 0, 1, st, maskAll, 0, 0, [], [], []⟩
def plyIn (k : PlyKind) (issued : Option Time) (m : Member) : Ply := ⟨⟨k, 5, 0, 1, 1, 64, 3⟩, 0, [m], issued, none, [], [], [], [], [], none, []⟩
def withPly (s : State) (x : Ply) : State := { s with pg := { s.pg with plies := [(0, x)] } }

def stageIn : StageReq := ⟨0, 0, 5, 9, 0, 100, 0⟩
/-- An attention instruction whose SCALE is a NaN. -/
def nanAtt : AttIn :=
  ⟨⟨1, 4, 4, false, false, false, false, false, false, false, false, f32Nan, f32One, 64, 0, 0, 0, 0, 0, 0, 1, false, []⟩, 64, 1, 1, maskAll, []⟩

/-- A matrix product of a set that is absent, continuable. -/
def mmProg : Prog := { prog (0x31 + 2 ^ 21) [⟨1, 0, 0, 0, 0⟩] [] with steps := [stepRun], next := 1 }
def mmPly : Ply := plyIn .matrix none (memberIn none)
def mmNode : State := withPly (runs admittedNode mmProg) mmPly
def withHalf (x : Half) : State := { admittedNode with dir := [(0, x)] }

def fetchIn (obj : ObjRef) : Fetch := ⟨.demand, obj, 55, 1, [0x0150, 0x0151], 0, 0, 3, [], [], [], [], [], 0, none, none, false⟩
def fetching (f : Fetch) : State := { tiledAs { tile1 with tier := .fetching, isSealed := true } with mem := { (tiledAs { tile1 with tier := .fetching, isSealed := true }).mem with fetches := [(55, f)] } }
def tierBytes (op res gran obj first req : Nat) (body : List Byte) : List Byte := leBytes 4 (op + 256 * res) ++ leBytes 4 gran ++ leBytes 8 obj ++ leBytes 4 first ++ leBytes 4 0 ++ leBytes 8 req ++ body
def poolNode : State := { admittedNode with fab := { admittedNode.fab with active := some { board with role := 2 } } }

/-! ### Ill-formed commands, one for each check -/

theorem test_ill_formed_power_seat : Instr.wf (.seatEnable 6) = false := by decide

theorem test_ill_formed_context : Instr.wf (.fence 1024) = false := by decide

theorem test_ill_formed_node : Instr.wf (.tierGet 65536 []) = false := by decide

theorem test_ill_formed_half : Instr.wf (.dirStage 2) = false := by decide

theorem test_ill_formed_slot : Instr.wf (.tenantReclaim 4096) = false := by decide

theorem test_ill_formed_stream : Instr.wf (.tailOfferKeepExpiry 5 4294967296) = false := by decide

theorem test_ill_formed_stack : Instr.wf (.refreshDue 12 0) = false := by decide

theorem test_ill_formed_unit : Instr.wf (.refreshDue 0 32) = false := by decide

theorem test_ill_formed_core : Instr.wf (.spareRetire .smbus 0 9) = false := by decide

theorem test_ill_formed_cluster : Instr.wf (.spareRetire .smbus 8 0) = false := by decide

theorem test_ill_formed_peer : Instr.wf (.ackTimer 0x10006) = false := by decide

theorem test_ill_formed_path : Instr.wf (.nodeResetWrite (.ctx 1024)) = false := by decide

theorem test_ill_formed_run : Instr.wf (.canaryScheduled ⟨0, 9, true, 0, 0, 0⟩) = false := by decide

theorem test_ill_formed_place : Instr.wf (.sramUncorrectable (.dieData 2)) = false := by decide

theorem test_ill_formed_cause_node : Instr.wf (.nodeReset 1) = false := by decide

theorem test_ill_formed_cause_ctl : Instr.wf (.controlReset 0x26) = false := by decide

theorem test_ill_formed_wdog : Instr.wf (.watchdogTrip 0 8) = false := by decide

theorem test_well_formed : [Instr.seatEnable 5, .fence 1023, .dirStage 1, .refreshDue 11 31, .spareRetire .jtag 7 8, .nodeReset 9].all Instr.wf = true := by decide

/-! ### Figures of the spec's examples -/

/-- 02, the header example: the six words. -/
theorem test_tile_header_words : (headerHead 1 7 7 false true 0 16 17 0x02A 3 0x1F40 4096 40 8 2 37 ⟨0, 0, 0⟩).take 24 =
    [0x71, 0x27, 0x10, 0x11, 0x2A, 0x00, 0x03, 0x00, 0x40, 0x1F, 0x00, 0x00, 0x00, 0x10, 0x00, 0x00, 0x28, 0x00, 0x00, 0x00, 0x08, 0x02, 0x25, 0x00] := by decide +kernel

/-- 03, the example of a key block: scale, pip and codes. -/
theorem test_quantize_key_block : (quantFresh false 7 ([0x40466666, 0xBFA66666, 0x3E4CCCCD, 0x3FA00000, 0x3E000000, 0xC0266666] ++ List.replicate 10 f32Zero)).1 = ⟨0x3D800000, 0, [0x50], [7, 13, 1, 4, 0, 15, 0, 0, 0, 0, 0, 0, 0, 0, 0, 0]⟩ := by decide +kernel

/-- 03, the same example by R37: the six elements pack into three bytes. -/
theorem test_pack_fp4 : packElems 7 [7, 13, 1, 4, 0, 15] = [0xD7, 0x41, 0xF0] := by decide +kernel

/-- 03, the next position of the example: the scale stays, the pip is 52, the element 6. -/
theorem test_append_keeps_scale : (quantWith false 7 0x3D800000 0 (0x41A00000 :: List.replicate 15 f32Zero)).1 = ⟨0x3D800000, 0, [0x65], 7 :: List.replicate 15 0⟩ := by decide +kernel

/-- 02, the merge example, step 1. -/
theorem test_merge_two_blocks : (let r := mergePartial ⟨0x40C80000, 0x42160000, [0xC0800000]⟩ ⟨0x40E00000, 0x41400000, [0x40200000]⟩;
    r.m = 0x40E00000 ∧ fle 0x41EDB5BF r.l = true ∧ fle r.l 0x41EDB5C2 = true ∧ r.o.all (fun x => fle 0x3F1C4BF0 x && fle x 0x3F1C4BF3) = true) := by decide +kernel

/-- 04, the rotation example: elements 0 and 1 turned by −1,500. -/
theorem test_rotate_for_splice : (let r := rot ⟨0x461C4000, 128, false⟩ (-1500) (0x3F000000 :: 0xBE800000 :: List.replicate 126 f32Zero);
    fle 0x3E45FB57 (r.getD 0 f32Zero) = true ∧ fle (r.getD 0 f32Zero) 0x3E45FB72 = true ∧ fle 0x3F0646CB (r.getD 1 f32Zero) = true ∧ fle (r.getD 1 f32Zero) 0x3F0646D1 = true) := by decide +kernel

/-- 05, the optimizer example: the new master value. -/
theorem test_adam_step : (let r := adamElem ⟨0, 0, 0, none, [], [0x38D1B717, 0x3F666666, 0x3F733333, 0x322BCC77, 0x3DCCCCCD, 0x3F26BD02, 0x3ECD725A]⟩ 0x3D19999A 0x3CA3D70A 0x3C23D70A 0x38D1B717;
    fle 0x3D193098 r.1 = true ∧ fle r.1 0x3D19309B = true) := by decide +kernel

/-- 09, the example of one flipped bit: bit 337 is corrected. -/
theorem test_ecc_corrects_bit_337 : classify ⟨(0x99 <<< 336) ^^^ (1 <<< 337), eccCheck (0x99 <<< 336)⟩ = .corrected (sealedBlk (0x99 <<< 336)) := by decide +kernel

/-- 12, the example of LEDGER.RD: operation, completion word, program, tenant, buffer. -/
theorem test_word_ledger_rd : (let w := 0x0000602A00000A11000011F800110003;
    opOf w = some .ledgerRd ∧ stwOf w = true ∧ sdstOf w = 1 ∧ fld w 95 32 = 0x00000A11000011F8 ∧ fld w 107 96 = 0x02A ∧ fld w 110 108 = 6) := by decide +kernel

/-- 12, the example of TILE.APPEND: its operands. -/
theorem test_word_tile_append : (let o := appendOps { prog 0 [] [] with handles := [(0x0A11, true)] } 0x0000000208770011F811006800000110;
    o = { stream := 0x0A11, layer := 17, pos := 4600, n := 1, f := ⟨7, 7, false, 0, 8, 2⟩, rotate := true }) := by decide +kernel

/-- 12, the example of RUN.SPLICE: its operands. -/
theorem test_word_run_splice : spliceOps { prog 0 [] [] with handles := [(0x0A11, true), (0x1F40, true)] } 0x000000005DC000BB7000000400000012 = ⟨0x0A11, 0x1F40, 0, 2999, 1500⟩ := by decide +kernel

/-- FIPS 180-4: the digest of no bytes. -/
theorem test_sha256_empty : (sha256 []).take 4 = [0xE3, 0xB0, 0xC4, 0x42] := by decide +kernel

/-! ### Witnesses: for every statement with hypotheses, operands and a state that meet them -/

/-- Hypotheses of NodeResetCommandsClearTheNode that are met together. -/
theorem witness_NodeResetCommandsClearTheNode_0 : ∃ s : State, s.boot.powered = false :=
  ⟨{ State.reset with boot := { Boot.reset with powered := false } }, by decide +kernel⟩

/-- Hypotheses of NodeResetCommandsClearTheNode that are met together. -/
theorem witness_NodeResetCommandsClearTheNode_2 : ∃ s : State, s.boot.powered = true :=
  ⟨State.reset, by decide +kernel⟩

/-- Hypotheses of NodeResetCommandsClearTheNode that are met together. -/
theorem witness_NodeResetCommandsClearTheNode_3 : ∃ s : State, ∃ cause, s.boot.powered = true ∧ 2 ≤ cause ∧ cause ≤ 9 :=
  ⟨State.reset, 9, by decide +kernel⟩

/-- Hypotheses of NodeResetCommandsClearTheNode that are met together. -/
theorem witness_NodeResetCommandsClearTheNode_4 : ∃ s : State, ∃ i, ∃ v, s.boot.powered = true ∧ i < 48 ∧ underFloor i v = true :=
  ⟨State.reset, 0, 0, by decide +kernel, by decide +kernel, underFloor_low (by decide +kernel)⟩

/-- Hypotheses of NodeResetCommandsClearTheNode that are met together. -/
theorem witness_NodeResetCommandsClearTheNode_5 : ∃ s : State, ∃ i, ∃ v, s.boot.powered = true ∧ i < 48 ∧ underFloor i v = false ∧ 625 < s.supply.compared ∧ belowThreshold s.supply 1 88 i v = true :=
  ⟨{ State.reset with supply := { Supply.reset with target := 850 } }, 0, 700, by decide +kernel, by decide +kernel, underFloor_high (by decide +kernel), by decide +kernel, belowThreshold_low (by decide +kernel)⟩

/-- Hypotheses of NodeResetCommandsClearTheNode that are met together. -/
theorem witness_NodeResetCommandsClearTheNode_6 : ∃ s : State, ∃ i, ∃ v, underFloor i v = false ∧ (s.supply.compared ≤ 625 ∨ belowThreshold s.supply 1 88 i v = false) :=
  ⟨{ State.reset with supply := { Supply.reset with target := 600 } }, 0, 600, underFloor_high (by decide +kernel), .inl (by decide +kernel)⟩

/-- Hypotheses of NodeResetCommandsClearTheNode that are met together. -/
theorem witness_NodeResetCommandsClearTheNode_7 : ∃ v : Nat, v < 545 :=
  ⟨0, by decide +kernel⟩

/-- Hypotheses of NodeResetCommandsClearTheNode that are met together. -/
theorem witness_NodeResetCommandsClearTheNode_8 : ∃ v : Nat, 555 ≤ v :=
  ⟨600, by decide +kernel⟩

/-- Hypotheses of NodeResetCommandsClearTheNode that are met together. -/
theorem witness_NodeResetCommandsClearTheNode_9 : ∃ u : Supply, ∃ pct, ∃ v, 100 * v + 500 < pct * Supply.compared u :=
  ⟨Supply.reset, 88, 0, by decide +kernel⟩

/-- Hypotheses of NodeResetCommandsClearTheNode that are met together. -/
theorem witness_NodeResetCommandsClearTheNode_10 : ∃ u : Supply, ∃ pct, ∃ v, pct * Supply.compared u + 500 ≤ 100 * v :=
  ⟨Supply.reset, 88, 900, by decide +kernel⟩

/-- Hypotheses of NodeResetCommandsClearTheNode that are met together. -/
theorem witness_NodeResetCommandsClearTheNode_11 : ∃ s : State, started s = true :=
  ⟨booted 1, by decide +kernel⟩

/-- Hypotheses of NodeResetCommandsClearTheNode that are met together. -/
theorem witness_NodeResetCommandsClearTheNode_12 : ∃ s : State, running s = true :=
  ⟨State.reset, by decide +kernel⟩

/-- Hypotheses of NodeResetCommandsClearTheNode that are met together. -/
theorem witness_NodeResetCommandsClearTheNode_13 : ∃ s : State, ∃ t0, s.boot.powered = true ∧ s.boot.hold.reference = false ∧ s.mon.sysLost = some t0 :=
  ⟨{ State.reset with mon := { Monitors.reset with sysLost := some 5 } }, 5, by decide +kernel⟩

/-- Hypotheses of HeldNodeStartsAgain that are met together. -/
theorem witness_HeldNodeStartsAgain_1 : ∃ s : State, (s.boot.hold.supply = true → ∀ i, i < 48 → ∃ v, Tab.find s.mon.vals (1, i) = some v ∧ 705 ≤ v.toNat) ∧ (s.boot.hold.reference = true → s.mon.sysLost = none) ∧ (s.boot.hold.heat = true → 1000000000 ≤ s.time ∧ (∀ i, i < 96 → ∃ v, Tab.find s.mon.vals (0, i) = some v ∧ v.toInt < 1360) ∧ ∀ i, i < 12 → ∃ v, Tab.find s.mon.vals (3, i) = some v ∧ v.toInt < 1360) :=
  ⟨State.reset, fun h => absurd h (by decide +kernel), fun h => absurd h (by decide +kernel), fun h => absurd h (by decide +kernel)⟩

/-- Hypotheses of HeldNodeStartsAgain that are met together. -/
theorem witness_HeldNodeStartsAgain_2 : ∃ s : State, ∃ i, s.boot.hold.supply = true ∧ i < 48 ∧ (∀ v, Tab.find s.mon.vals (1, i) = some v → v.toNat < 705) :=
  ⟨{ heldNode ⟨true, false, false⟩ with mon := { Monitors.reset with vals := [((1, 3), 704)] } }, 3, by decide +kernel, by decide +kernel, by simp [Tab.find]⟩

/-- Hypotheses of HeldNodeStartsAgain that are met together. -/
theorem witness_HeldNodeStartsAgain_3 : ∃ s : State, s.boot.hold.reference = true ∧ s.mon.sysLost ≠ none :=
  ⟨{ heldNode ⟨false, true, false⟩ with mon := { Monitors.reset with sysLost := some 0 } }, by decide +kernel⟩

/-- Hypotheses of HeldNodeStartsAgain that are met together. -/
theorem witness_HeldNodeStartsAgain_4 : ∃ s : State, ∃ k, ∃ i, s.boot.hold.heat = true ∧ (s.time < 1000000000 ∨ (k = 0 ∧ i < 96 ∨ k = 3 ∧ i < 12) ∧ (∀ v, Tab.find s.mon.vals (k, i) = some v → 1360 ≤ v.toInt)) :=
  ⟨heldNode ⟨false, false, true⟩, 0, 0, rfl, .inl (by decide +kernel)⟩

/-- Hypotheses of SupplyAndReferenceCommands that are met together. -/
theorem witness_SupplyAndReferenceCommands_0 : ∃ s : State, started s = true ∧ s.supply.sagActive = false ∧ avsTarget s ≠ s.supply.target :=
  ⟨{ booted 1 with supply := { Supply.reset with target := avsTarget State.reset + 1 } }, by decide +kernel, by decide +kernel, fun h => absurd h (Nat.succ_ne_self _).symm⟩

/-- Hypotheses of SupplyAndReferenceCommands that are met together. -/
theorem witness_SupplyAndReferenceCommands_4 : ∃ s : State, ∃ status, started s = true ∧ status < 65536 :=
  ⟨booted 1, 65535, by decide +kernel⟩

/-- Hypotheses of SupplyAndReferenceCommands that are met together. -/
theorem witness_SupplyAndReferenceCommands_5 : ∃ s : State, s.supply.sagActive = true ∧ (∀ i, i < 48 → ∃ v, Tab.find s.mon.vals (1, i) = some v ∧ 96 * s.supply.compared ≤ 100 * v.toNat) :=
  ⟨{ State.reset with supply := { Supply.reset with sagActive := true }, mon := { Monitors.reset with vals := allVolts } }, by decide +kernel, fun i hi => ⟨900, allVolts_find i hi, by decide +kernel⟩⟩

/-- Hypotheses of SupplyAndReferenceCommands that are met together. -/
theorem witness_SupplyAndReferenceCommands_6 : ∃ s : State, ∃ i, i < 48 ∧ (∀ v, Tab.find s.mon.vals (1, i) = some v → 100 * v.toNat < 96 * s.supply.compared) :=
  ⟨{ State.reset with mon := { Monitors.reset with vals := [((1, 3), 500)] } }, 3, by decide +kernel, by intro v h; simp [Tab.find] at h; subst h; decide +kernel⟩

/-- Hypotheses of SupplyAndReferenceCommands that are met together. -/
theorem witness_SupplyAndReferenceCommands_7 : ∃ s : State, s.boot.powered = true ∧ s.mon.sysLost = none :=
  ⟨State.reset, by decide +kernel⟩

/-- Hypotheses of BootCommands that are met together. -/
theorem witness_BootCommands_0 : ∃ s : State, ∃ c : BootCheck, running s = true ∧ s.boot.stage = 0 ∧ s.boot.failed = false ∧ slotCause s c.selfTest c.slotA ≠ 0 ∧ slotCause s c.selfTest c.slotB ≠ 0 :=
  ⟨booted 0, ⟨15, ⟨1, 0, []⟩, ⟨4, 0, []⟩, none⟩, by decide +kernel⟩

/-- Hypotheses of BootCommands that are met together. -/
theorem witness_BootCommands_1 : ∃ s : State, ∃ c : BootCheck, running s = true ∧ s.boot.stage = 0 ∧ s.boot.failed = false ∧ (slotCause s c.selfTest c.slotA = 0 ∨ slotCause s c.selfTest c.slotB = 0) :=
  ⟨booted 0, ⟨15, ⟨0, 3, []⟩, ⟨4, 0, []⟩, none⟩, by decide +kernel⟩

/-- Hypotheses of BootCommands that are met together. -/
theorem witness_BootCommands_2 : ∃ s : State, started s = true :=
  ⟨booted 1, by decide +kernel⟩

/-- Hypotheses of BootCommands that are met together. -/
theorem witness_BootCommands_3 : ∃ s : State, running s = true ∧ s.boot.stage = 1 ∧ s.boot.memTrained = true ∧ s.dir = [] ∧ s.mem.tiles = [] ∧ s.mem.grads = [] ∧ s.mem.weights = [] ∧ s.mem.lse = [] :=
  ⟨{ booted 1 with boot := { (booted 1).boot with memTrained := true } }, by decide +kernel⟩

/-- Hypotheses of ControlResetCommands that are met together. -/
theorem witness_ControlResetCommands_0 : ∃ s : State, ∃ cause, started s = true ∧ 0x21 ≤ cause ∧ cause ≤ 0x25 ∧ s.rst.ctlRunning = false :=
  ⟨booted 2, 0x21, by decide +kernel⟩

/-- Hypotheses of ControlResetCommands that are met together. -/
theorem witness_ControlResetCommands_1 : ∃ s : State, ∃ cause, started s = true ∧ 0x21 ≤ cause ∧ cause ≤ 0x25 ∧ s.rst.ctlRunning = true :=
  ⟨{ booted 2 with rst := { Rst.reset 1 with ctlRunning := true } }, 0x25, by decide +kernel⟩

/-- Hypotheses of ControlResetCommands that are met together. -/
theorem witness_ControlResetCommands_2 : ∃ s : State, running s = true ∧ s.rst.ctlRunning = true :=
  ⟨{ booted 2 with rst := { Rst.reset 1 with ctlRunning := true } }, by decide +kernel⟩

/-- Hypotheses of ControlResetCommands that are met together. -/
theorem witness_ControlResetCommands_3 : ∃ s : State, ∃ die, ∃ core, started s = true ∧ s.rst.ctlRunning = false ∧ s.rst.wdog = none ∧ die < 2 ∧ core < 8 ∧ (8 * die + core) ∉ s.boot.halted :=
  ⟨booted 1, 1, 7, by decide +kernel⟩

/-- Hypotheses of ControlResetCommands that are met together. -/
theorem witness_ControlResetCommands_4 : ∃ s : State, ∃ w, s.rst.wdog = some w ∧ s.rst.ctlRunning = false :=
  ⟨{ booted 2 with rst := { Rst.reset 1 with wdog := some ⟨0, 1, 0⟩ } }, ⟨0, 1, 0⟩, by decide +kernel⟩

/-- Hypotheses of SagMonitorAndHealthCommands that are met together. -/
theorem witness_SagMonitorAndHealthCommands_0 : ∃ s : State, ∃ i, ∃ v, running s = true ∧ i < 48 ∧ belowThreshold s.supply 0 94 i v = true :=
  ⟨booted 1, 0, 0, by decide +kernel, by decide +kernel, belowThreshold_low (by decide +kernel)⟩

/-- Hypotheses of SagMonitorAndHealthCommands that are met together. -/
theorem witness_SagMonitorAndHealthCommands_1 : ∃ s : State, ∃ i, ∃ v, belowThreshold s.supply 0 94 i v = false :=
  ⟨booted 1, 0, 1000, belowThreshold_high (by decide +kernel)⟩

/-- Hypotheses of SagMonitorAndHealthCommands that are met together. -/
theorem witness_SagMonitorAndHealthCommands_2 : ∃ s : State, ∃ k, ∃ i, s.boot.powered = true ∧ (s.boot.hold ≠ .free ∨ s.boot.resetLow = true) ∧ i < monCount k :=
  ⟨heldNode ⟨false, false, true⟩, 0, 3, by decide +kernel⟩

/-- Hypotheses of SagMonitorAndHealthCommands that are met together. -/
theorem witness_SagMonitorAndHealthCommands_3 : ∃ s : State, ∃ k, ∃ i, running s = true ∧ i < monCount k ∧ k ≠ 0 ∧ k ≠ 3 :=
  ⟨State.reset, 1, 2, by decide +kernel⟩

/-- Hypotheses of SagMonitorAndHealthCommands that are met together. -/
theorem witness_SagMonitorAndHealthCommands_4 : ∃ s : State, ∃ k, ∃ i, ∃ v, running s = true ∧ i < monCount k ∧ (k = 0 ∨ k = 3) ∧ (BitVec.ofNat 16 v).toInt < 1680 :=
  ⟨State.reset, 0, 3, 1679, by decide +kernel⟩

/-- Hypotheses of SagMonitorAndHealthCommands that are met together. -/
theorem witness_SagMonitorAndHealthCommands_5 : ∃ s : State, ∃ k, ∃ i, ∃ v, running s = true ∧ i < monCount k ∧ (k = 0 ∨ k = 3) ∧ 1680 ≤ (BitVec.ofNat 16 v).toInt ∧ (k, i) ∈ s.mon.hot :=
  ⟨{ State.reset with mon := { Monitors.reset with hot := [(0, 3)] } }, 0, 3, 1680, by decide +kernel⟩

/-- Hypotheses of SagMonitorAndHealthCommands that are met together. -/
theorem witness_SagMonitorAndHealthCommands_6 : ∃ s : State, ∃ k, ∃ i, (k, i) ∈ s.mon.throttling ∧ (Tab.get s.mon.vals 0 (k, i)).toInt < 1440 :=
  ⟨{ State.reset with mon := { Monitors.reset with vals := [((0, 3), 1439)], throttling := [(0, 3)] } }, 0, 3, by decide +kernel⟩

/-- Hypotheses of SagMonitorAndHealthCommands that are met together. -/
theorem witness_SagMonitorAndHealthCommands_7 : ∃ s : State, running s = true ∧ allBelow s 1520 = true :=
  ⟨State.reset, by decide +kernel⟩

/-- Hypotheses of CanaryAndSpareCommands that are met together. -/
theorem witness_CanaryAndSpareCommands_0 : ∃ s : State, ∃ r : CanaryRun, started s = true ∧ r.cluster < 8 ∧ r.pcore < 9 ∧ isRetired s r.cluster r.pcore = false ∧ canaryTakes s r = true ∧ r.digest = Config.goldenDigest 0 :=
  ⟨booted 1, ⟨7, 8, true, Config.goldenDigest 0, 1, 0⟩, by
    refine ⟨?_, ?_, ?_, ?_, ?_, rfl⟩ <;> decide +kernel⟩

/-- Hypotheses of CanaryAndSpareCommands that are met together. -/
theorem witness_CanaryAndSpareCommands_3 : ∃ s : State, ∃ r : CanaryRun, started s = true ∧ r.cluster < 8 ∧ r.pcore < 9 ∧ isRetired s r.cluster r.pcore = false ∧ canaryTakes s r = false :=
  ⟨booted 1, ⟨7, 8, false, 0, 1, 0⟩, by decide +kernel⟩

/-- Hypotheses of CanaryAndSpareCommands that are met together. -/
theorem witness_CanaryAndSpareCommands_4 : ∃ s : State, ∃ r : CanaryRun, started s = true ∧ r.cluster < 8 ∧ r.pcore < 9 ∧ isRetired s r.cluster r.pcore = false ∧ canaryTakes s r = true ∧ r.digest ≠ Config.goldenDigest 0 :=
  ⟨booted 1, ⟨7, 8, true, Config.goldenDigest 0 + 1, 1, 0⟩, by
    refine ⟨?_, ?_, ?_, ?_, ?_, by simp⟩ <;> decide +kernel⟩

/-- Hypotheses of CanaryAndSpareCommands that are met together. -/
theorem witness_CanaryAndSpareCommands_5 : ∃ s : State, ∃ c, ∃ p, ∃ e, Tab.find s.cores.fast (c, p) = some e :=
  ⟨{ State.reset with cores := { Cores.reset with fast := [((1, 2), 7)] } }, 1, 2, 7, by decide +kernel⟩

/-- Hypotheses of CanaryAndSpareCommands that are met together. -/
theorem witness_CanaryAndSpareCommands_6 : ∃ s : State, ∃ c, ∃ p, ∃ r : Nat, ∃ i, pendingReason s (c, p) = some r ∧ lindexOf (spareMap s c) p = some i ∧ (spareMap s c).spare ≠ 15 ∧ 9 * c + p ∉ busyCores s :=
  ⟨{ State.reset with cores := { Cores.reset with pending := [((1, 2), 1)] } }, 1, 2, 1, 2, by decide +kernel⟩

/-- Hypotheses of CanaryAndSpareCommands that are met together. -/
theorem witness_CanaryAndSpareCommands_7 : ∃ s : State, ∃ c, ∃ p, ∃ r : Nat, ∃ i, pendingReason s (c, p) = some r ∧ lindexOf (spareMap s c) p = some i ∧ (spareMap s c).spare = 15 ∧ 9 * c + p ∉ busyCores s :=
  ⟨{ State.reset with cores := { Cores.reset with pending := [((1, 2), 1)], spares := [(1, { SpareMap.reset with spare := 15 })] } }, 1, 2, 1, 2, by decide +kernel⟩

/-- Hypotheses of EventsAreNumberedKeptOrLost that are met together. -/
theorem witness_EventsAreNumberedKeptOrLost_0 : ∃ s : State, hostLink s = none ∧ s.ev.queue.length < 256 :=
  ⟨node, by decide +kernel⟩

/-- Hypotheses of EventsAreNumberedKeptOrLost that are met together. -/
theorem witness_EventsAreNumberedKeptOrLost_1 : ∃ s : State, hostLink s = none ∧ 256 ≤ s.ev.queue.length :=
  ⟨{ node with ev := { Events.reset with queue := List.replicate 256 ⟨1, 1, 0, []⟩ } }, by decide +kernel⟩

/-- Hypotheses of EventsAreNumberedKeptOrLost that are met together. -/
theorem witness_EventsAreNumberedKeptOrLost_2 : ∃ s : State, (hostLink s).isSome = true :=
  ⟨hosted, by decide +kernel⟩

/-- Hypotheses of EventsAreNumberedKeptOrLost that are met together. -/
theorem witness_EventsAreNumberedKeptOrLost_4 : ∃ s : State, (hostLink s).isSome = true ∧ s.ev.second = s.time / 1000000000 ∧ 10000 ≤ s.ev.sentInSecond :=
  ⟨{ hosted with ev := { Events.reset with sentInSecond := 10000 } }, by decide +kernel⟩

/-- Hypotheses of ProgramMessageIsAcceptedOrRefused that are met together. -/
theorem witness_ProgramMessageIsAcceptedOrRefused_0 : ∃ s : State, ∃ m : List Byte, serving s = true ∧ effRole s ≠ roleUnplaced ∧ m.length < 64 :=
  ⟨node, [], by decide +kernel⟩

/-- Hypotheses of ProgramMessageIsAcceptedOrRefused that are met together. -/
theorem witness_ProgramMessageIsAcceptedOrRefused_1 : ∃ s : State, ∃ m : List Byte, serving s = true ∧ effRole s ≠ roleUnplaced ∧ 64 ≤ m.length ∧ (getTenant s (pheadOf m).tenant).state = .tombstone :=
  ⟨{ node with trust := { Trust.reset with tenants := [(5, { tenantIn with state := .tombstone })] } }, msgOf 5 1 0 (zeros 16), by decide +kernel⟩

/-- Hypotheses of ProgramMessageIsAcceptedOrRefused that are met together. -/
theorem witness_ProgramMessageIsAcceptedOrRefused_2 : ∃ s : State, ∃ seat, ∃ node, ∃ m : List Byte, serving s = true ∧ effRole s ≠ roleUnplaced ∧ 64 ≤ m.length ∧ (getTenant s (pheadOf m).tenant).state ≠ .tombstone ∧ admitCheck s (progOf s seat node m 0) m seat node = none :=
  ⟨admittedNode, 0, 2, msgOf 5 1 0 (zeros 16), by decide +kernel⟩

/-- Hypotheses of ProgramMessageIsAcceptedOrRefused that are met together. -/
theorem witness_ProgramMessageIsAcceptedOrRefused_3 : ∃ s : State, ∃ seat, ∃ node, ∃ m : List Byte, serving s = true ∧ effRole s ≠ roleUnplaced ∧ 64 ≤ m.length ∧ (getTenant s (pheadOf m).tenant).state ≠ .tombstone ∧ admitCheck s (progOf s seat node m 0) m seat node = some (refusedWith scProgramIdLive) :=
  ⟨{ admittedNode with pg := { Programs.reset with ring := [((0, 3), ⟨1, 3, 5, 2, 4, false, 0, 1, 0, 0, 0, 0, 0, 0, 0⟩)] } }, 0, 2, msgOf 5 1 0 (zeros 16), by decide +kernel⟩

/-- Hypotheses of ProgramMessageIsAcceptedOrRefused that are met together. -/
theorem witness_ProgramMessageIsAcceptedOrRefused_4 : ∃ s : State, ∃ seat, ∃ node, ∃ m : List Byte, ∃ r : Compl, serving s = true ∧ effRole s ≠ roleUnplaced ∧ 64 ≤ m.length ∧ (getTenant s (pheadOf m).tenant).state ≠ .tombstone ∧ admitCheck s (progOf s seat node m 0) m seat node = some r ∧ r ≠ refusedWith scProgramIdLive :=
  ⟨admittedNode, 0, 2, msgOf 5 1 0 [], (stVersion, 0), by decide +kernel⟩

/-- Hypotheses of ContextsAreTakenAndLeft that are met together. -/
theorem witness_ContextsAreTakenAndLeft_0 : ∃ s : State, ∃ p : Prog, bestQueued s = some p ∧ serving s = true :=
  ⟨{ admittedNode with pg := { Programs.reset with queue := [{ prog 0 [] [] with state := .queued }] } }, { prog 0 [] [] with state := .queued }, by decide +kernel⟩

/-- Hypotheses of ContextsAreTakenAndLeft that are met together. -/
theorem witness_ContextsAreTakenAndLeft_1 : ∃ s : State, ∃ lsn, ∃ c : Nat, ∃ p : Prog, ∃ d, ctxOf s lsn = some c ∧ getCtx s c = some p ∧ p.deadline = some d ∧ p.state = .running ∧ p.allDone = false :=
  ⟨runs admittedNode ({ prog 0 [] [] with deadline := some 9 }), 77, 0, { prog 0 [] [] with deadline := some 9 }, 9, by decide +kernel⟩

/-- Hypotheses of ContextsAreTakenAndLeft that are met together. -/
theorem witness_ContextsAreTakenAndLeft_2 : ∃ s : State, ∃ lsn, ∃ p : Prog, ∃ d, ctxOf s lsn = none ∧ s.pg.queue.find? (fun q => q.lsn == lsn) = some p ∧ p.deadline = some d :=
  ⟨{ admittedNode with pg := { Programs.reset with queue := [{ prog 0 [] [] with deadline := some 9 }] } }, 77, { prog 0 [] [] with deadline := some 9 }, 9, by decide +kernel⟩

/-- Hypotheses of CommitGoesThroughItsSteps that are met together. -/
theorem witness_CommitGoesThroughItsSteps_0 : ∃ s : State, ∃ c, ∃ p : Prog, getCtx s c = some p ∧ p.state = .running ∧ p.allDone = true ∧ serving s = true :=
  ⟨runs admittedNode ({ prog 0 [] [] with steps := [{ stepIdle with phase := .done }], next := 1 }), 0, { prog 0 [] [] with steps := [{ stepIdle with phase := .done }], next := 1 }, by decide +kernel⟩

/-- Hypotheses of CommitGoesThroughItsSteps that are met together. -/
theorem witness_CommitGoesThroughItsSteps_1 : ∃ s : State, ∃ c, ∃ p : Prog, getCtx s c = some p ∧ p.state = .preparing ∧ serving s = true ∧ stalledFor s p = true :=
  ⟨runs { admittedNode with fab := { node.fab with own := [((5, 9), ownEntry 0 .stalled 7 0x0150 false)] } } ({ prog 0 [] [] with state := .preparing, newStreams := [9] }), 0, { prog 0 [] [] with state := .preparing, newStreams := [9] }, by decide +kernel⟩

/-- Hypotheses of CommitGoesThroughItsSteps that are met together. -/
theorem witness_CommitGoesThroughItsSteps_2 : ∃ s : State, ∃ c, ∃ p : Prog, getCtx s c = some p ∧ p.state = .preparing ∧ serving s = true ∧ stalledFor s p = false :=
  ⟨runs admittedNode ({ prog 0 [] [] with state := .preparing, newStreams := [9] }), 0, { prog 0 [] [] with state := .preparing, newStreams := [9] }, by decide +kernel⟩

/-- Hypotheses of CommitGoesThroughItsSteps that are met together. -/
theorem witness_CommitGoesThroughItsSteps_3 : ∃ s : State, ∃ c, ∃ p : Prog, getCtx s c = some p ∧ p.state = .committing ∧ quietFor s 0 c = false ∧ quietFor s 1 c = false :=
  ⟨runs admittedNode ({ prog 0 [] [] with state := .committing }), 0, { prog 0 [] [] with state := .committing }, by decide +kernel⟩

/-- Hypotheses of CommitGoesThroughItsSteps that are met together. -/
theorem witness_CommitGoesThroughItsSteps_4 : ∃ s : State, ∃ c, ∃ p : Prog, getCtx s c = some p ∧ p.state = .committing ∧ (quietFor s 0 c = true ∨ quietFor s 1 c = true) ∧ s.pg.plies = [] ∧ s.fab.copyAsks = [] :=
  ⟨runs { tiled with dir := [(0, { halfWith .staged with quiet := [(5, 9)] })] } ({ prog 0 [] [] with state := .committing }), 0, { prog 0 [] [] with state := .committing }, by decide +kernel, by decide +kernel, .inl (by decide +kernel), by decide +kernel, by decide +kernel⟩

/-- Hypotheses of FailureEndsTheProgramUnlessContinued that are met together. -/
theorem witness_FailureEndsTheProgramUnlessContinued_0 : ∃ s : State, ∃ c, ∃ k, ∃ p : Prog, ∃ r : Compl, getCtx s c = some p ∧ (p.step k).phase = .running ∧ isFailure r.1 = true ∧ (contOf (p.word k) = false ∨ r.1 = stTenantGone ∨ 0x0600 ≤ r.1) :=
  ⟨runs admittedNode ({ prog 0 [] [] with steps := [stepRun], next := 1 }), 0, 0, { prog 0 [] [] with steps := [stepRun], next := 1 }, (stTenantGone, 0), by decide +kernel⟩

/-- Hypotheses of FailureEndsTheProgramUnlessContinued that are met together. -/
theorem witness_FailureEndsTheProgramUnlessContinued_3 : ∃ s : State, ∃ c, ∃ k, ∃ p : Prog, ∃ r : Compl, getCtx s c = some p ∧ k < p.steps.length ∧ (p.step k).phase = .running ∧ isFailure r.1 = true ∧ contOf (p.word k) = true ∧ r.1 ≠ stTenantGone ∧ r.1 < 0x0600 ∧ deadlinePassed s p = false :=
  ⟨runs admittedNode ({ prog (2 ^ 21) [] [] with steps := [stepRun], next := 1 }), 0, 0, { prog (2 ^ 21) [] [] with steps := [stepRun], next := 1 }, (stNoRun, 0), by decide +kernel⟩

/-- Hypotheses of FailureEndsTheProgramUnlessContinued that are met together. -/
theorem witness_FailureEndsTheProgramUnlessContinued_5 : ∃ s : State, ∃ c, ∃ k, ∃ p : Prog, ∃ r : Compl, getCtx s c = some p ∧ k < p.steps.length ∧ (p.step k).phase = .running ∧ isFailure r.1 = true ∧ contOf (p.word k) = true ∧ r.1 ≠ stTenantGone ∧ r.1 < 0x0600 ∧ deadlinePassed s p = false ∧ writesByUnits (p.word k) = false :=
  ⟨runs admittedNode ({ prog (2 ^ 21) [] [] with steps := [stepRun], next := 1 }), 0, 0, { prog (2 ^ 21) [] [] with steps := [stepRun], next := 1 }, (stNoRun, 0), by decide +kernel⟩

/-- Hypotheses of FenceAndWaitComplete that are met together. -/
theorem witness_FenceAndWaitComplete_0 : ∃ s : State, ∃ c, ∃ p : Prog, MayIssue s c p (isOp .fence) :=
  ⟨runs admittedNode (prog (0) [] []), 0, (prog (0) [] []), by decide +kernel⟩

/-- Hypotheses of FenceAndWaitComplete that are met together. -/
theorem witness_FenceAndWaitComplete_1 : ∃ s : State, ∃ c, ∃ p : Prog, MayIssue s c p (isOp .wait) ∧ waitInvalid p (p.word p.next) p.next = false :=
  ⟨runs admittedNode ({ prog 0 [] [] with words := [0, 1], steps := [{ stepIdle with phase := .done }, stepIdle], next := 1 }), 0, ({ prog 0 [] [] with words := [0, 1], steps := [{ stepIdle with phase := .done }, stepIdle], next := 1 }), by decide +kernel⟩

/-- Hypotheses of FenceAndWaitComplete that are met together. -/
theorem witness_FenceAndWaitComplete_2 : ∃ s : State, ∃ c, ∃ p : Prog, MayIssue s c p (isOp .wait) ∧ waitInvalid p (p.word p.next) p.next = true ∧ contOf (p.word p.next) = true :=
  ⟨runs admittedNode ({ prog 0 [] [] with words := [0, 1 + 2 ^ 21 + 2 ^ 32], steps := [{ stepIdle with phase := .done }, stepIdle], next := 1 }), 0, ({ prog 0 [] [] with words := [0, 1 + 2 ^ 21 + 2 ^ 32], steps := [{ stepIdle with phase := .done }, stepIdle], next := 1 }), by decide +kernel⟩

/-- Hypotheses of EmitAndLedgerReadComplete that are met together. -/
theorem witness_EmitAndLedgerReadComplete_0 : ∃ s : State, ∃ c, ∃ p : Prog, MayIssue s c p (isOp .emit) ∧ (¬ (fbit (p.word p.next) 1 = true ∧ 65536 < (p.buf (fld (p.word p.next) 34 32)).length)) :=
  ⟨runs admittedNode (prog (2 + 256 + 3 * 2 ^ 48) [⟨3, 0, 0, 0, 0⟩, ⟨1, 0, 0, 64, 0⟩] []), 0, (prog (2 + 256 + 3 * 2 ^ 48) [⟨3, 0, 0, 0, 0⟩, ⟨1, 0, 0, 64, 0⟩] []), by decide +kernel⟩

/-- Hypotheses of EmitAndLedgerReadComplete that are met together. -/
theorem witness_EmitAndLedgerReadComplete_1 : ∃ s : State, ∃ c, ∃ p : Prog, MayIssue s c p (isOp .ledgerRd) ∧ (p.owner = true ∨ fld (p.word p.next) 107 96 = p.tenant) ∧ outShort p (fld (p.word p.next) 110 108) 64 = false :=
  ⟨runs admittedNode (prog (3) [⟨3, 0, 0, 0, 0⟩, ⟨1, 0, 0, 64, 0⟩] []), 0, (prog (3) [⟨3, 0, 0, 0, 0⟩, ⟨1, 0, 0, 64, 0⟩] []), by decide +kernel⟩

/-- Hypotheses of TileInstructionsComplete that are met together. -/
theorem witness_TileInstructionsComplete_0 : ∃ s : State, ∃ c, ∃ p : Prog, MayIssue s c p (isOp .tileAppend) ∧ pendingStream s p.tenant (appendOps p (p.word p.next)).stream = false ∧ p.appendOpen = false ∧ Passes s c p (fun s p w => appendChecks s c p w (appendOps p w)) ∧ (let a := appendData (issuedProg s p) (p.word p.next) (appendOps (issuedProg s p) (p.word p.next)); (doAppend (afterIssue s c p) c p.next (appendOps (issuedProg s p) (p.word p.next)) a.1 a.2.1 a.2.2).1 = none) :=
  ⟨runs admittedNode (prog (0x10 + 512 + 2 ^ 37 + 4 * 2 ^ 80 + 4 * 2 ^ 84 + 2 ^ 88) [⟨1, 1, 0, 128, 0⟩, ⟨1, 1, 128, 128, 0⟩] (zeros 256)), 0, (prog (0x10 + 512 + 2 ^ 37 + 4 * 2 ^ 80 + 4 * 2 ^ 84 + 2 ^ 88) [⟨1, 1, 0, 128, 0⟩, ⟨1, 1, 128, 128, 0⟩] (zeros 256)), by decide +kernel⟩

/-- Hypotheses of TileInstructionsComplete that are met together. -/
theorem witness_TileInstructionsComplete_1 : ∃ s : State, ∃ c, ∃ p : Prog, MayIssue s c p (isOp .tileSeal) ∧ Passes s c p (fun s p w => sealChecks s c p (p.stream (fld w 33 32)) (if fbit w 0 then none else some (fld w 47 40)) (fld w 71 48) (fld w 95 72)) :=
  ⟨runs tiled (prog (0x11 + 16777215 * 2 ^ 72) [] []), 0, (prog (0x11 + 16777215 * 2 ^ 72) [] []), by decide +kernel⟩

/-- Hypotheses of RunInstructionsComplete that are met together. -/
theorem witness_RunInstructionsComplete_0 : ∃ s : State, ∃ c, ∃ p : Prog, MayIssue s c p (isOp .runSplice) ∧ pendingStream s p.tenant (spliceOps p (p.word p.next)).dst = false ∧ Passes s c p (fun s p w => spliceChecks s c p (spliceOps p w)) :=
  ⟨runs (tiledAs { tile1 with isSealed := true }) (prog (0x12 + 2 ^ 32) [] []), 0, (prog (0x12 + 2 ^ 32) [] []), by decide +kernel⟩

/-- Hypotheses of RunInstructionsComplete that are met together. -/
theorem witness_RunInstructionsComplete_1 : ∃ s : State, ∃ c, ∃ p : Prog, MayIssue s c p (isOp .runDrop) ∧ pendingStream s p.tenant (p.stream (fld (p.word p.next) 33 32)) = false ∧ (∀ j, isFailure (bankStatus (p.step j)) = false) ∧ Passes s c p (fun s p w => dropChecks s c p (p.stream (fld w 33 32)) (fld w 71 48) (fld w 95 72)) :=
  ⟨runs (tiledAs { tile1 with isSealed := true }) (prog (0x13 + 16777215 * 2 ^ 72) [] []), 0, (prog (0x13 + 16777215 * 2 ^ 72) [] []), by decide +kernel, by decide +kernel, fun j => by
    cases j with
    | zero => decide +kernel
    | succ j => exact (by decide +kernel : isFailure (bankStatus Step.idle) = false), by decide +kernel⟩

/-- Hypotheses of MoveAndPrefetchComplete that are met together. -/
theorem witness_MoveAndPrefetchComplete_0 : ∃ s : State, ∃ c, ∃ p : Prog, MayIssue s c p (fun w => isOp .move w && decide (funcOf w = 0)) ∧ Passes s c p (fun s p w => let d := loadDescOf (p.bytes (fld w 34 32)); wloadChecks s p d (p.bytes (fld w 34 32)) ++ (if d.row0 = 0 then setRoomChecks s (d.key p) (loadGranules d) else [])) :=
  ⟨runs { admittedNode with mem := { Memory.reset with reserve := [(0, 2 ^ 30), (1, 2 ^ 30)] } } (prog (0x50) [⟨1, 0, 0, 64, 0⟩, ⟨1, 1, 64, 32, 0⟩] (loadBytes 1 0 3 0 1 16 1 0 1 0 [0, 0, 0, 0] ++ zeros 32)), 0, (prog (0x50) [⟨1, 0, 0, 64, 0⟩, ⟨1, 1, 64, 32, 0⟩] (loadBytes 1 0 3 0 1 16 1 0 1 0 [0, 0, 0, 0] ++ zeros 32)), by decide +kernel⟩

/-- Hypotheses of MoveAndPrefetchComplete that are met together. -/
theorem witness_MoveAndPrefetchComplete_1 : ∃ s : State, ∃ c, ∃ p : Prog, MayIssue s c p (fun w => isOp .move w && decide (funcOf w = 1)) ∧ Tab.find s.mem.fetches (loadDescOf (p.bytes (fld (p.word p.next) 34 32))).object = none ∧ Passes s c p (fun s p w => wfetchChecks s p (loadDescOf (p.bytes (fld w 34 32))) (p.bytes (fld w 34 32))) :=
  ⟨runs admittedNode (prog (0x50 + 256) [⟨1, 0, 0, 64, 0⟩] (loadBytes 0 0 3 0 0 0 0 0 0 8 [0x0150, 0x0151, 0, 0])), 0, (prog (0x50 + 256) [⟨1, 0, 0, 64, 0⟩] (loadBytes 0 0 3 0 0 0 0 0 0 8 [0x0150, 0x0151, 0, 0])), by decide +kernel⟩

/-- Hypotheses of MoveAndPrefetchComplete that are met together. -/
theorem witness_MoveAndPrefetchComplete_2 : ∃ s : State, ∃ c, ∃ p : Prog, MayIssue s c p (fun w => isOp .move w && decide (funcOf w = 2)) ∧ Passes s c p (fun s p w => wdropChecks s (p.tenant, fld w 63 48, fld w 47 40) (fld w 66 64)) :=
  ⟨runs weighted (prog (0x50 + 512 + 3 * 2 ^ 48 + 2 ^ 64) [] []), 0, (prog (0x50 + 512 + 3 * 2 ^ 48 + 2 ^ 64) [] []), by decide +kernel⟩

/-- Hypotheses of MoveAndPrefetchComplete that are met together. -/
theorem witness_MoveAndPrefetchComplete_3 : ∃ s : State, ∃ c, ∃ p : Prog, MayIssue s c p (isOp .prefetch) ∧ Passes s c p (fun _ _ _ => []) :=
  ⟨runs admittedNode (prog (0x51) [] []), 0, (prog (0x51) [] []), by decide +kernel⟩

/-- Hypotheses of KeyInstructionsComplete that are met together. -/
theorem witness_KeyInstructionsComplete_0 : ∃ s : State, ∃ c, ∃ p : Prog, MayIssue s c p (isOp .keyAdmit) ∧ Passes s c p (fun s p w => [(!slotIs s (keySlot w) .empty || (getTenant s (keySlot w)).staging.isSome, refusedWith scSlotBusy), (pkgShort p w, refusedWith scShapeInvalid)]) :=
  ⟨runs admittedNode (prog (0x60 + 6 * 2 ^ 32) [⟨1, 0, 0, 1664, 0⟩] []), 0, (prog (0x60 + 6 * 2 ^ 32) [⟨1, 0, 0, 1664, 0⟩] []), by decide +kernel⟩

/-- Hypotheses of KeyInstructionsComplete that are met together. -/
theorem witness_KeyInstructionsComplete_1 : ∃ s : State, ∃ c, ∃ p : Prog, MayIssue s c p (isOp .keyRotate) ∧ Passes s c p (fun s p w => [(slotIs s (keySlot w) .tombstone, (stTenantGone, 0)), (slotIs s (keySlot w) .empty, refusedWith scTenantAbsent), (pkgShort p w, refusedWith scShapeInvalid), ((getTenant s (keySlot w)).old.isSome || (getTenant s (keySlot w)).staging.isSome, (stRotationBusy, 0))]) :=
  ⟨runs admittedNode (prog (0x61 + 5 * 2 ^ 32) [⟨1, 0, 0, 1664, 0⟩] []), 0, (prog (0x61 + 5 * 2 ^ 32) [⟨1, 0, 0, 1664, 0⟩] []), by decide +kernel⟩

/-- Hypotheses of KeyInstructionsComplete that are met together. -/
theorem witness_KeyInstructionsComplete_2 : ∃ s : State, ∃ c, ∃ k, ∃ p : Prog, ∃ g : Staging, getCtx s c = some p ∧ k < p.steps.length ∧ (p.step k).phase = .running ∧ deadlinePassed s p = false ∧ (getTenant s (keySlot (p.word k))).staging = some g ∧ g.lsn = p.lsn ∧ g.step = k ∧ g.key = none :=
  ⟨{ runs admittedNode ({ prog (0x61 + 5 * 2 ^ 32) [] [] with steps := [stepRun], next := 1 }) with trust := { Trust.reset with tenants := [(5, { tenantIn with staging := some ⟨77, 0, false, 2, none⟩ })] } }, 0, 0, { prog (0x61 + 5 * 2 ^ 32) [] [] with steps := [stepRun], next := 1 }, ⟨77, 0, false, 2, none⟩, by decide +kernel⟩

/-- Hypotheses of KeyInstructionsComplete that are met together. -/
theorem witness_KeyInstructionsComplete_3 : ∃ s : State, ∃ c, ∃ p : Prog, MayIssue s c p (isOp .keyStatus) ∧ (p.owner = true ∨ keySlot (p.word p.next) = p.tenant) ∧ outShort p (keyBuf (p.word p.next)) 32 = false :=
  ⟨runs admittedNode (prog (0x63 + 5 * 2 ^ 32) [⟨1, 0, 0, 1664, 0⟩] []), 0, (prog (0x63 + 5 * 2 ^ 32) [⟨1, 0, 0, 1664, 0⟩] []), by decide +kernel⟩

/-- Hypotheses of TenantsAreRemovedAndReencrypted that are met together. -/
theorem witness_TenantsAreRemovedAndReencrypted_0 : ∃ s : State, ∃ c, ∃ p : Prog, MayIssue s c p (isOp .keyRemove) ∧ Passes s c p (fun s _ w => [(slotIs s (keySlot w) .tombstone, (stTenantGone, 0)), (slotIs s (keySlot w) .empty, refusedWith scTenantAbsent)]) :=
  ⟨runs admittedNode (prog (0x62 + 5 * 2 ^ 32) [] []), 0, (prog (0x62 + 5 * 2 ^ 32) [] []), by decide +kernel⟩

/-- Hypotheses of TenantsAreRemovedAndReencrypted that are met together. -/
theorem witness_TenantsAreRemovedAndReencrypted_1 : ∃ s : State, ∃ n : Nat, (getTenant s n).state = .tombstone ∧ inflightOf s n = 0 ∧ serving s = true :=
  ⟨{ admittedNode with trust := { Trust.reset with tenants := [(5, { tenantIn with state := .tombstone })] } }, 5, by decide +kernel⟩

/-- Hypotheses of TenantsAreRemovedAndReencrypted that are met together. -/
theorem witness_TenantsAreRemovedAndReencrypted_2 : ∃ s : State, ∃ n : Nat, ∃ die, ∃ fs : List Flip, ∃ k, ∃ o : Nat, ∃ l, ∃ x : Tile, (getTenant s n).old = some k ∧ serving s = true ∧ nonceSpent s n 1 = false ∧ reencList s n k.epoch die = .tile o :: l ∧ (readTile (applyFlips s fs) o).1 = false ∧ getTile (readTile (applyFlips s fs) o).2 o = some x ∧ poolFits (readTile (applyFlips s fs) o).2 x.die x.body.length true = true :=
  ⟨rotating { Memory.reset with tiles := [(1, { tile1 with isSealed := true })] }, 5, 0, [], key1, 1, [], { tile1 with isSealed := true }, by decide +kernel⟩

/-- Hypotheses of TenantsAreRemovedAndReencrypted that are met together. -/
theorem witness_TenantsAreRemovedAndReencrypted_3 : ∃ s : State, ∃ n : Nat, ∃ die, ∃ k, (getTenant s n).old = some k ∧ reencList s n k.epoch die = [] :=
  ⟨rotating Memory.reset, 5, 0, key1, by decide +kernel⟩

/-- Hypotheses of TenantsAreRemovedAndReencrypted that are met together. -/
theorem witness_TenantsAreRemovedAndReencrypted_4 : ∃ s : State, ∃ n : Nat, ∃ k, (getTenant s n).old = some k ∧ oldTiles s n k.epoch = 0 ∧ oldInflight s n k.epoch = 0 ∧ serving s = true :=
  ⟨rotating Memory.reset, 5, key1, by decide +kernel⟩

/-- Hypotheses of TenantsAreRemovedAndReencrypted that are met together. -/
theorem witness_TenantsAreRemovedAndReencrypted_5 : ∃ s : State, ∃ n : Nat, ∃ k, (getTenant s n).old = some k ∧ oldTiles s n k.epoch ≠ 0 :=
  ⟨rotating { Memory.reset with tiles := [(1, tile1)] }, 5, key1, by decide +kernel⟩

/-- Hypotheses of RegisterInstructionsComplete that are met together. -/
theorem witness_RegisterInstructionsComplete_0 : ∃ s : State, ∃ c, ∃ addr, ∃ wide, regMapped addr wide = true ∧ serving s = true ∧ (getCtx s c).isSome = true :=
  ⟨contexts (prog 0 [] []), 0, 0x10024, false, by decide +kernel⟩

/-- Hypotheses of RegisterInstructionsComplete that are met together. -/
theorem witness_RegisterInstructionsComplete_1 : ∃ s : State, ∃ c, ∃ p : Prog, ∃ v : Nat, ∃ u : State, MayIssue s c p (isOp .regRd) ∧ p.scalars.length = 16 ∧ (p.owner = true ∨ regAddr p (p.word p.next) < 0x10000) ∧ readReg (afterIssue s c p) (.ctx c) (regAddr p (p.word p.next)) (w64Of (p.word p.next)) = (.ok v, u) :=
  ⟨contexts (prog (0x70 + 0x10024 * 2 ^ 32) [] []), 0, (prog (0x70 + 0x10024 * 2 ^ 32) [] []), 0x3FF, (readReg (afterIssue (contexts (prog (0x70 + 0x10024 * 2 ^ 32) [] [])) 0 (prog (0x70 + 0x10024 * 2 ^ 32) [] [])) (.ctx 0) 0x10024 false).2, by decide +kernel, by decide +kernel, by decide +kernel, read_ok (by decide +kernel)⟩

/-- Hypotheses of RegisterInstructionsComplete that are met together. -/
theorem witness_RegisterInstructionsComplete_2 : ∃ s : State, ∃ c, ∃ p : Prog, MayIssue s c p (isOp .regWr) ∧ p.owner = true ∧ regMapped (regAddr p (p.word p.next)) (w64Of (p.word p.next)) = true ∧ regAddr p (p.word p.next) ≠ 0x10000 ∧ regAddr p (p.word p.next) ≠ 0xB0030 ∧ (writeReg (afterIssue s c p) (.ctx c) (regAddr p (p.word p.next)) (w64Of (p.word p.next)) (regData p (p.word p.next))).1 = .ok 0 :=
  ⟨runs admittedNode (prog (0x71 + 0x10024 * 2 ^ 32) [] []), 0, (prog (0x71 + 0x10024 * 2 ^ 32) [] []), by decide +kernel⟩

/-- Hypotheses of RegisterInstructionsComplete that are met together. -/
theorem witness_RegisterInstructionsComplete_3 : ∃ s : State, ∃ c, ∃ p : Prog, MayIssue s c p (isOp .regWr) ∧ p.owner = false ∧ contOf (p.word p.next) = true ∧ regMapped (regAddr p (p.word p.next)) (w64Of (p.word p.next)) = true :=
  ⟨contexts ({ prog (0x71 + 0x10024 * 2 ^ 32 + 2 ^ 21) [] [] with owner := false }), 0, { prog (0x71 + 0x10024 * 2 ^ 32 + 2 ^ 21) [] [] with owner := false }, by decide +kernel⟩

/-- Hypotheses of CanaryAndScrubComplete that are met together. -/
theorem witness_CanaryAndScrubComplete_0 : ∃ s : State, ∃ c, ∃ p : Prog, MayIssue s c p (isOp .canary) ∧ waitingCanary s c = none ∧ canaryWaits (afterIssue s c p) (p.word p.next) = false ∧ Passes s c p (fun s p w => [(outShort p (fld w 34 32) (64 * (if fbit w 0 then 72 else 1)), refusedWith scBufferShort), ((!fbit w 0 && (canaryCores s w).any (fun x => decide (9 ≤ x.2) || isRetired s x.1 x.2)) || !suiteHeld (fld w 55 48), refusedWith scCoreUnavailable)]) :=
  ⟨runs admittedNode (prog (0x72 + 256) [⟨3, 0, 0, 0, 0⟩, ⟨1, 0, 0, 32, 0⟩] []), 0, (prog (0x72 + 256) [⟨3, 0, 0, 0, 0⟩, ⟨1, 0, 0, 32, 0⟩] []), by decide +kernel⟩

/-- Hypotheses of CanaryAndScrubComplete that are met together. -/
theorem witness_CanaryAndScrubComplete_1 : ∃ s : State, ∃ c, ∃ p : Prog, MayIssue s c p (isOp .canary) ∧ waitingCanary s c = none ∧ canaryWaits (afterIssue s c p) (p.word p.next) = true ∧ Passes s c p (fun s p w => [(outShort p (fld w 34 32) (64 * (if fbit w 0 then 72 else 1)), refusedWith scBufferShort), ((!fbit w 0 && (canaryCores s w).any (fun x => decide (9 ≤ x.2) || isRetired s x.1 x.2)) || !suiteHeld (fld w 55 48), refusedWith scCoreUnavailable)]) :=
  ⟨withPly (runs admittedNode (prog (0x72 + 256) [⟨3, 0, 0, 0, 0⟩, ⟨1, 0, 0, 32, 0⟩] [])) { plyIn .decode (some 0) (memberIn (some 9)) with cores := [0] }, 0, (prog (0x72 + 256) [⟨3, 0, 0, 0, 0⟩, ⟨1, 0, 0, 32, 0⟩] []), by decide +kernel⟩

/-- Hypotheses of CanaryAndScrubComplete that are met together. -/
theorem witness_CanaryAndScrubComplete_2 : ∃ s : State, ∃ c, ∃ k, ∃ w, ∃ p : Prog, waitingCanary s c = some (k, w) ∧ serving s = true ∧ canaryWaits s w = false ∧ getCtx s c = some p ∧ k < p.steps.length ∧ deadlinePassed s p = false :=
  ⟨runs admittedNode { prog (0x72 + 256) [⟨3, 0, 0, 0, 0⟩, ⟨1, 0, 0, 32, 0⟩] [] with steps := [stepRun], next := 1 }, 0, 0, 0x72 + 256, { prog (0x72 + 256) [⟨3, 0, 0, 0, 0⟩, ⟨1, 0, 0, 32, 0⟩] [] with steps := [stepRun], next := 1 }, by decide +kernel⟩

/-- Hypotheses of CanaryAndScrubComplete that are met together. -/
theorem witness_CanaryAndScrubComplete_3 : ∃ s : State, ∃ c, ∃ p : Prog, MayIssue s c p (isOp .scrub) ∧ Passes s c p (fun s p w => scrubChecks s p (scrubDescOf (p.bytes (fld w 34 32))) (p.bytes (fld w 34 32)).length (fld w 37 35)) :=
  ⟨runs admittedNode (prog (0x73 + 2 ^ 32) [⟨3, 0, 0, 0, 0⟩, ⟨1, 0, 0, 32, 0⟩] (zeros 12 ++ leBytes 4 1 ++ zeros 16)), 0, (prog (0x73 + 2 ^ 32) [⟨3, 0, 0, 0, 0⟩, ⟨1, 0, 0, 32, 0⟩] (zeros 12 ++ leBytes 4 1 ++ zeros 16)), by decide +kernel⟩

/-- Hypotheses of CanaryAndScrubComplete that are met together. -/
theorem witness_CanaryAndScrubComplete_4 : ∃ s : State, ∃ c, ∃ p : Prog, ∃ d, ∃ n, MayIssue s c p (isOp .scrub) ∧ contOf (p.word p.next) = true ∧ firstOf (generalChecks (afterIssue s c p) (issuedProg s p) (p.word p.next)) = none ∧ n = (p.bytes (fld (p.word p.next) 34 32)).length ∧ d = scrubDescOf (p.bytes (fld (p.word p.next) 34 32)) ∧ 32 ≤ n ∧ d.tenant = p.tenant ∧ d.scope ≠ 0 ∧ (p.owner = true → admitted s p.tenant = true) ∧ outShort (issuedProg s p) (fld (p.word p.next) 37 35) 64 = false ∧ (¬ (d.scope = 1 ∧ (streamRuns (afterIssue s c p) d.tenant d.stream d.low d.high = [] ∨ d.high < d.low))) ∧ 4 ≤ s.mem.scrubQueue.length :=
  ⟨busyScrub, 0, scrubProg, scrubDescOf (scrubProg.bytes 0), 32, by decide +kernel⟩

/-- Hypotheses of CanaryAndScrubComplete that are met together. -/
theorem witness_CanaryAndScrubComplete_5 : ∃ s : State, ∃ die, ∃ x : Scrub, passOn s die = some x ∧ x.started = none ∧ x.stopped = none ∧ running s = true :=
  ⟨scrubbing scrubIn, 0, scrubIn, by decide +kernel⟩

/-- Hypotheses of CanaryAndScrubComplete that are met together. -/
theorem witness_CanaryAndScrubComplete_6 : ∃ s : State, ∃ k, ∃ u, ∃ n, ∃ fs : List Flip, ∃ q : Seq, ∃ x : Scrub, activeSeq (getUnit s (k, u)) = some q ∧ q.state = .running ∧ q.pass = true ∧ q.lock = false ∧ q.cancel = none ∧ q.due = false ∧ q.doms ≠ [] ∧ n ≠ 0 ∧ (s.mem.scrubRun.find? (fun x => decide (x.lsn = q.lsn ∧ x.step = q.step)) = some x) ∧ (passRead (applyFlips s fs) q.lsn q.step (k, u)).1.workHit = false :=
  ⟨passing 0, 0, 0, 1, [], passSeq, passIn, by decide +kernel⟩

/-- Hypotheses of CanaryAndScrubComplete that are met together. -/
theorem witness_CanaryAndScrubComplete_7 : ∃ s : State, ∃ k, ∃ u, ∃ n, ∃ fs : List Flip, ∃ q : Seq, activeSeq (getUnit s (k, u)) = some q ∧ q.state = .running ∧ q.pass = true ∧ q.lock = false ∧ q.cancel = none ∧ q.due = false ∧ q.doms ≠ [] ∧ n ≠ 0 ∧ s.rst.ctlRunning = false ∧ (passRead (applyFlips s fs) q.lsn q.step (k, u)).1.workHit = true :=
  ⟨passing passUnit, 0, passUnit, 1, hitFlips, passSeq, by rw [passing_unit]; decide +kernel, by decide +kernel, by decide +kernel, by decide +kernel, by decide +kernel, by decide +kernel, by decide +kernel, by decide +kernel, by decide +kernel, passing_hit⟩

/-- Hypotheses of CanaryAndScrubComplete that are met together. -/
theorem witness_CanaryAndScrubComplete_8 : ∃ s : State, ∃ die, ∃ x : Scrub, passOn s die = some x ∧ x.started.isSome = true ∧ x.stopped = none ∧ running s = true ∧ passOpen s x = false ∧ (∀ c p, ctxOf s x.lsn = some c → getCtx s c = some p → deadlinePassed s p = false) :=
  ⟨scrubbing { scrubIn with started := some 0 }, 0, { scrubIn with started := some 0 }, by decide +kernel, by decide +kernel, by decide +kernel, by decide +kernel, by decide +kernel, fun c p h => by
    have e : ctxOf (scrubbing { scrubIn with started := some 0 }) 77 = none := by decide +kernel
    exact absurd (h.symm.trans e) (by simp)⟩

/-- Hypotheses of RegisterAccessesFollowTheMap that are met together. -/
theorem witness_RegisterAccessesFollowTheMap_0 : ∃ a, regAt a = none :=
  ⟨4, by decide +kernel⟩

/-- Hypotheses of RegisterAccessesFollowTheMap that are met together. -/
theorem witness_RegisterAccessesFollowTheMap_1 : ∃ s : State, ∃ p : Path, ∃ a, ∃ r : Reg, ∃ part : Nat, ∃ w : Bool, ∃ k : Ctr, regAt a = some (r, part, w) ∧ answers s p (a / 0x10000) = true ∧ namesUnit s p r = true ∧ ctrOf s p r part = some k :=
  ⟨node, .smbus, 0x40020, .dirPf 0, 0, true, .dirPf 0, by decide +kernel⟩

/-- Hypotheses of RegisterAccessesFollowTheMap that are met together. -/
theorem witness_RegisterAccessesFollowTheMap_3 : ∃ s : State, ∃ p : Path, ∃ a, ∃ r : Reg, ∃ part : Nat, ∃ w : Bool, ∃ k : Ctr, ∃ j : Ctr, regAt a = some (r, part, w) ∧ answers s p (a / 0x10000) = true ∧ namesUnit s p r = true ∧ ctrOf s p r part = some k ∧ j ≠ k :=
  ⟨node, .smbus, 0x40020, .dirPf 0, 0, true, .dirPf 0, .dirPf 1, by decide +kernel⟩

/-- Hypotheses of RegisterAccessesFollowTheMap that are met together. -/
theorem witness_RegisterAccessesFollowTheMap_6 : ∃ a, ∃ r : Reg, ∃ part : Nat, ∃ w : Bool, regAt a = some (r, part, w) :=
  ⟨0x10024, .alertMask, 0, false, by decide +kernel⟩

/-- Hypotheses of RegisterAccessesFollowTheMap that are met together. -/
theorem witness_RegisterAccessesFollowTheMap_7 : ∃ s : State, ∃ p : Path, answers s p 0 = true :=
  ⟨node, .smbus, by decide +kernel⟩

/-- Hypotheses of RegisterAccessesFollowTheMap that are met together. -/
theorem witness_RegisterAccessesFollowTheMap_8 : ∃ s : State, ∃ p : Path, answers s p 1 = true ∧ (getPath s p).staged = [] :=
  ⟨node, .smbus, by decide +kernel⟩

/-- Hypotheses of RegisterAccessesFollowTheMap that are met together. -/
theorem witness_RegisterAccessesFollowTheMap_10 : ∃ s : State, ∃ p : Path, answers s p 8 = true ∧ resetDrops s p 8 = false :=
  ⟨node, .smbus, by decide +kernel⟩

/-- Hypotheses of RegisterAccessesFollowTheMap that are met together. -/
theorem witness_RegisterAccessesFollowTheMap_11 : ∃ s : State, ∃ p : Path, answers s p 0xB = true ∧ (getPath s p).staged = [] :=
  ⟨node, .smbus, by decide +kernel⟩

/-- Hypotheses of RegisterAccessesFollowTheMap that are met together. -/
theorem witness_RegisterAccessesFollowTheMap_12 : ∃ s : State, ∃ p : Path, answers s p 1 = true ∧ isSealedBlock s 1 = true :=
  ⟨{ node with acc := { Access.reset with sealedBlocks := 2 } }, .smbus, by decide +kernel⟩

/-- Hypotheses of ActingRegisterWrites that are met together. -/
theorem witness_ActingRegisterWrites_0 : ∃ s : State, ∃ p : Path, answers s p 1 = true ∧ started s = true ∧ s.rst.ctlRunning = false :=
  ⟨node, .smbus, by decide +kernel⟩

/-- Hypotheses of ActingRegisterWrites that are met together. -/
theorem witness_ActingRegisterWrites_1 : ∃ s : State, ∃ p : Path, answers s p 1 = true :=
  ⟨node, .smbus, by decide +kernel⟩

/-- Hypotheses of ActingRegisterWrites that are met together. -/
theorem witness_ActingRegisterWrites_2 : ∃ s : State, ∃ p : Path, answers s p 0xB = true :=
  ⟨node, .smbus, by decide +kernel⟩

/-- Hypotheses of ActingRegisterWrites that are met together. -/
theorem witness_ActingRegisterWrites_3 : ∃ s : State, ∃ p : Path, ∃ c : Nat, ∃ core : Nat, answers s p 7 = true ∧ resetDrops s p 7 = false ∧ (getPath s p).staged = [] ∧ c < 8 ∧ core < 9 ∧ isRetired s c core = false ∧ (spareMap s c).spare ≠ core ∧ pendingReason s (c, core) = none :=
  ⟨node, .smbus, 1, 2, by decide +kernel⟩

/-- Hypotheses of ActingRegisterWrites that are met together. -/
theorem witness_ActingRegisterWrites_4 : ∃ s : State, ∃ p : Path, ∃ c : Nat, ∃ core : Nat, answers s p 7 = true ∧ resetDrops s p 7 = false ∧ (getPath s p).staged = [] ∧ c < 8 ∧ core < 9 ∧ isRetired s c core = false ∧ (spareMap s c).spare = core :=
  ⟨{ node with cores := { Cores.reset with spares := [(1, { SpareMap.reset with spare := 2 })] } }, .smbus, 1, 2, by decide +kernel⟩

/-- Hypotheses of ActingRegisterWrites that are met together. -/
theorem witness_ActingRegisterWrites_5 : ∃ s : State, ∃ p : Path, answers s p 7 = true ∧ resetDrops s p 7 = false ∧ (getPath s p).staged = [] ∧ s.cores.ctlCluster < 8 ∧ s.cores.ctlPcore < 16 :=
  ⟨node, .smbus, by decide +kernel⟩

/-- Hypotheses of ActingRegisterWrites that are met together. -/
theorem witness_ActingRegisterWrites_6 : ∃ s : State, ∃ p : Path, ∃ i : Nat, answers s p 2 = true ∧ resetDrops s p 2 = false ∧ (getPath s p).staged = [] ∧ i < 6 ∧ (getSeat s i).mode < 3 ∧ (getSeat s i).enable = true ∧ refPresent s i = true :=
  ⟨node, .smbus, 1, by decide +kernel⟩

/-- Hypotheses of ActingRegisterWrites that are met together. -/
theorem witness_ActingRegisterWrites_7 : ∃ s : State, ∃ p : Path, ∃ w : W32, answers s p 3 = true ∧ resetDrops s p 3 = false ∧ (getPath s p).staged = [] ∧ let x := getPolicer s (tpKey s p); let y := { x with aware := w.getLsbD 1, yellowAct := fld w.toNat 3 2, redAct := fld w.toNat 5 4 }; x.enable = false ∧ x.cir < 2 ^ 24 ∧ x.pir < 2 ^ 24 ∧ x.cbs < 2 ^ 24 ∧ x.pbs < 2 ^ 24 :=
  ⟨node, .smbus, 0, by decide +kernel⟩

/-- Hypotheses of ActingRegisterWrites that are met together. -/
theorem witness_ActingRegisterWrites_8 : ∃ s : State, ∃ p : Path, ∃ die : Nat, answers s p 5 = true ∧ resetDrops s p 5 = false ∧ (getPath s p).staged = [] ∧ die < 2 :=
  ⟨node, .smbus, 0, by decide +kernel⟩

/-- Hypotheses of ManagementPorts that are met together. -/
theorem witness_ManagementPorts_1 : ∃ s : State, ∃ a, smbusMine s a = false :=
  ⟨ported, 9, by decide +kernel⟩

/-- Hypotheses of ManagementPorts that are met together. -/
theorem witness_ManagementPorts_2 : ∃ s : State, ∃ a, ∃ b : List Byte, smbusMine s a = true ∧ b.length = 8 ∧ leAt b 0 4 = 0x10024 ∧ answers s .smbus 1 = true ∧ (getPath s .smbus).staged = [] :=
  ⟨ported, 0x5B, leBytes 4 0x10024 ++ zeros 4, by decide +kernel⟩

/-- Hypotheses of ManagementPorts that are met together. -/
theorem witness_ManagementPorts_3 : ∃ s : State, ∃ a, ∃ b : List Byte, smbusMine s a = true ∧ (b.length = 8 ∨ b.length = 12) :=
  ⟨ported, 0x5B, zeros 8, by decide +kernel⟩

/-- Hypotheses of ManagementPorts that are met together. -/
theorem witness_ManagementPorts_4 : ∃ s : State, ∃ a, smbusMine s a = true :=
  ⟨ported, 0x5B, by decide +kernel⟩

/-- Hypotheses of ManagementPorts that are met together. -/
theorem witness_ManagementPorts_5 : ∃ s : State, ∃ m, ∃ b : List Byte, smbusMine s m = true ∧ b.length = 5 ∧ (leAt b 4 1 = 4 ∨ leAt b 4 1 = 8) :=
  ⟨ported, 0x5B, [0x24, 0, 1, 0, 4], by decide +kernel⟩

/-- Hypotheses of ManagementPorts that are met together. -/
theorem witness_ManagementPorts_6 : ∃ s : State, ∃ a : Nat, ∃ w : Nat, ∃ v : Nat, ∃ u : State, s.boot.powered = true ∧ s.acc.smbRead = some (a, w) ∧ readReg s .smbus a (decide (w = 8)) = (.ok v, u) :=
  ⟨{ node with acc := { node.acc with smbRead := some (0x10024, 4) } }, 0x10024, 4, 0x3FF, (readReg ({ node with acc := { node.acc with smbRead := some (0x10024, 4) } }) .smbus 0x10024 false).2, by decide +kernel, rfl, read_ok (by decide +kernel)⟩

/-- Hypotheses of ManagementPorts that are met together. -/
theorem witness_ManagementPorts_7 : ∃ s : State, s.boot.powered = true ∧ s.acc.smbRead = none :=
  ⟨node, by decide +kernel⟩

/-- Hypotheses of ManagementPorts that are met together. -/
theorem witness_ManagementPorts_8 : ∃ s : State, s.boot.powered = true :=
  ⟨node, by decide +kernel⟩

/-- Hypotheses of ManagementPorts that are met together. -/
theorem witness_ManagementPorts_11 : ∃ s : State, s.boot.powered = true ∧ s.boot.unlocked = false :=
  ⟨node, by decide +kernel⟩

/-- Hypotheses of ManagementPorts that are met together. -/
theorem witness_ManagementPorts_12 : ∃ s : State, s.boot.powered = true ∧ s.boot.unlocked = true :=
  ⟨{ node with boot := { node.boot with unlocked := true } }, by decide +kernel⟩

/-- Hypotheses of ManagementPorts that are met together. -/
theorem witness_ManagementPorts_13 : ∃ s : State, ∃ dr : BitVec 98, ∃ v : Nat, ∃ u : State, s.boot.powered = true ∧ dr.getLsbD 0 = false ∧ readReg (jtagScanned s 0x20 (bitsOf 98 s.acc.jtagDr.toNat)) .jtag (fld dr.toNat 33 2) (dr.getLsbD 1) = (.ok v, u) :=
  ⟨node, BitVec.ofNat 98 (0x10024 * 4), 0x3FF, (readReg (jtagScanned node 0x20 (bitsOf 98 node.acc.jtagDr.toNat)) .jtag (fld (BitVec.ofNat 98 (0x10024 * 4)).toNat 33 2) ((BitVec.ofNat 98 (0x10024 * 4)).getLsbD 1)).2, by decide +kernel, by decide +kernel, read_ok (by decide +kernel)⟩

/-- Hypotheses of ManagementPorts that are met together. -/
theorem witness_ManagementPorts_14 : ∃ s : State, ∃ core : Nat, s.boot.powered = true ∧ core < 16 ∧ core ∉ s.boot.halted :=
  ⟨node, 1, by decide +kernel⟩

/-- Hypotheses of ManagementPorts that are met together. -/
theorem witness_ManagementPorts_15 : ∃ s : State, ∃ core : Nat, s.boot.powered = true ∧ core < 16 :=
  ⟨node, 1, by decide +kernel⟩

/-- Hypotheses of AttentionInstructionsJoinPlies that are met together. -/
theorem witness_AttentionInstructionsJoinPlies_0 : ∃ s : State, ∃ c, ∃ p : Prog, ∃ x : Instr × Op × PlyKind, x ∈ [(.attDec c, Op.attDec, PlyKind.decode), (.attPre c, Op.attPre, PlyKind.prefill), (.attBwd c, Op.attBwd, PlyKind.backward)] ∧ MayIssue s c p (isOp x.2.1) ∧ pendingStream s p.tenant (attOps p (p.word p.next)).stream = false ∧ Passes s c p (fun s p w => attChecks s c p (attOps p w)) :=
  ⟨runs tiled (prog (0x20 + 2 ^ 39 + 2 * 2 ^ 42 + 2 ^ 104) [⟨1, 0, 0, 64, 0⟩, ⟨1, 1, 64, 128, 0⟩, ⟨3, 0, 0, 0, 0⟩] (pblockBytes (zeros 32) ++ zeros 128)), 0, (prog (0x20 + 2 ^ 39 + 2 * 2 ^ 42 + 2 ^ 104) [⟨1, 0, 0, 64, 0⟩, ⟨1, 1, 64, 128, 0⟩, ⟨3, 0, 0, 0, 0⟩] (pblockBytes (zeros 32) ++ zeros 128)), (.attDec 0, Op.attDec, PlyKind.decode), by decide +kernel⟩

/-- Hypotheses of AttentionInstructionsJoinPlies that are met together. -/
theorem witness_AttentionInstructionsJoinPlies_1 : ∃ s : State, ∃ c, ∃ p : Prog, ∃ x : Instr × Op × PlyKind, x ∈ [(.attDec c, Op.attDec, PlyKind.decode), (.attPre c, Op.attPre, PlyKind.prefill), (.attBwd c, Op.attBwd, PlyKind.backward)] ∧ MayIssue s c p (isOp x.2.1) ∧ pendingStream s p.tenant (attOps p (p.word p.next)).stream = true :=
  ⟨runs { tiled with dir := [(homeDie admittedNode 5 9, halfWith .pending)] } (prog (0x20 + 2 ^ 39 + 2 * 2 ^ 42 + 2 ^ 104) [⟨1, 0, 0, 64, 0⟩, ⟨1, 1, 64, 128, 0⟩, ⟨3, 0, 0, 0, 0⟩] (pblockBytes (zeros 32) ++ zeros 128)), 0, (prog (0x20 + 2 ^ 39 + 2 * 2 ^ 42 + 2 ^ 104) [⟨1, 0, 0, 64, 0⟩, ⟨1, 1, 64, 128, 0⟩, ⟨3, 0, 0, 0, 0⟩] (pblockBytes (zeros 32) ++ zeros 128)), (.attDec 0, Op.attDec, PlyKind.decode), by decide +kernel⟩

/-- Hypotheses of ProjectionsAndProductsJoinPlies that are met together. -/
theorem witness_ProjectionsAndProductsJoinPlies_0 : ∃ s : State, ∃ c, ∃ p : Prog, ∃ g : Bool, MayIssue s c p (fun w => isOp .projKv w && (fbit w 0 == g)) ∧ ((projOps p (p.word p.next)).append && (pendingStream s p.tenant (projOps p (p.word p.next)).stream || p.appendOpen)) = false ∧ Passes s c p (fun s p w => projChecks s c p w (projOps p w)) :=
  ⟨runs weighted (prog (0x30 + 2048 + 2 ^ 35 + 2 * 2 ^ 38) [⟨1, 1, 0, 32, 0⟩, ⟨4, 0, 0, 0, 3⟩, ⟨2, 15, 0, 64, 0⟩] (zeros 64)), 0, (prog (0x30 + 2048 + 2 ^ 35 + 2 * 2 ^ 38) [⟨1, 1, 0, 32, 0⟩, ⟨4, 0, 0, 0, 3⟩, ⟨2, 15, 0, 64, 0⟩] (zeros 64)), false, by decide +kernel⟩

/-- Hypotheses of ProjectionsAndProductsJoinPlies that are met together. -/
theorem witness_ProjectionsAndProductsJoinPlies_1 : ∃ s : State, ∃ c, ∃ p : Prog, MayIssue s c p (isOp .mm) ∧ Passes s c p (fun s p w => mmChecks s p w (mmOps p w)) :=
  ⟨runs weighted (prog (0x31 + 2 ^ 35 + 2 * 2 ^ 38) [⟨1, 1, 0, 32, 0⟩, ⟨4, 0, 0, 0, 3⟩, ⟨2, 15, 0, 64, 0⟩] (zeros 64)), 0, (prog (0x31 + 2 ^ 35 + 2 * 2 ^ 38) [⟨1, 1, 0, 32, 0⟩, ⟨4, 0, 0, 0, 3⟩, ⟨2, 15, 0, 64, 0⟩] (zeros 64)), by decide +kernel⟩

/-- Hypotheses of MergeCompletes that are met together. -/
theorem witness_MergeCompletes_0 : ∃ s : State, ∃ c, ∃ p : Prog, MayIssue s c p (isOp .attMerge) ∧ Passes s c p (fun _ p w => mergeChecks p w) :=
  ⟨runs admittedNode (prog (0x23 + 2 * 2 ^ 35 + 2 ^ 48) [⟨1, 0, 0, 320, 0⟩, ⟨1, 0, 0, 64, 0⟩, ⟨3, 0, 0, 0, 0⟩] (recordHead ++ zeros 288)), 0, (prog (0x23 + 2 * 2 ^ 35 + 2 ^ 48) [⟨1, 0, 0, 320, 0⟩, ⟨1, 0, 0, 64, 0⟩, ⟨3, 0, 0, 0, 0⟩] (recordHead ++ zeros 288)), by decide +kernel⟩

/-- Hypotheses of MergeCompletes that are met together. -/
theorem witness_MergeCompletes_2 : ∃ b : Partial, b.m ≠ f32NegInf :=
  ⟨⟨f32Zero, f32One, [f32One]⟩, by decide +kernel⟩

/-- Hypotheses of MergeCompletes that are met together. -/
theorem witness_MergeCompletes_3 : ∃ r : InRec, r.head.level ≤ 16 ∧ r.head.index < 2 ^ (16 - r.head.level) ∧ r.parts.length = r.head.heads :=
  ⟨recIn 0 0, by decide +kernel⟩

/-- Hypotheses of MergeCompletes that are met together. -/
theorem witness_MergeCompletes_4 : ∃ a b : InRec, a.head.level < 16 ∧ b.head.level = a.head.level ∧ a.head.index % 2 = 0 ∧ b.head.index = a.head.index + 1 ∧ b.head.index < 2 ^ (16 - a.head.level) ∧ b.head.heads = a.head.heads ∧ b.head.dim = a.head.dim ∧ a.parts.length = a.head.heads ∧ b.parts.length = b.head.heads :=
  ⟨recIn 0 4, recIn 0 5, by decide +kernel⟩

/-- Hypotheses of MergeCompletes that are met together. -/
theorem witness_MergeCompletes_5 : ∃ s : State, ∃ c, ∃ p : Prog, MayIssue s c p (isOp .attMerge) ∧ contOf (p.word p.next) = true ∧ (effRole s = rolePool → p.owner = true) ∧ mergeInvalid p.tenant (fld (p.word p.next) 63 48) (fbit (p.word p.next) 1) (mergeIn p (p.word p.next)).1 = true :=
  ⟨runs admittedNode (prog (0x23 + 2 ^ 21) [⟨1, 0, 0, 320, 0⟩, ⟨1, 0, 0, 64, 0⟩, ⟨3, 0, 0, 0, 0⟩] []), 0, (prog (0x23 + 2 ^ 21) [⟨1, 0, 0, 320, 0⟩, ⟨1, 0, 0, 64, 0⟩, ⟨3, 0, 0, 0, 0⟩] []), by decide +kernel⟩

/-- Hypotheses of NearBankInstructionsQueueSequences that are met together. -/
theorem witness_NearBankInstructionsQueueSequences_0 : ∃ s : State, ∃ c, ∃ p : Prog, ∃ x : Instr × Op, x ∈ [(.nbEw c, Op.nbEw), (.nbRope c, Op.nbRope), (.nbQuant c, Op.nbQuant)] ∧ MayIssue s c p (isOp x.2) ∧ Passes s c p (fun s p w => nbChecks s p (nbOps p w)) :=
  ⟨runs admittedNode (prog (0x40 + 8 * 256) [⟨1, 0, 0, 128, 0⟩, ⟨1, 1, 128, 32, 0⟩, ⟨2, 1, 0, 32, 0⟩] (refBytesOf 1 16 ++ zeros 32 ++ refBytesOf 2 16 ++ zeros 64)), 0, (prog (0x40 + 8 * 256) [⟨1, 0, 0, 128, 0⟩, ⟨1, 1, 128, 32, 0⟩, ⟨2, 1, 0, 32, 0⟩] (refBytesOf 1 16 ++ zeros 32 ++ refBytesOf 2 16 ++ zeros 64)), (.nbEw 0, Op.nbEw), by decide +kernel⟩

/-- Hypotheses of NearBankInstructionsQueueSequences that are met together. -/
theorem witness_NearBankInstructionsQueueSequences_1 : ∃ s : State, ∃ c, ∃ p : Prog, MayIssue s c p (isOp .nbAdam) ∧ Passes s c p (fun s p w => adamChecks s p w (adamOps p w)) :=
  ⟨runs { admittedNode with mem := { Memory.reset with reserve := [(0, 1048576)], weights := [((5, 3, 0), { state := .ready, die := 0, dModel := 16, train := true, mats := [(0, { matrix1 with master := some (List.replicate 16 (List.replicate 16 f32Zero)) })], steppers := [], torn := [], gradHolder := none })] } } (prog (0x43 + 2 ^ 35 + 2 ^ 49) [⟨4, 0, 0, 0, 3⟩, ⟨1, 0, 0, 64, 0⟩] (leBytes 4 0 ++ leBytes 4 0x3F000000 ++ leBytes 4 0x3F000000 ++ leBytes 8 0 ++ leBytes 4 0x3F800000 ++ leBytes 4 0x3F800000 ++ zeros 36)), 0, (prog (0x43 + 2 ^ 35 + 2 ^ 49) [⟨4, 0, 0, 0, 3⟩, ⟨1, 0, 0, 64, 0⟩] (leBytes 4 0 ++ leBytes 4 0x3F000000 ++ leBytes 4 0x3F000000 ++ leBytes 8 0 ++ leBytes 4 0x3F800000 ++ leBytes 4 0x3F800000 ++ zeros 36)), by decide +kernel⟩

/-- Hypotheses of PliesIssueOrAreHeld that are met together. -/
theorem witness_PliesIssueOrAreHeld_0 : ∃ s : State, ∃ i cores fs, ∃ x : Ply, Tab.find s.pg.plies i = some x ∧ x.issued = none ∧ serving s = true ∧ x.members ≠ [] ∧
    coresFree s (plyDie s x) cores = true ∧ ∃ u, u = reach (applyFlips s fs) (plyDue s x) ∧ (∀ m c p, m ∈ x.members → memberProg u m = some (c, p) → plyRecheck u x c p m = none) ∧
    plyCommitHeld u x = false ∧ (plyTiles u x).filter (tileMissing u) = [] ∧ (plyMats u x).filter (matMissing u (plySet x)) = [] ∧ (∀ o, o ∈ plyTiles u x → readFirst u o = u) := by
  refine ⟨withPly (runs tiled ({ prog (0x20 + 2 ^ 39 + 2 * 2 ^ 42 + 2 ^ 104) [⟨1, 0, 0, 64, 0⟩, ⟨1, 1, 64, 128, 0⟩, ⟨3, 0, 0, 0, 0⟩] (pblockBytes (zeros 32) ++ zeros 128) with steps := [stepRun], next := 1 })) (plyIn .decode none (memberIn (some 9))), 0, [0], [], plyIn .decode none (memberIn (some 9)), by decide +kernel, rfl, by decide +kernel, by decide +kernel, by decide +kernel, _, rfl, ?_, by decide +kernel, by decide +kernel, by decide +kernel, fun o h => by obtain rfl := List.mem_singleton.mp h; rfl⟩
  intro m c p hm h
  obtain rfl := List.mem_singleton.mp hm
  have e : (memberProg (reach (applyFlips (withPly (runs tiled ({ prog (0x20 + 2 ^ 39 + 2 * 2 ^ 42 + 2 ^ 104) [⟨1, 0, 0, 64, 0⟩, ⟨1, 1, 64, 128, 0⟩, ⟨3, 0, 0, 0, 0⟩] (pblockBytes (zeros 32) ++ zeros 128) with steps := [stepRun], next := 1 })) (plyIn .decode none (memberIn (some 9)))) []) (plyDue (withPly (runs tiled ({ prog (0x20 + 2 ^ 39 + 2 * 2 ^ 42 + 2 ^ 104) [⟨1, 0, 0, 64, 0⟩, ⟨1, 1, 64, 128, 0⟩, ⟨3, 0, 0, 0, 0⟩] (pblockBytes (zeros 32) ++ zeros 128) with steps := [stepRun], next := 1 })) (plyIn .decode none (memberIn (some 9)))) (plyIn .decode none (memberIn (some 9))))) (memberIn (some 9))) = some (0, { prog (0x20 + 2 ^ 39 + 2 * 2 ^ 42 + 2 ^ 104) [⟨1, 0, 0, 64, 0⟩, ⟨1, 1, 64, 128, 0⟩, ⟨3, 0, 0, 0, 0⟩] (pblockBytes (zeros 32) ++ zeros 128) with steps := [stepRun], next := 1 }) := by decide +kernel
  rw [e] at h
  cases h
  decide +kernel

/-- Hypotheses of PliesIssueOrAreHeld that are met together. -/
theorem witness_PliesIssueOrAreHeld_1 : ∃ s : State, ∃ i, ∃ cores, ∃ fs, ∃ x : Ply, ∃ m : Member, ∃ c, ∃ p : Prog, ∃ r : Compl, Tab.find s.pg.plies i = some x ∧ x.issued = none ∧ serving s = true ∧ x.members = [m] ∧ coresFree s (plyDie s x) cores = true ∧ (let u := reach (applyFlips s fs) (plyDue s x); memberProg u m = some (c, p) ∧ plyRecheck u x c p m = some r ∧ (p.step m.step).phase = .running ∧ m.step < p.steps.length ∧ deadlinePassed u p = false ∧ contOf (p.word m.step) = true ∧ r.1 ≠ 0x0501 ∧ r.1 < 0x0600 ∧ plyCommitHeld u x = false ∧ (plyTiles u x).filter (tileMissing u) = [] ∧ (plyMats u x).filter (matMissing u (plySet x)) = []) :=
  ⟨mmNode, 0, [0], [], mmPly, memberIn none, 0, mmProg, refusedWith scWeightSetAbsent, by decide +kernel⟩

/-- Hypotheses of PliesIssueOrAreHeld that are met together. -/
theorem witness_PliesIssueOrAreHeld_2 : ∃ s : State, ∃ i, ∃ cores, ∃ fs, ∃ x : Ply, Tab.find s.pg.plies i = some x ∧ x.issued = none ∧ serving s = true ∧ x.members ≠ [] ∧ coresFree s (plyDie s x) cores = true ∧ (let u := reach (applyFlips s fs) (plyDue s x); plyCommitHeld u x = true ∨ (plyTiles u x).filter (tileMissing u) ≠ [] ∨ (plyMats u x).filter (matMissing u (plySet x)) ≠ []) :=
  ⟨withPly { tiledAs { tile1 with tier := .remote } with nb := NearBank.reset } (plyIn .decode none (memberIn (some 9))), 0, [0], [], plyIn .decode none (memberIn (some 9)), by decide +kernel⟩

/-- Hypotheses of PliesIssueOrAreHeld that are met together. -/
theorem witness_PliesIssueOrAreHeld_3 : ∃ s : State, ∃ obj, ∃ o : Nat, ∃ x : Tile, s.mem.tiles.find? (fun t => t.2.objKey == obj && t.2.protectUntil.isSome) = some (o, x) :=
  ⟨tiledAs { tile1 with protectUntil := some 5, objKey := 8 }, 8, 1, { tile1 with protectUntil := some 5, objKey := 8 }, by decide +kernel⟩

/-- Hypotheses of PliesComplete that are met together. -/
theorem witness_PliesComplete_0 : ∃ s : State, ∃ i, ∃ x : Ply, ∃ m : Member, ∃ c, ∃ p : Prog, Tab.find s.pg.plies i = some x ∧ x.issued.isSome = true ∧ running s = true ∧ x.members = [m] ∧ memberProg s m = some (c, p) ∧ (p.step m.step).phase = .running ∧ m.step < p.steps.length ∧ deadlinePassed s p = false ∧ (opOf (p.word m.step) = some .attDec ∨ opOf (p.word m.step) = some .attPre) :=
  ⟨withPly (runs tiled ({ prog (0x20 + 2 ^ 39 + 2 * 2 ^ 42 + 2 ^ 104) [⟨1, 0, 0, 64, 0⟩, ⟨1, 1, 64, 128, 0⟩, ⟨3, 0, 0, 0, 0⟩] (pblockBytes (zeros 32) ++ zeros 128) with steps := [stepRun], next := 1 })) (plyIn .decode (some 0) (memberIn (some 9))), 0, plyIn .decode (some 0) (memberIn (some 9)), memberIn (some 9), 0, { prog (0x20 + 2 ^ 39 + 2 * 2 ^ 42 + 2 ^ 104) [⟨1, 0, 0, 64, 0⟩, ⟨1, 1, 64, 128, 0⟩, ⟨3, 0, 0, 0, 0⟩] (pblockBytes (zeros 32) ++ zeros 128) with steps := [stepRun], next := 1 }, by decide +kernel⟩

/-- Hypotheses of PliesComplete that are met together. -/
theorem witness_PliesComplete_1 : ∃ s : State, ∃ i, ∃ x : Ply, ∃ m : Member, ∃ c, ∃ p : Prog, ∃ ws : WeightSet, ∃ b : MatBody, Tab.find s.pg.plies i = some x ∧ x.issued.isSome = true ∧ running s = true ∧ x.members = [m] ∧ memberProg s m = some (c, p) ∧ (p.step m.step).phase = .running ∧ m.step < p.steps.length ∧ deadlinePassed s p = false ∧ opOf (p.word m.step) = some .mm ∧ x.weights = some ws ∧ (Tab.find ws.mats (mmOps p (p.word m.step)).mat).bind Matrix.cur = some b :=
  ⟨withPly (runs weighted ({ prog (0x31 + 2 ^ 35 + 2 * 2 ^ 38) [⟨1, 1, 0, 32, 0⟩, ⟨4, 0, 0, 0, 3⟩, ⟨2, 15, 0, 64, 0⟩] (zeros 64) with steps := [stepRun], next := 1 })) ({ plyIn .matrix (some 0) (memberIn none) with weights := some { state := .ready, die := 0, dModel := 16, train := false, mats := [(0, matrix1)], steppers := [], torn := [], gradHolder := none } }), 0, { plyIn .matrix (some 0) (memberIn none) with weights := some { state := .ready, die := 0, dModel := 16, train := false, mats := [(0, matrix1)], steppers := [], torn := [], gradHolder := none } }, memberIn none, 0, { prog (0x31 + 2 ^ 35 + 2 * 2 ^ 38) [⟨1, 1, 0, 32, 0⟩, ⟨4, 0, 0, 0, 3⟩, ⟨2, 15, 0, 64, 0⟩] (zeros 64) with steps := [stepRun], next := 1 }, { state := .ready, die := 0, dModel := 16, train := false, mats := [(0, matrix1)], steppers := [], torn := [], gradHolder := none }, matBody, by decide +kernel⟩

/-- Hypotheses of PliesComplete that are met together. -/
theorem witness_PliesComplete_2 : ∃ keys : List (Option (Span × Nat)), (∀ k ∈ keys, k = none) :=
  ⟨[none], by decide +kernel⟩

/-- Hypotheses of PliesComplete that are met together. -/
theorem witness_PliesComplete_3 : ∃ a : AttIn, ∃ vs, ∃ kv, ∃ keys : List (Option (Span × Nat)), ∃ k, some k ∈ keys ∧ F32.isNan (a.score (versionAt vs k.1.off) k kv) = true :=
  ⟨nanAtt, [(0, QDom.empty, 0)], 0, [some (⟨0, 0, 0, 0, none, tile1⟩, 0)], (⟨0, 0, 0, 0, none, tile1⟩, 0), by decide +kernel⟩

/-- Hypotheses of NearBankSequences that are met together. -/
theorem witness_NearBankSequences_0 : ∃ s : State, ∃ k : Nat, ∃ u : Nat, ∃ q : Seq, activeSeq (getUnit s (k, u)) = none ∧ (getUnit s (k, u)).seqs.find? (fun q => decide (q.state = .queued)) = some q ∧ mayStart s q = true :=
  ⟨withSeq (seqIn .queued), 0, 0, seqIn .queued, by decide +kernel⟩

/-- Hypotheses of NearBankSequences that are met together. -/
theorem witness_NearBankSequences_1 : ∃ s : State, ∃ k : Nat, ∃ u : Nat, ∃ q : Seq, activeSeq (getUnit s (k, u)) = some q ∧ q.state = .running :=
  ⟨withSeq (seqIn .running), 0, 0, seqIn .running, by decide +kernel⟩

/-- Hypotheses of NearBankSequences that are met together. -/
theorem witness_NearBankSequences_2 : ∃ s : State, ∃ k : Nat, ∃ u : Nat, ∃ q : Seq, activeSeq (getUnit s (k, u)) = some q ∧ q.state = .running ∧ q.lock = true ∧ (∀ i, i ∈ batchOf s q (k, u) → (Tab.find (getUnit s (k, u)).lane i).isSome = true) :=
  ⟨locking [(0, List.replicate 16 f32Zero)], 0, 0, lockedSeq, by decide +kernel⟩

/-- Hypotheses of NearBankSequences that are met together. -/
theorem witness_NearBankSequences_3 : ∃ s : State, ∃ k : Nat, ∃ u : Nat, ∃ q : Seq, ∃ y : Seq, activeSeq (getUnit s (k, u)) = some q ∧ q.state = .running ∧ q.lock = true ∧ activeSeq (getUnit (readLane (q.doms.length + 1) s (k, u)) (k, u)) = some y :=
  ⟨locking [], 0, 0, lockedSeq, (activeSeq (getUnit (readLane 2 (locking []) (0, 0)) (0, 0))).getD lockedSeq, by decide +kernel⟩

/-- Hypotheses of NearBankSequences that are met together. -/
theorem witness_NearBankSequences_4 : ∃ s : State, ∃ k : Nat, ∃ u : Nat, ∃ q : Seq, activeSeq (getUnit s (k, u)) = some q ∧ (q.state = .yielded ∨ q.state = .preempted) :=
  ⟨withSeq (seqIn .yielded), 0, 0, seqIn .yielded, by decide +kernel⟩

/-- Hypotheses of NearBankSequences that are met together. -/
theorem witness_NearBankSequences_5 : ∃ s : State, ∃ k : Nat, ∃ u : Nat, ∃ q : Seq, activeSeq (getUnit s (k, u)) = some q ∧ q.state = .running ∧ q.lock = false ∧ q.cancel = none ∧ q.due = true :=
  ⟨withSeq ({ seqIn .running with due := true }), 0, 0, { seqIn .running with due := true }, by decide +kernel⟩

/-- Hypotheses of NearBankSequences that are met together. -/
theorem witness_NearBankSequences_6 : ∃ s : State, ∃ k : Nat, ∃ u : Nat, ∃ q : Seq, ∃ i, ∃ rest : List Nat, ∃ fs : List Flip, activeSeq (getUnit s (k, u)) = some q ∧ q.state = .running ∧ q.lock = false ∧ q.cancel = none ∧ q.due = false ∧ q.doms = i :: rest ∧ ((Tab.find (getUnit s (k, u)).lane i).isSome = true ∨ (readDomain (applyFlips s fs) q (k, u) i).1 = none) ∧ q.pass = false ∧ q.blks = [] :=
  ⟨withSeq (seqIn .running), 0, 0, seqIn .running, 0, [], [], by decide +kernel⟩

/-- Hypotheses of NearBankSequences that are met together. -/
theorem witness_NearBankSequences_7 : ∃ s : State, ∃ k : Nat, ∃ u : Nat, ∃ q : Seq, activeSeq (getUnit s (k, u)) = some q ∧ q.state = .running ∧ q.lock = true ∧ q.cancel = none ∧ q.due = false :=
  ⟨withSeq ({ seqIn .running with lock := true }), 0, 0, { seqIn .running with lock := true }, by decide +kernel⟩

/-- Hypotheses of NearBankSequences that are met together. -/
theorem witness_NearBankSequences_8 : ∃ s : State, ∃ k : Nat, ∃ u : Nat, ∃ q : Seq, ∃ i, ∃ fs : List Flip, activeSeq (getUnit s (k, u)) = some q ∧ q.state = .running ∧ q.lock = true ∧ q.cancel = none ∧ q.due = false ∧ (batchOf (applyFlips s fs) q (k, u)).find? (fun i => (Tab.find (getUnit s (k, u)).lane i).isNone) = some i ∧ (readDomain (applyFlips s fs) q (k, u) i).1 = none :=
  ⟨locking [], 0, 0, lockedSeq, 0, [], by decide +kernel⟩

/-- Hypotheses of NearBankSequences that are met together. -/
theorem witness_NearBankSequences_9 : ∃ s : State, ∃ k : Nat, ∃ u : Nat, ∃ q : Seq, ∃ c, ∃ p : Prog, activeSeq (getUnit s (k, u)) = some q ∧ q.state = .running ∧ q.cancel = none ∧ q.doms = [] ∧ ctxOf s q.lsn = some c ∧ getCtx s c = some p ∧ (p.step q.step).phase = .running ∧ q.step < p.steps.length ∧ (p.step q.step).seqs = 1 ∧ (p.step q.step).stages = 0 ∧ (p.step q.step).poll = false ∧ (p.step q.step).seqStatus = [] ∧ deadlinePassed s p = false ∧ q.pass = false ∧ q.blks = [] :=
  ⟨{ runs admittedNode ({ prog 0x40 [] [] with steps := [{ stepRun with seqs := 1 }], next := 1 }) with nb := { NearBank.reset with units := [((0, 0), { Unit'.reset with seqs := [{ seqIn .running with doms := [] }] })] } }, 0, 0, { seqIn .running with doms := [] }, 0, { prog 0x40 [] [] with steps := [{ stepRun with seqs := 1 }], next := 1 }, by decide +kernel⟩

/-- Hypotheses of PollReadsEndPolledSteps that are met together. -/
theorem witness_PollReadsEndPolledSteps_0 : ∃ s : State, ∃ c, ∃ k, ∃ p : Prog, 0 < s.nb.poll ∧ getCtx s c = some p ∧ k < p.next ∧ k < p.steps.length ∧ (p.step k).phase = .running ∧ (p.step k).poll = true ∧ (p.step k).seqs = 0 ∧ (p.step k).stages = 0 ∧ (c, p) ∈ s.pg.ctxs ∧ (∀ d q, (d, q) ∈ s.pg.ctxs → q.deadline = none ∧ ∀ j, (q.step j).seqStatus = []) :=
  ⟨{ runs admittedNode ({ prog 0x40 [] [] with steps := [{ stepRun with poll := true }], next := 1 }) with nb := { NearBank.reset with poll := 1 } }, 0, 0, { prog 0x40 [] [] with steps := [{ stepRun with poll := true }], next := 1 }, by
    repeat' apply And.intro
    all_goals try decide +kernel
    intro d q h
    obtain ⟨rfl, rfl⟩ := Prod.mk.injEq .. ▸ List.mem_singleton.mp (show (d, q) ∈ [(0, { prog 0x40 [] [] with steps := [{ stepRun with poll := true }], next := 1 })] from h)
    exact ⟨rfl, fun j => by cases j <;> rfl⟩⟩

/-- Hypotheses of SramErrorsAndEventIntervals that are met together. -/
theorem witness_SramErrorsAndEventIntervals_0 : ∃ s : State, ∃ place : SramPlace, running s = true ∧ (∀ d, place ≠ .dieMeta d) :=
  ⟨node, .dieData 0, by decide +kernel, by intro d h; cases h⟩

/-- Hypotheses of SramErrorsAndEventIntervals that are met together. -/
theorem witness_SramErrorsAndEventIntervals_1 : ∃ s : State, ∃ c : Nat, ∃ p : Nat, running s = true ∧ issuedPlies s = [] ∧ Tab.find s.cores.sramErr (c, p) = none :=
  ⟨node, 1, 2, by decide +kernel⟩

/-- Hypotheses of SramErrorsAndEventIntervals that are met together. -/
theorem witness_SramErrorsAndEventIntervals_2 : ∃ s : State, ∃ c : Nat, ∃ p : Nat, ∃ t0 : Time, running s = true ∧ issuedPlies s = [] ∧ c < 8 ∧ p < 9 ∧ Tab.find s.cores.sramErr (c, p) = some [t0] ∧ s.time ≤ t0 + s.cores.retireWindow * 1000000000 ∧ isRetired s c p = false ∧ (spareMap s c).spare ≠ p ∧ pendingReason s (c, p) = none :=
  ⟨{ node with cores := { Cores.reset with sramErr := [((1, 2), [0])] } }, 1, 2, 0, by decide +kernel⟩

/-- Hypotheses of SramErrorsAndEventIntervals that are met together. -/
theorem witness_SramErrorsAndEventIntervals_3 : ∃ s : State, running s = true ∧ started s = true ∧ s.rst.ctlRunning = false :=
  ⟨node, by decide +kernel⟩

/-- Hypotheses of SramErrorsAndEventIntervals that are met together. -/
theorem witness_SramErrorsAndEventIntervals_4 : ∃ s : State, ∃ t0 : Time, ∃ n : Nat, ∃ e : EccEvt, ∃ b : Nat, s.mem.eccWindow = some (t0, n, some e, b) :=
  ⟨{ node with mem := { Memory.reset with eccWindow := some (0, 64, some ⟨0, 0, 1, 5, 9, 0, 0, 3⟩, 2) } }, 0, 64, ⟨0, 0, 1, 5, 9, 0, 0, 3⟩, 2, by decide +kernel⟩

/-- Hypotheses of SramErrorsAndEventIntervals that are met together. -/
theorem witness_SramErrorsAndEventIntervals_5 : ∃ s : State, ∃ t0 : Time, ∃ n : Nat, ∃ b : Nat, s.mem.eccWindow = some (t0, n, none, b) :=
  ⟨{ node with mem := { Memory.reset with eccWindow := some (0, 3, none, 0) } }, 0, 3, 0, by decide +kernel⟩

/-- Hypotheses of IntegrityCodeLimits that are met together. -/
theorem witness_IntegrityCodeLimits_0 : ∃ i, i < 563 :=
  ⟨562, by decide +kernel⟩

/-- Hypotheses of IntegrityCodeLimits that are met together. -/
theorem witness_IntegrityCodeLimits_1 : ∃ i, ∃ j, i < 563 ∧ j < 563 ∧ i ≠ j :=
  ⟨0, 562, by decide +kernel⟩

/-- Hypotheses of IntegrityCodeLimits that are met together. -/
theorem witness_IntegrityCodeLimits_2 : ∃ r, ∃ q, ∃ a, ∃ b, r < 16 ∧ q < 16 ∧ a < 32 ∧ b < 32 ∧ r ≠ q ∧ a ≠ b :=
  ⟨0, 15, 0, 31, by decide +kernel⟩

/-- Hypotheses of IntegrityCodeLimits that are met together. -/
theorem witness_IntegrityCodeLimits_4 : ∃ m : BitVec 13, m ≠ 0 :=
  ⟨1, by decide +kernel⟩

/-- Hypotheses of PoisonedBlocksStayPoisoned that are met together. -/
theorem witness_PoisonedBlocksStayPoisoned_0 : ∃ r : Nat, r < 16 :=
  ⟨15, by decide +kernel⟩

/-- Hypotheses of PoisonedBlocksStayPoisoned that are met together. -/
theorem witness_PoisonedBlocksStayPoisoned_1 : ∃ c : Nat, c < 32 :=
  ⟨31, by decide +kernel⟩

/-- Hypotheses of PoisonedBlocksStayPoisoned that are met together. -/
theorem witness_PoisonedBlocksStayPoisoned_3 : ∃ i : Nat, 51 ≤ i :=
  ⟨63, by decide +kernel⟩

/-- Hypotheses of PoisonedBlocksStayPoisoned that are met together. -/
theorem witness_PoisonedBlocksStayPoisoned_4 : ∃ i : Nat, i < 48 :=
  ⟨47, by decide +kernel⟩

/-- Hypotheses of PoisonedBlocksStayPoisoned that are met together. -/
theorem witness_PoisonedBlocksStayPoisoned_9 : ∃ b : Blk, classify b = .uncorrectable :=
  ⟨⟨3, (sealedBlk 0).check⟩, by decide +kernel⟩

/-- Hypotheses of PoisonedBlocksStayPoisoned that are met together. -/
theorem witness_PoisonedBlocksStayPoisoned_10 : ∃ b : Blk, ∃ c : Blk, classify b = .corrected c :=
  ⟨⟨1, (sealedBlk 0).check⟩, sealedBlk 0, by decide +kernel⟩

/-- Hypotheses of DirectoryLookupsAnswer that are met together. -/
theorem witness_DirectoryLookupsAnswer_0 : ∃ h : Nat, ∃ low : Nat, ∃ high : Nat, h < 2 ∧ low ≤ high :=
  ⟨1, 3, 4, by decide +kernel⟩

/-- Hypotheses of DirectoryLookupsAnswer that are met together. -/
theorem witness_DirectoryLookupsAnswer_1 : ∃ x : Half, (∀ r ∈ x.rows, r.2.tag = dirTag r.2.tenant r.2.stream) :=
  ⟨halfWith .valid, by decide +kernel⟩

/-- Hypotheses of DirectoryLookupsAnswer that are met together. -/
theorem witness_DirectoryLookupsAnswer_2 : ∃ x : Half, ∃ l : Lookup, ∃ rs : List Row, ∃ r : Row, (∀ r ∈ x.rows, r.2.tag = dirTag r.2.tenant r.2.stream) ∧ lookupOutcome x l = .rows rs :=
  ⟨halfWith .valid, ⟨5, 9, 0, 4⟩, [rowOf .valid], rowOf .valid, by decide +kernel, by decide +kernel⟩

/-- Hypotheses of DirectoryLookupsAnswer that are met together. -/
theorem witness_DirectoryLookupsAnswer_4 : ∃ x : Half, ∃ l : Lookup, ∃ rs : List Row, (∀ r ∈ x.rows, r.2.tag = dirTag r.2.tenant r.2.stream) ∧ lookupOutcome x l = .rows rs ∧ RowsOrdered x.rows :=
  ⟨halfWith .valid, ⟨5, 9, 0, 4⟩, [rowOf .valid], by decide +kernel, by decide +kernel, by unfold RowsOrdered; decide +kernel⟩

/-- Hypotheses of DirectoryLookupsAnswer that are met together. -/
theorem witness_DirectoryLookupsAnswer_5 : ∃ s : State, ∃ h : Nat, ∃ req, ∃ l : Lookup, Tab.find (getHalf s h).lookups req = some l :=
  ⟨withHalf { Half.reset with lookups := [(4, ⟨5, 9, 0, 4⟩)] }, 0, 4, ⟨5, 9, 0, 4⟩, by decide +kernel⟩

/-- Hypotheses of DirectoryStagesAndSpreads that are met together. -/
theorem witness_DirectoryStagesAndSpreads_0 : ∃ s : State, ∃ h, ∃ q : StageReq, ∃ r : List StageReq, (getHalf s h).waiting = q :: r ∧ (getHalf s h).queue.length < 64 :=
  ⟨withHalf { Half.reset with waiting := [stageIn] }, 0, stageIn, [], by decide +kernel⟩

/-- Hypotheses of DirectoryStagesAndSpreads that are met together. -/
theorem witness_DirectoryStagesAndSpreads_1 : ∃ s : State, ∃ h, 64 ≤ (getHalf s h).queue.length :=
  ⟨withHalf { Half.reset with queue := List.replicate 64 stageIn }, 0, by decide +kernel⟩

/-- Hypotheses of DirectoryStagesAndSpreads that are met together. -/
theorem witness_DirectoryStagesAndSpreads_2 : ∃ s : State, ∃ h, ∃ q : StageReq, ∃ rest : List StageReq, ∃ rows : List (Nat × Row), ∃ m, (getHalf s h).queue = q :: rest ∧ (getHalf s h).rows.any (fun r => r.2.of q.tenant q.stream && r.2.state == .pending) = false ∧ stageRow (getHalf s h).rows q.row = some (rows, m) ∧ (∀ p, getCtx s q.ctx = some p → (p.step q.step).seqStatus = [] ∧ p.deadline = none ∧ ∀ o, (p.step q.step).outs = some o → o.plain = true) :=
  ⟨withHalf { Half.reset with queue := [stageIn] }, 0, stageIn, [], ((stageRow [] stageIn.row).getD ([], 0)).1, ((stageRow [] stageIn.row).getD ([], 0)).2, by decide +kernel, by decide +kernel, by decide +kernel, by intro p h; rw [show getCtx (withHalf { Half.reset with queue := [stageIn] }) stageIn.ctx = none from by decide +kernel] at h; cases h⟩

/-- Hypotheses of DirectoryStagesAndSpreads that are met together. -/
theorem witness_DirectoryStagesAndSpreads_3 : ∃ s : State, ∃ h, ∃ q : StageReq, ∃ rest : List StageReq, (getHalf s h).queue = q :: rest ∧ (getHalf s h).rows.any (fun r => r.2.of q.tenant q.stream && r.2.state == .pending) = true :=
  ⟨withHalf { halfWith .pending with queue := [stageIn] }, 0, stageIn, [], by decide +kernel⟩

/-- Hypotheses of DirectoryStagesAndSpreads that are met together. -/
theorem witness_DirectoryStagesAndSpreads_4 : ∃ s : State, ∃ h, (getHalf s h).queue = [] ∧ (getHalf s h).rows ≠ [] :=
  ⟨withHalf (halfWith .valid), 0, by decide +kernel⟩

/-- Hypotheses of DirectoryStagesAndSpreads that are met together. -/
theorem witness_DirectoryStagesAndSpreads_5 : ∃ s : State, (∀ c p, (c, p) ∈ s.pg.ctxs → p.state ≠ .committing) :=
  ⟨admittedNode, fun c p h => absurd (show (c, p) ∈ ([] : List (Nat × Prog)) from h) List.not_mem_nil⟩

/-- Hypotheses of StagingKeepsTheRowsInOrder that are met together. -/
theorem witness_StagingKeepsTheRowsInOrder_0 : ∃ rows : List (Nat × Row), ∃ r : Row, ∃ rows', ∃ m, RowsOrdered rows ∧ stageRow rows r = some (rows', m) :=
  ⟨[], rowOf .pending, ((stageRow [] (rowOf .pending)).getD ([], 0)).1, ((stageRow [] (rowOf .pending)).getD ([], 0)).2, by unfold RowsOrdered; decide, by decide +kernel⟩

/-- Hypotheses of StagingKeepsTheRowsInOrder that are met together. -/
theorem witness_StagingKeepsTheRowsInOrder_1 : ∃ rows : List (Nat × Row), RowsOrdered rows :=
  ⟨[(0, rowOf .valid)], by unfold RowsOrdered; decide +kernel⟩

/-- Hypotheses of TilesMoveBetweenTiers that are met together. -/
theorem witness_TilesMoveBetweenTiers_0 : ∃ s : State, ∃ i : Nat, ∃ d : Drain, Tab.find s.mem.drains i = some d ∧ d.desc = none ∧ (∀ p ∈ d.plies, Tab.find s.pg.plies p = none) :=
  ⟨{ admittedNode with mem := { Memory.reset with drains := [(0, ⟨5, false, [], none, none, [7]⟩)] } }, 0, ⟨5, false, [], none, none, [7]⟩, by decide +kernel⟩

/-- Hypotheses of TilesMoveBetweenTiers that are met together. -/
theorem witness_TilesMoveBetweenTiers_1 : ∃ s : State, ∃ i : Nat, ∃ d : Drain, ∃ p : Nat, ∃ x : Ply, Tab.find s.mem.drains i = some d ∧ p ∈ d.plies ∧ Tab.find s.pg.plies p = some x ∧ x.issued.isSome = true :=
  ⟨withPly { admittedNode with mem := { Memory.reset with drains := [(0, ⟨5, false, [], none, none, [0]⟩)] } } (plyIn .decode (some 0) (memberIn (some 9))), 0, ⟨5, false, [], none, none, [0]⟩, 0, plyIn .decode (some 0) (memberIn (some 9)), by decide +kernel⟩

/-- Hypotheses of TilesMoveBetweenTiers that are met together. -/
theorem witness_TilesMoveBetweenTiers_2 : ∃ s : State, ∃ o, ∃ x : Tile, ∃ a b l, getTile s o = some x ∧ running s = true ∧ copyDue s x = true ∧ readTile s o = (false, s) ∧
    (targetsOf s x).filter (reachable s) = a :: b :: l := by
  have e : targetsOf ({ tiledAs ({ tile1 with isSealed := true }) with trust := { Trust.reset with tenants := [(5, { tenantIn with policy := 1 })] } }) ({ tile1 with isSealed := true }) =
      (let l : List Nat := [0x0150, 0x0151, 0x0152]; let i := Config.poolHash 5 9 0 0 % 3; dedup (l.drop i ++ l.take i)) := rfl
  have h : Config.poolHash 5 9 0 0 % 3 = 0 ∨ Config.poolHash 5 9 0 0 % 3 = 1 ∨ Config.poolHash 5 9 0 0 % 3 = 2 := by omega
  rcases h with h | h | h
  · exact ⟨{ tiledAs ({ tile1 with isSealed := true }) with trust := { Trust.reset with tenants := [(5, { tenantIn with policy := 1 })] } }, 1, { tile1 with isSealed := true }, 0x0150, 0x0151, [], by decide +kernel, by decide +kernel, by decide +kernel, readTile_clean (x := { tile1 with isSealed := true }) (by decide +kernel) (by decide +kernel) (by decide +kernel) (by decide +kernel), by rw [e, h]; decide +kernel⟩
  · exact ⟨{ tiledAs ({ tile1 with isSealed := true }) with trust := { Trust.reset with tenants := [(5, { tenantIn with policy := 1 })] } }, 1, { tile1 with isSealed := true }, 0x0151, 0x0150, [], by decide +kernel, by decide +kernel, by decide +kernel, readTile_clean (x := { tile1 with isSealed := true }) (by decide +kernel) (by decide +kernel) (by decide +kernel) (by decide +kernel), by rw [e, h]; decide +kernel⟩
  · exact ⟨{ tiledAs ({ tile1 with isSealed := true }) with trust := { Trust.reset with tenants := [(5, { tenantIn with policy := 1 })] } }, 1, { tile1 with isSealed := true }, 0x0150, 0x0151, [], by decide +kernel, by decide +kernel, by decide +kernel, readTile_clean (x := { tile1 with isSealed := true }) (by decide +kernel) (by decide +kernel) (by decide +kernel) (by decide +kernel), by rw [e, h]; decide +kernel⟩

/-- Hypotheses of TilesMoveBetweenTiers that are met together. -/
theorem witness_TilesMoveBetweenTiers_3 : ∃ s : State, ∃ o : Nat, ∃ n : Nat, ∃ x : Tile, ∃ r : Replica, getTile s o = some x ∧ x.replicas.find? (fun r => r.node == n && !r.acked) = some r ∧ (x.tier = .copying ∨ x.tier = .backed) ∧ effRole s ≠ roleShadow ∧ x.body ≠ [] ∧ readTile (reach s (r.at' + 2000000)) o = (false, reach s (r.at' + 2000000)) :=
  ⟨tiledAs ({ tile1 with isSealed := true, tier := .copying, replicas := [⟨0x0150, false, 0⟩] }), 1, 0x0150, { tile1 with isSealed := true, tier := .copying, replicas := [⟨0x0150, false, 0⟩] }, ⟨0x0150, false, 0⟩, by refine ⟨?_, ?_, ?_, ?_, ?_, readTile_clean (x := { tile1 with isSealed := true, tier := .copying, replicas := [⟨0x0150, false, 0⟩] }) (by decide +kernel) (by decide +kernel) (by decide +kernel) (by decide +kernel)⟩ <;> decide +kernel⟩

/-- Hypotheses of TilesMoveBetweenTiers that are met together. -/
theorem witness_TilesMoveBetweenTiers_4 : ∃ s : State, ∃ o : Nat, ∃ n : Nat, ∃ x : Tile, ∃ r : Replica, getTile s o = some x ∧ x.replicas.find? (fun r => r.node == n && !r.acked) = some r ∧ (x.body = [] ∨ effRole s = roleShadow) ∧ (readTile (reach s (r.at' + 2000000)) o = (false, reach s (r.at' + 2000000)) ∨ x.body = []) :=
  ⟨tiledAs { tile1 with isSealed := true, tier := .backed, body := [], replicas := [⟨0x0150, false, 0⟩] }, 1, 0x0150, { tile1 with isSealed := true, tier := .backed, body := [], replicas := [⟨0x0150, false, 0⟩] }, ⟨0x0150, false, 0⟩, by refine ⟨?_, ?_, ?_, .inr ?_⟩ <;> decide +kernel⟩

/-- Hypotheses of TilesMoveBetweenTiers that are met together. -/
theorem witness_TilesMoveBetweenTiers_5 : ∃ s : State, ∃ die : Nat, running s = true ∧ lowMark s die ≤ freePool s die :=
  ⟨admittedNode, 0, by decide +kernel⟩

/-- Hypotheses of TilesMoveBetweenTiers that are met together. -/
theorem witness_TilesMoveBetweenTiers_6 : ∃ s : State, ∃ die : Nat, running s = true ∧ freePool s die < lowMark s die ∧ s.mem.tiles.keys.Nodup :=
  ⟨{ tiled with mem := { tiled.mem with wmLow := [(0, 10000000)] } }, 0, by decide +kernel, by decide +kernel, by decide +kernel⟩

/-- Hypotheses of TilesMoveBetweenTiers that are met together. -/
theorem witness_TilesMoveBetweenTiers_7 : ∃ s : State, ∃ o : Nat, ∃ x : Tile, getTile s o = some x ∧ running s = true ∧ x.body ≠ [] ∧ x.isSealed = true ∧ x.poisoned = false ∧ x.tier ≠ .fetching ∧ readTile s o = (false, s) ∧ poolFits s (1 - x.die) (tileGranules x) true = true :=
  ⟨tiledAs ({ tile1 with isSealed := true }), 1, { tile1 with isSealed := true }, by refine ⟨?_, ?_, ?_, ?_, ?_, ?_, readTile_clean (x := { tile1 with isSealed := true }) (by decide +kernel) (by decide +kernel) (by decide +kernel) (by decide +kernel), ?_⟩ <;> decide +kernel⟩

/-- Hypotheses of FetchesAreRetried that are met together. -/
theorem witness_FetchesAreRetried_0 : ∃ s : State, ∃ k : Nat, ∃ f : Fetch, Tab.find s.mem.fetches k = some f ∧ f.retryAt.isSome = true :=
  ⟨fetching ({ fetchIn (.tile 1) with retryAt := some 5 }), 55, { fetchIn (.tile 1) with retryAt := some 5 }, by decide +kernel⟩

/-- Hypotheses of FetchesAreRetried that are met together. -/
theorem witness_FetchesAreRetried_1 : ∃ s : State, ∃ k : Nat, ∃ f : Fetch, Tab.find s.mem.fetches k = some f ∧ f.retryAt = none ∧ f.pieces = 1 ∧ f.got = [] ∧ f.failed = [] ∧ f.goneFrom = [] ∧ f.cur = 0 ∧ 2 ≤ f.replicas.length :=
  ⟨fetching (fetchIn (.tile 1)), 55, fetchIn (.tile 1), by decide +kernel⟩

/-- Hypotheses of FetchesAreRetried that are met together. -/
theorem witness_FetchesAreRetried_2 : ∃ s : State, ∃ k : Nat, ∃ f : Fetch, Tab.find s.mem.fetches k = some f ∧ f.retryAt = none ∧ f.pieces = 1 ∧ f.got = [] ∧ f.failed = [] ∧ f.goneFrom = [] ∧ f.cur = 0 ∧ f.poisonFrom = [] ∧ f.replicas.length = 1 :=
  ⟨fetching ({ fetchIn (.tile 1) with replicas := [0x0150] }), 55, { fetchIn (.tile 1) with replicas := [0x0150] }, by decide +kernel⟩

/-- Hypotheses of FetchesAreRetried that are met together. -/
theorem witness_FetchesAreRetried_3 : ∃ s : State, ∃ k : Nat, ∃ f : Fetch, ∃ t0 : Time, Tab.find s.mem.fetches k = some f ∧ f.key = k ∧ f.retryAt = some t0 ∧ dependsOn (reach s t0) f = true :=
  ⟨runs (fetching ({ fetchIn (.tile 1) with retryAt := some 5, waiter := some (77, 0) })) (prog 0 [] []), 55, { fetchIn (.tile 1) with retryAt := some 5, waiter := some (77, 0) }, 5, by decide +kernel⟩

/-- Hypotheses of FetchesAreRetried that are met together. -/
theorem witness_FetchesAreRetried_4 : ∃ s : State, ∃ k : Nat, ∃ f : Fetch, ∃ t0 : Time, ∃ o : Nat, ∃ x : Tile, Tab.find s.mem.fetches k = some f ∧ f.key = k ∧ f.retryAt = some t0 ∧ dependsOn (reach s t0) f = false ∧ f.obj = .tile o ∧ getTile s o = some x ∧ x.tier = .fetching :=
  ⟨fetching ({ fetchIn (.tile 1) with retryAt := some 5 }), 55, { fetchIn (.tile 1) with retryAt := some 5 }, 5, 1, { tile1 with tier := .fetching, isSealed := true }, by decide +kernel⟩

/-- Hypotheses of FetchesAreRetried that are met together. -/
theorem witness_FetchesAreRetried_5 : ∃ s : State, ∃ n : Nat, ∃ b : List Byte, ∃ f : Fetch, ∃ p : List Byte, ∃ d : List Byte, hears s = true ∧ effRole s ≠ roleUnplaced ∧ 32 ≤ b.length ∧ (tierMsgOf b).op = 4 ∧ (tierMsgOf b).result = 0 ∧ Tab.find s.mem.fetches (tierMsgOf b).obj = some f ∧ (tierMsgOf b).req = f.req ∧ f.replicas.contains n = true ∧ f.retryAt = none ∧ cutPieces (tierMsgOf b).body = [p] ∧ checkPiece p = some d ∧ missingPieces { f with got := Tab.put f.got (tierMsgOf b).first d } ≠ [] :=
  ⟨fetching ({ fetchIn (.tile 1) with pieces := 2 }), 0x0150, tierBytes 4 0 0 55 0 3 (zeros 576), { fetchIn (.tile 1) with pieces := 2 }, zeros 576, zeros 512, by decide +kernel⟩

/-- Hypotheses of FetchesAreRetried that are met together. -/
theorem witness_FetchesAreRetried_6 : ∃ s : State, ∃ n : Nat, ∃ b : List Byte, ∃ f : Fetch, hears s = true ∧ effRole s ≠ roleUnplaced ∧ Tab.find s.mem.fetches (tierMsgOf b).obj = some f ∧ ((tierMsgOf b).req ≠ f.req ∨ f.replicas.contains n = false ∨ f.retryAt.isSome = true) :=
  ⟨fetching (fetchIn (.tile 1)), 0x0150, tierBytes 4 0 0 55 0 4 (zeros 576), fetchIn (.tile 1), by decide +kernel⟩

/-- Hypotheses of FetchesAreRetried that are met together. -/
theorem witness_FetchesAreRetried_7 : ∃ s : State, ∃ n : Nat, ∃ b : List Byte, hears s = true ∧ effRole s ≠ roleUnplaced ∧ Tab.find s.mem.fetches (tierMsgOf b).obj = none ∧ wantsObject s n (tierMsgOf b).obj = none :=
  ⟨admittedNode, 0x0150, tierBytes 4 0 0 56 0 3 [], by decide +kernel⟩

/-- Hypotheses of PoolServesTierMessages that are met together. -/
theorem witness_PoolServesTierMessages_0 : ∃ s : State, ∃ b : List Byte, hears s = true ∧ 32 ≤ b.length ∧ (tierMsgOf b).op = 1 ∧ effRole s ≠ rolePool ∧ effRole s ≠ roleUnplaced :=
  ⟨admittedNode, tierBytes 1 0 1 8 0 0 [], by decide +kernel⟩

/-- Hypotheses of PoolServesTierMessages that are met together. -/
theorem witness_PoolServesTierMessages_1 : ∃ s : State, ∃ b : List Byte, hears s = true ∧ 32 ≤ b.length ∧ (tierMsgOf b).op = 1 ∧ effRole s = rolePool ∧ (Tab.find s.fab.poolObjs (tierMsgOf b).obj).isSome = true :=
  ⟨{ poolNode with fab := { poolNode.fab with poolObjs := [(8, ([], []))] } }, tierBytes 1 0 1 8 0 0 [], by decide +kernel⟩

/-- Hypotheses of PoolServesTierMessages that are met together. -/
theorem witness_PoolServesTierMessages_2 : ∃ s : State, ∃ b : List Byte, hears s = true ∧ 32 ≤ b.length ∧ (tierMsgOf b).op = 1 ∧ effRole s = rolePool ∧ Tab.find s.fab.poolObjs (tierMsgOf b).obj = none ∧ (tierMsgOf b).granules ≠ 0 ∧ (cutPieces (tierMsgOf b).body).length = (tierMsgOf b).granules ∧ (∀ p ∈ cutPieces (tierMsgOf b).body, (checkPiece p).isSome = true) ∧ poolRoom s (roomierDie s) (tierMsgOf b).granules = true :=
  ⟨poolNode, tierBytes 1 0 1 8 0 0 (zeros 576), by decide +kernel⟩

/-- Hypotheses of PoolServesTierMessages that are met together. -/
theorem witness_PoolServesTierMessages_3 : ∃ s : State, ∃ b : List Byte, hears s = true ∧ effRole s ≠ roleUnplaced ∧ 32 ≤ b.length ∧ (tierMsgOf b).op = 3 ∧ Tab.find s.fab.poolObjs (tierMsgOf b).obj = none ∧ Tab.find s.fab.served (tierMsgOf b).obj = none :=
  ⟨poolNode, tierBytes 3 0 1 8 0 0 [], by decide +kernel⟩

/-- Hypotheses of PoolServesTierMessages that are met together. -/
theorem witness_PoolServesTierMessages_4 : ∃ s : State, ∃ b : List Byte, ∃ x : Nat × List Byte, hears s = true ∧ effRole s ≠ roleUnplaced ∧ 32 ≤ b.length ∧ (tierMsgOf b).op = 3 ∧ Tab.find s.fab.poolObjs (tierMsgOf b).obj = none ∧ Tab.find s.fab.served (tierMsgOf b).obj = some x :=
  ⟨{ poolNode with fab := { poolNode.fab with served := [(8, (5, []))] } }, tierBytes 3 0 1 8 0 0 [], (5, []), by decide +kernel⟩

/-- Hypotheses of PoolServesTierMessages that are met together. -/
theorem witness_PoolServesTierMessages_5 : ∃ s : State, ∃ b : List Byte, hears s = true ∧ effRole s ≠ roleUnplaced ∧ 32 ≤ b.length ∧ (tierMsgOf b).op = 5 :=
  ⟨node, tierBytes 5 0 1 8 0 0 [], by decide +kernel⟩

/-- Hypotheses of PoolServesTierMessages that are met together. -/
theorem witness_PoolServesTierMessages_6 : ∃ s : State, hears s = true ∧ effRole s ≠ roleUnplaced :=
  ⟨node, by decide +kernel⟩

/-- Hypotheses of PoolServesTierMessages that are met together. -/
theorem witness_PoolServesTierMessages_7 : ∃ s : State, ∃ n : Nat, ∃ m : Nat, ∃ b : List Byte, ∃ o : Nat, ∃ x : Tile, hears s = true ∧ effRole s ≠ roleUnplaced ∧ 32 ≤ b.length ∧ (tierMsgOf b).op = 2 ∧ ((tierMsgOf b).result = 0 ∨ (tierMsgOf b).result = 3) ∧ s.mem.tiles.find? (fun t => t.2.objKey == (tierMsgOf b).obj && t.2.replicas.any (fun r => r.node == n && !r.acked)) = some (o, x) ∧ getTile s o = some x ∧ x.tier = .copying ∧ x.replicas = [⟨n, false, 0⟩, ⟨m, true, 0⟩] ∧ gone s x.tenant = false :=
  ⟨tiledAs ({ tile1 with isSealed := true, tier := .copying, objKey := 8, replicas := [⟨0x0150, false, 0⟩, ⟨0x0151, true, 0⟩] }), 0x0150, 0x0151, tierBytes 2 0 1 8 0 0 [], 1, { tile1 with isSealed := true, tier := .copying, objKey := 8, replicas := [⟨0x0150, false, 0⟩, ⟨0x0151, true, 0⟩] }, by refine ⟨?_, ?_, ?_, ?_, .inl ?_, ?_, ?_, ?_, ?_, ?_⟩ <;> decide +kernel⟩

/-- Hypotheses of PoolServesTierMessages that are met together. -/
theorem witness_PoolServesTierMessages_8 : ∃ s : State, ∃ n : Nat, ∃ b : List Byte, ∃ x : Nat × Nat × Nat, hears s = true ∧ effRole s ≠ roleUnplaced ∧ 32 ≤ b.length ∧ (tierMsgOf b).op = 2 ∧ ((tierMsgOf b).result = 0 ∨ (tierMsgOf b).result = 3) ∧ s.mem.tiles.find? (fun t => t.2.objKey == (tierMsgOf b).obj && t.2.replicas.any (fun r => r.node == n && !r.acked)) = none ∧ s.mem.cancelled.find? (fun x => x.2.1 == (tierMsgOf b).obj && x.2.2 == n) = some x ∧ gone s x.1 = false :=
  ⟨{ admittedNode with mem := { Memory.reset with cancelled := [(5, 8, 0x0150)] } }, 0x0150, tierBytes 2 0 1 8 0 0 [], (5, 8, 0x0150), by decide +kernel⟩

/-- Hypotheses of PoolServesTierMessages that are met together. -/
theorem witness_PoolServesTierMessages_9 : ∃ s : State, ∃ n : Nat, ∃ b : List Byte, ∃ o : Nat, ∃ x : Tile, hears s = true ∧ effRole s ≠ roleUnplaced ∧ s.mem.tiles.find? (fun t => t.2.objKey == (tierMsgOf b).obj && t.2.replicas.any (fun r => r.node == n && !r.acked)) = some (o, x) ∧ (getTenant s x.tenant).state = .tombstone :=
  ⟨{ tiledAs ({ tile1 with isSealed := true, tier := .copying, objKey := 8, replicas := [⟨0x0150, false, 0⟩] }) with trust := { Trust.reset with tenants := [(5, { tenantIn with state := .tombstone })] } }, 0x0150, tierBytes 2 0 1 8 0 0 [], 1, { tile1 with isSealed := true, tier := .copying, objKey := 8, replicas := [⟨0x0150, false, 0⟩] }, by decide +kernel⟩

/-- Hypotheses of PoolServesTierMessages that are met together. -/
theorem witness_PoolServesTierMessages_10 : ∃ s : State, ∃ n : Nat, ∃ b : List Byte, ∃ c : Instr, c ∈ [.tierPut n b, .tierPutAck n b, .tierGet n b, .tierData n b, .tierRelease n b, .tierReleaseAck n b, .migrationOffer n b, .migrationAnswer n b] ∧ hears s = true ∧ effRole s = roleUnplaced :=
  ⟨booted 3, 0x0150, [], .migrationAnswer 0x0150 [], by decide +kernel⟩

/-- Hypotheses of PoolServesTierMessages that are met together. -/
theorem witness_PoolServesTierMessages_11 : ∃ s : State, ∃ n : Nat, ∃ b : List Byte, ∃ c : Instr, c ∈ [.tierPut n b, .tierPutAck n b, .tierGet n b, .tierData n b, .tierRelease n b, .tierReleaseAck n b, .migrationOffer n b, .migrationAnswer n b] ∧ running s = true ∧ hears s = false :=
  ⟨{ booted 3 with rst := { (booted 3).rst with ctlRunning := true } }, 0x0150, [], .migrationAnswer 0x0150 [], by decide +kernel⟩

/-- Hypotheses of MigrationIsProposed that are met together. -/
theorem witness_MigrationIsProposed_0 : ∃ s : State, ∃ r : Nat, ∃ te : Nat, ∃ st : Nat, ∃ n : Nat, serving s = true ∧ placed s = true ∧ effRole s ≠ roleShadow ∧ Tab.find s.fab.proposals (te, st) = none ∧ Tab.find s.fab.withdrawn (te, st) = none ∧ reasonHolds s r te = true ∧ neighbour s n = true :=
  ⟨node, 3, 5, 9, 0x0150, by decide +kernel⟩

/-- Hypotheses of MigrationIsProposed that are met together. -/
theorem witness_MigrationIsProposed_1 : ∃ s : State, ∃ te : Nat, ∃ st : Nat, ∃ p : Proposal, running s = true ∧ Tab.find s.fab.proposals (te, st) = some p ∧ p.sent = false ∧ proposalRoom (reach s (p.at' + 1000000)) = true ∧ effRole s ≠ roleShadow :=
  ⟨{ node with fab := { node.fab with proposals := [((5, 9), ⟨1, 0x0150, 3, 0, false⟩)] } }, 5, 9, ⟨1, 0x0150, 3, 0, false⟩, by decide +kernel⟩

/-- Hypotheses of MigrationIsProposed that are met together. -/
theorem witness_MigrationIsProposed_2 : ∃ s : State, ∃ te : Nat, ∃ st : Nat, ∃ p : Proposal, ∃ n : Nat, ∃ b : List Byte, hears s = true ∧ effRole s ≠ roleUnplaced ∧ Tab.find s.fab.proposals (te, st) = some p ∧ p.sent = false ∧ p.target = n ∧ leAt b 0 1 = 3 ∧ leAt (b.drop 1) 4 4 % 4096 = te ∧ leAt (b.drop 1) 8 4 = st ∧ leAt (b.drop 1) 24 8 = p.id ∧ (leAt (b.drop 1) 1 1 = 1 ∨ leAt (b.drop 1) 1 1 = 2) ∧ proposalRoom s = true ∧ effRole s ≠ roleShadow :=
  ⟨{ node with fab := { node.fab with proposals := [((5, 9), ⟨1, 0x0150, 3, 0, false⟩)] } }, 5, 9, ⟨1, 0x0150, 3, 0, false⟩, 0x0150, [3, 0, 1, 0, 0, 5, 0, 0, 0, 9, 0, 0, 0] ++ zeros 12 ++ leBytes 8 3 ++ zeros 8, by refine ⟨?_, ?_, ?_, ?_, ?_, ?_, ?_, ?_, ?_, .inl ?_, ?_, ?_⟩ <;> decide +kernel⟩

/-- Hypotheses of MigrationIsProposed that are met together. -/
theorem witness_MigrationIsProposed_3 : ∃ s : State, ∃ te : Nat, ∃ st : Nat, ∃ p : Proposal, Tab.find s.fab.proposals (te, st) = some p ∧ p.sent = true :=
  ⟨{ node with fab := { node.fab with proposals := [((5, 9), ⟨1, 0x0150, 3, 0, true⟩)] } }, 5, 9, ⟨1, 0x0150, 3, 0, true⟩, by decide +kernel⟩

/-- Hypotheses of MigrationIsProposed that are met together. -/
theorem witness_MigrationIsProposed_4 : ∃ s : State, ∃ b : List Byte, hears s = true ∧ effRole s ≠ roleUnplaced ∧ leAt b 0 1 = 2 ∧ 33 ≤ b.length :=
  ⟨node, 2 :: zeros 32, by decide +kernel⟩

/-- Hypotheses of SeatsTrainAndFall that are met together. -/
theorem witness_SeatsTrainAndFall_0 : ∃ s : State, ∃ i, started s = true ∧ i < 6 ∧ refPresent s i = true :=
  ⟨booted 1, 5, by decide +kernel⟩

/-- Hypotheses of SeatsTrainAndFall that are met together. -/
theorem witness_SeatsTrainAndFall_1 : ∃ s : State, ∃ i, inTraining s i = true ∧ (getSeat s i).partnerKind = false :=
  ⟨{ node with seats := [(3, seatIn seatTraining 0 0)] }, 3, by decide +kernel⟩

/-- Hypotheses of SeatsTrainAndFall that are met together. -/
theorem witness_SeatsTrainAndFall_2 : ∃ s : State, ∃ i, inTraining s i = true ∧ (getSeat s i).partnerKind = true :=
  ⟨{ node with seats := [(3, { seatIn seatTraining 0 0 with partnerKind := true })] }, 3, by decide +kernel⟩

/-- Hypotheses of SeatsTrainAndFall that are met together. -/
theorem witness_SeatsTrainAndFall_3 : ∃ s : State, ∃ i, inTraining s i = true :=
  ⟨{ node with seats := [(3, seatIn seatTraining 0 0)] }, 3, by decide +kernel⟩

/-- Hypotheses of SeatsTrainAndFall that are met together. -/
theorem witness_SeatsTrainAndFall_4 : ∃ s : State, ∃ i, ∃ t0, started s = true ∧ i < 6 ∧ (getSeat s i).retryAt = some t0 :=
  ⟨{ node with seats := [(3, { seatIn seatTraining 0 0 with retryAt := some 9 })] }, 3, 9, by decide +kernel⟩

/-- Hypotheses of SeatsTrainAndFall that are met together. -/
theorem witness_SeatsTrainAndFall_5 : ∃ s : State, ∃ i, linkUp s i = true ∧ i < 6 :=
  ⟨node, 2, by decide +kernel⟩

/-- Hypotheses of SeatsTrainAndFall that are met together. -/
theorem witness_SeatsTrainAndFall_6 : ∃ s : State, ∃ r, s.boot.powered = true ∧ r < 2 ∧ s.mon.seatLost.contains r = false :=
  ⟨node, 1, by decide +kernel⟩

/-- Hypotheses of SeatsTrainAndFall that are met together. -/
theorem witness_SeatsTrainAndFall_7 : ∃ s : State, ∃ r, started s = true ∧ s.mon.seatLost.contains r = true :=
  ⟨{ node with mon := { Monitors.reset with seatLost := [1] } }, 1, by decide +kernel⟩

/-- Hypotheses of HellosBringSeatsUp that are met together. -/
theorem witness_HellosBringSeatsUp_2 : ∃ s : State, ∃ i, ∃ t0, linkUp s i = true ∧ i < 6 ∧ (getSeat s i).partnerKind = false ∧ (getSeat s i).state = seatHello ∧ (getSeat s i).helloDue = some t0 :=
  ⟨{ node with seats := [(3, { seatIn seatHello 0 0 with helloDue := some 4 })] }, 3, 4, by decide +kernel⟩

/-- Hypotheses of HellosBringSeatsUp that are met together. -/
theorem witness_HellosBringSeatsUp_3 : ∃ s : State, ∃ i, ∃ f : Frame, ∃ u : State, ∃ rx : Rx, receive s i f = (u, some rx) ∧ i < 6 ∧ rx.hdr.type = ftHello ∧ rx.hdr.dst = 0xFFFF ∧ rx.payload.length = 32 ∧ (getSeat s i).partnerKind = false ∧ (leAt rx.payload 0 1 = 0 ∨ (leAt rx.payload 0 1 = 1 ∧ (getSeat u i).nonce = some (leAt rx.payload 20 4))) ∧ offerVersions (getSeat u i) &&& leAt rx.payload 12 4 % 4 ≠ 0 :=
  ⟨node, 1, helloFrame 0 3, (receive node 1 (helloFrame 0 3)).1, rxOf node 1 (helloFrame 0 3), received (by decide +kernel), by decide +kernel⟩

/-- Hypotheses of HellosBringSeatsUp that are met together. -/
theorem witness_HellosBringSeatsUp_4 : ∃ s : State, ∃ i, ∃ f : Frame, ∃ u : State, ∃ rx : Rx, receive s i f = (u, some rx) ∧ i < 6 ∧ rx.hdr.type = ftHello ∧ rx.hdr.dst = 0xFFFF ∧ rx.payload.length = 32 ∧ (getSeat s i).partnerKind = false ∧ (leAt rx.payload 0 1 = 0 ∨ (leAt rx.payload 0 1 = 1 ∧ (getSeat u i).nonce = some (leAt rx.payload 20 4))) ∧ offerVersions (getSeat u i) &&& leAt rx.payload 12 4 % 4 = 0 :=
  ⟨node, 1, helloFrame 0 0, (receive node 1 (helloFrame 0 0)).1, rxOf node 1 (helloFrame 0 0), received (by decide +kernel), by decide +kernel⟩

/-- Hypotheses of HellosBringSeatsUp that are met together. -/
theorem witness_HellosBringSeatsUp_5 : ∃ s : State, ∃ i, linkUp s i = true :=
  ⟨node, 1, by decide +kernel⟩

/-- Hypotheses of HellosBringSeatsUp that are met together. -/
theorem witness_HellosBringSeatsUp_6 : ∃ s : State, ∃ i, directUp s i = true :=
  ⟨node, 1, by decide +kernel⟩

/-- Hypotheses of TransportHeadersReadBack that are met together. -/
theorem witness_TransportHeadersReadBack_0 : ∃ h : THdr, h.ver < 256 ∧ h.type < 256 ∧ h.flags < 65536 ∧ h.src < 65536 ∧ h.dst < 65536 ∧ h.boardVer < 2 ^ 32 ∧ h.hops < 256 ∧ h.msgType < 256 ∧ h.tenant < 4096 ∧ h.seq < 2 ^ 32 ∧ h.ack < 2 ^ 32 ∧ h.msgId < 2 ^ 32 ∧ h.msgLen < 2 ^ 32 ∧ h.fragOff < 2 ^ 32 ∧ h.plen < 65536 ∧ h.tsval < 2 ^ 32 ∧ h.tsecr < 2 ^ 32 :=
  ⟨⟨255, 255, 65535, 65535, 65535, 4294967295, 255, 255, 4095, 4294967295, 4294967295, 4294967295, 4294967295, 4294967295, 65535, 4294967295, 4294967295⟩, by decide +kernel⟩

/-- Hypotheses of TransportHeadersReadBack that are met together. -/
theorem witness_TransportHeadersReadBack_1 : ∃ bs : List Byte, 48 ≤ bs.length ∧ headerReserved bs = false :=
  ⟨headerBytes {}, by decide +kernel⟩

/-- Hypotheses of PeerTimers that are met together. -/
theorem witness_PeerTimers_0 : ∃ s : State, ∃ k, ∃ p : Peer, ∃ n, ∃ hop : Hop, ∃ now, ∃ due, getPeer s k = some p ∧ p.unacked ≠ 0 ∧ p.oldestUnacked = some now ∧ due = (match p.ackNowAt with | some a => Nat.min a (now + 5000) | none => now + 5000) ∧ p.recvNext = some n ∧ routeTo (reach s due) k = some hop :=
  ⟨peered, 0x0150, peerIn, 41, ⟨1, 0x020000000009, 0x3150⟩, 10, 5010, by decide +kernel⟩

/-- Hypotheses of PeerTimers that are met together. -/
theorem witness_PeerTimers_1 : ∃ s : State, ∃ k, ∃ p : Peer, ∃ f : SentFrame, ∃ r, getPeer s k = some p ∧ p.inflight = f :: r ∧ hears s = true :=
  ⟨peered, 0x0150, peerIn, ⟨5, 0, 0, 100, 0, none, false, true⟩, [], by decide +kernel⟩

/-- Hypotheses of PeerTimers that are met together. -/
theorem witness_PeerTimers_2 : ∃ s : State, ∃ k, ∃ p : Peer, ∃ f : SentFrame, ∃ r, ∃ p1 : Peer, ∃ m : OutMsg, ∃ hop : Hop, getPeer s k = some p ∧ p.inflight = f :: r ∧ hears s = true ∧ p1 = { p with rto := 2 * p.rto, rate := clampRate (seatRate s (leadSeat s k p.seat)) (rateOf s k p / 2), rateAt := (reach s (f.at' + p.rto)).time } ∧ p.out.find? (fun m => decide (m.id = f.msg)) = some m ∧ routeMsg (putPeer (reach s (f.at' + p.rto)) k p1) k m.type = some hop :=
  ⟨putPeer node 0x0150 ({ peerIn with out := [⟨0, 6, 5, 1, zeros 100, 100, false⟩] }), 0x0150, { peerIn with out := [⟨0, 6, 5, 1, zeros 100, 100, false⟩] }, ⟨5, 0, 0, 100, 0, none, false, true⟩, [], _, ⟨0, 6, 5, 1, zeros 100, 100, false⟩, ⟨1, 0x020000000009, 0x3150⟩, by decide +kernel, rfl, by decide +kernel, rfl, by decide +kernel, by decide +kernel⟩

/-- Hypotheses of PeerTimers that are met together. -/
theorem witness_PeerTimers_3 : ∃ s : State, ∃ k, ∃ p : Peer, getPeer s k = some p :=
  ⟨peered, 0x0150, peerIn, by decide +kernel⟩

/-- Hypotheses of PeerTimers that are met together. -/
theorem witness_PeerTimers_4 : ∃ s : State, ∃ k, ∃ p : Peer, getPeer s k = some p ∧ p.inflight ≠ [] ∧ running s = true :=
  ⟨peered, 0x0150, peerIn, by decide +kernel⟩

/-- Hypotheses of ReceivedFramesAreSequenced that are met together. -/
theorem witness_ReceivedFramesAreSequenced_0 : ∃ s : State, ∃ i, ∃ f : Frame, ∃ u : State, ∃ rx : Rx, receive s i f = (u, some rx) ∧ hears s = true ∧ rx.hdr.type = ftAck ∧ (rx.hdr.dst = ownId s ∨ rx.hdr.dst = 0xFFFF) ∧ 16 ≤ rx.payload.length :=
  ⟨peered, 1, ackFrameTo, (receive (peered) 1 (ackFrameTo)).1, rxOf (peered) 1 (ackFrameTo), received (by decide +kernel), by decide +kernel⟩

/-- Hypotheses of ReceivedFramesAreSequenced that are met together. -/
theorem witness_ReceivedFramesAreSequenced_1 : ∃ s : State, ∃ k, ∃ p : Peer, ∃ a : AckIn, getPeer s k = some p ∧ a.valid = true ∧ a.full = true ∧ a.reset = false ∧ 0 < a.ece ∧ 0 < a.recv ∧ p.rateCutAt = none ∧ a.tsecr = 0 :=
  ⟨peered, 0x0150, peerIn, ⟨true, 5, 0, true, 1000, 20, 10, false, []⟩, by decide +kernel⟩

/-- Hypotheses of ReceivedFramesAreSequenced that are met together. -/
theorem witness_ReceivedFramesAreSequenced_2 : ∃ s : State, ∃ i, ∃ f : Frame, ∃ u : State, ∃ rx : Rx, ∃ p : Peer, ∃ n, receive s i f = (u, some rx) ∧ s.rst.ctlRunning = false ∧ forNode u rx.hdr = true ∧ rx.hdr.msgType ≠ 1 ∧ rx.hdr.ackValid = false ∧ rx.hdr.syn = false ∧ getPeer u (peerKey rx.hdr.src rx.seat) = some p ∧ p.recvNext = some n ∧ n < 2 ^ 32 ∧ rx.hdr.seq = n ∧ p.recvAbove = [] ∧ p.unacked + 1 < 16 ∧ p.reasm.find? (fun m => decide (m.id = rx.hdr.msgId)) = none ∧ rx.payload.length < rx.hdr.msgLen ∧ (∃ l, msgLimit rx.hdr.msgType = some l ∧ rx.hdr.msgLen ≤ l) ∧ rx.hdr.msgLen ≤ reasmFree u (seatDie rx.seat) :=
  ⟨peered, 1, dataFrameTo 0x0140 7 41, (receive (peered) 1 (dataFrameTo 0x0140 7 41)).1, rxOf (peered) 1 (dataFrameTo 0x0140 7 41), peerIn, 41, by
    refine ⟨received (by decide +kernel), ?_⟩
    repeat' apply And.intro
    all_goals decide +kernel⟩

/-- Hypotheses of ReceivedFramesAreSequenced that are met together. -/
theorem witness_ReceivedFramesAreSequenced_3 : ∃ s : State, ∃ i, ∃ f : Frame, ∃ u : State, ∃ rx : Rx, receive s i f = (u, some rx) ∧ s.rst.ctlRunning = false ∧ forNode u rx.hdr = true ∧ rx.hdr.msgType ≠ 1 ∧ rx.hdr.syn = false ∧ getPeer u (peerKey rx.hdr.src rx.seat) = none :=
  ⟨node, 1, dataFrameTo 0x0140 7 41, (receive (node) 1 (dataFrameTo 0x0140 7 41)).1, rxOf (node) 1 (dataFrameTo 0x0140 7 41), received (by decide +kernel), by decide +kernel⟩

/-- Hypotheses of FramesLeaveAndPass that are met together. -/
theorem witness_FramesLeaveAndPass_0 : ∃ s : State, ∃ i, ∃ f : Frame, linkUp s i = true ∧ f.fcsOk = true ∧ f.fecOk = true ∧ 64 ≤ frameLen f.bytes ∧ frameLen f.bytes ≤ 9216 ∧ isPfc f.bytes = true :=
  ⟨node, 1, ⟨pfcBytes 1 3 true, true, 0, 0⟩, by decide +kernel⟩

/-- Hypotheses of FramesLeaveAndPass that are met together. -/
theorem witness_FramesLeaveAndPass_1 : ∃ s : State, ∃ i, linkUp s i = true ∧ schedule (countHolds s i) i = none :=
  ⟨node, 1, by decide +kernel⟩

/-- Hypotheses of FramesLeaveAndPass that are met together. -/
theorem witness_FramesLeaveAndPass_2 : ∃ s : State, ∃ i, ∃ c, ∃ q, ∃ u : State, ∃ f : QFrame, ∃ r, linkUp s i = true ∧ schedule (countHolds s i) i = some (c, q, u) ∧ (getQ u (i, c, q)).frames = f :: r :=
  ⟨queuedTurn 4, 1, 4, commonQ, ((schedule (countHolds (queuedTurn 4) 1) 1).getD (0, 0, node)).2.2, ⟨zeros 60, 0, false, false, false, false⟩, [], by decide +kernel, rfl, by decide +kernel⟩

/-- Hypotheses of FramesLeaveAndPass that are met together. -/
theorem witness_FramesLeaveAndPass_3 : ∃ s : State, ∃ i, ∃ f : Frame, ∃ u : State, ∃ rx : Rx, ∃ n, f.fcsOk = true ∧ f.fecOk = true ∧ receive s i f = (u, some rx) ∧ forwardable u rx.hdr = true ∧ chooseHop u rx.seat rx.hdr = .error n :=
  ⟨node, 1, dataFrameTo 0x0300 7 41, (receive (node) 1 (dataFrameTo 0x0300 7 41)).1, rxOf (node) 1 (dataFrameTo 0x0300 7 41), 4, rfl, rfl, received (by decide +kernel), by decide +kernel, hop_error (by decide +kernel)⟩

/-- Hypotheses of FramesLeaveAndPass that are met together. -/
theorem witness_FramesLeaveAndPass_4 : ∃ s : State, ∃ i, ∃ f : Frame, ∃ u : State, ∃ rx : Rx, ∃ hop : Hop, ∃ cls, ∃ k, f.fcsOk = true ∧ f.fecOk = true ∧ receive s i f = (u, some rx) ∧ forwardable u rx.hdr = true ∧ chooseHop u rx.seat rx.hdr = .ok hop ∧ (cls, k) = classify347 u rx.seat (rx.tci.map (· / 8192)) (rx.tos / 4) rx.hdr.colour ∧ (getST u rx.seat).transit.enable = false ∧ limitDrop u hop.seat cls k (frameLen (forwardBytes u rx cls hop k f.bytes)) = none :=
  ⟨node, 2, frameTo 2 { type := ftAck, src := 0x0150, dst := 0x0200, boardVer := 7 } (zeros 16), (receive (node) 2 (frameTo 2 { type := ftAck, src := 0x0150, dst := 0x0200, boardVer := 7 } (zeros 16))).1, rxOf (node) 2 (frameTo 2 { type := ftAck, src := 0x0150, dst := 0x0200, boardVer := 7 } (zeros 16)), ⟨1, 0x020000000009, 0x3150⟩, 0, 0, rfl, rfl, received (by decide +kernel), by decide +kernel, hop_ok (by decide +kernel), by decide +kernel⟩

/-- Hypotheses of TheSchedulerChoosesAnEligibleQueue that are met together. -/
theorem witness_TheSchedulerChoosesAnEligibleQueue_0 : ∃ s : State, ∃ i, ∃ c, ∃ q, ∃ u : State, schedule s i = some (c, q, u) :=
  ⟨queuedTurn 4, 1, 4, commonQ, ((schedule (queuedTurn 4) 1).getD (0, 0, node)).2.2, rfl⟩

/-- Hypotheses of TheSchedulerChoosesAnEligibleQueue that are met together. -/
theorem witness_TheSchedulerChoosesAnEligibleQueue_1 : ∃ s : State, ∃ i, ∃ c, ∃ q, ∃ u : State, schedule s i = some (c, q, u) ∧ classEligible s i 7 = true :=
  ⟨queuedTurn 7, 1, 7, commonQ, ((schedule (queuedTurn 7) 1).getD (0, 0, node)).2.2, rfl, by decide +kernel⟩

/-- Hypotheses of TheSchedulerChoosesAnEligibleQueue that are met together. -/
theorem witness_TheSchedulerChoosesAnEligibleQueue_2 : ∃ s : State, ∃ i, ∃ c, ∃ q, ∃ u : State, schedule s i = some (c, q, u) ∧ classEligible s i 7 = false ∧ classEligible s i 6 = true :=
  ⟨queuedTurn 6, 1, 6, commonQ, ((schedule (queuedTurn 6) 1).getD (0, 0, node)).2.2, rfl, by decide +kernel⟩

/-- Hypotheses of PolicersColourFrames that are met together. -/
theorem witness_PolicersColourFrames_0 : ∃ p : Policer, p.enable = false :=
  ⟨Policer.reset, rfl⟩

/-- Hypotheses of PolicersColourFrames that are met together. -/
theorem witness_PolicersColourFrames_2 : ∃ s : State, ∃ p : Policer, ∃ n, ∃ k, ∃ ctr : Nat → Ctr, ∃ v : Verdict, ∃ q : Policer, ∃ u : State, ∃ j, p.enable = true ∧ k ≤ 2 ∧ police s p n k ctr = (v, q, u) ∧ (v = .pass j ∨ v = .mark j) :=
  ⟨node, { Policer.reset with enable := true, cir := 1, pir := 1, cbs := 10000, pbs := 10000, tc := ⟨10000000000000, 0⟩, tp := ⟨10000000000000, 0⟩ }, 100, 2, fun i => .police 0 5 i, .pass 2, _, _, 2, rfl, by decide, rfl, .inl rfl⟩

/-- Hypotheses of PolicersColourFrames that are met together. -/
theorem witness_PolicersColourFrames_3 : ∃ s : State, ∃ p : Policer, ∃ n, ∃ k, ∃ ctr : Nat → Ctr, ∃ v : Verdict, ∃ q : Policer, ∃ u : State, p.enable = true ∧ k ≤ 2 ∧ police s p n k ctr = (v, q, u) ∧ v = .drop :=
  ⟨node, { Policer.reset with enable := true, cir := 1, pir := 1, cbs := 10000, pbs := 10000 }, 100, 0, fun i => .police 0 5 i, .drop, _, _, rfl, by decide, rfl, rfl⟩

/-- Hypotheses of PolicersColourFrames that are met together. -/
theorem witness_PolicersColourFrames_4 : ∃ s : State, ∃ p : Policer, ∃ n, ∃ k, ∃ ctr : Nat → Ctr, ∃ v : Verdict, ∃ q : Policer, ∃ u : State, p.enable = true ∧ k ≤ 2 ∧ police s p n k ctr = (v, q, u) :=
  ⟨node, { Policer.reset with enable := true, cir := 1, pir := 1, cbs := 10000, pbs := 10000 }, 100, 0, fun i => .police 0 5 i, .drop, _, _, rfl, by decide, rfl⟩

/-- Hypotheses of BoardsAreStagedAndSwitched that are met together. -/
theorem witness_BoardsAreStagedAndSwitched_0 : ∃ s : State, ∃ n, ∃ b, boardHeard s n 1 b = true ∧ boardBusy s = false ∧ leAt b 12 4 ≤ 8192 ∧ leAt b 8 4 + leAt b 12 4 ≤ 4719872 ∧ leAt b 12 4 ≤ (b.drop 16).length :=
  ⟨node, 1, boardBytes 1 8 4719871 1 [1], by decide +kernel⟩

/-- Hypotheses of BoardsAreStagedAndSwitched that are met together. -/
theorem witness_BoardsAreStagedAndSwitched_1 : ∃ s : State, ∃ n, ∃ b, boardHeard s n 1 b = true ∧ boardBusy s = false ∧ (8192 < leAt b 12 4 ∨ 4719872 < leAt b 8 4 + leAt b 12 4 ∨ (b.drop 16).length < leAt b 12 4) :=
  ⟨node, 1, boardBytes 1 8 4719872 1 [1], by decide +kernel⟩

/-- Hypotheses of BoardsAreStagedAndSwitched that are met together. -/
theorem witness_BoardsAreStagedAndSwitched_2 : ∃ s : State, ∃ n, ∃ b, boardHeard s n 3 b = true :=
  ⟨node, 1, boardBytes 3 8 0 0 [], by decide +kernel⟩

/-- Hypotheses of BoardsAreStagedAndSwitched that are met together. -/
theorem witness_BoardsAreStagedAndSwitched_3 : ∃ s : State, ∃ i : Nat, ∃ n, ∃ b, ∃ c : Instr, ((c = .boardCommit i n b ∧ boardHeard s n 2 b = true ∧ (s.boot.stage < 2 ∨ boardBusy s = true)) ∨ (c = .boardWrite i n b ∧ boardHeard s n 1 b = true ∧ boardBusy s = true)) :=
  ⟨booted 1, 0, 9, boardBytes 2 8 0 0 [], .boardCommit 0 9 (boardBytes 2 8 0 0 []), by decide +kernel⟩

/-- Hypotheses of BoardsAreStagedAndSwitched that are met together. -/
theorem witness_BoardsAreStagedAndSwitched_4 : ∃ s : State, ∃ n, ∃ b, ∃ r, ∃ u : State, boardHeard s n 2 b = true ∧ 2 ≤ s.boot.stage ∧ boardBusy s = false ∧ checkBoard { s with fab := { s.fab with commitAt := some s.time } } (leAt b 4 4) = (r, none, u) :=
  ⟨staged (zeros 32), 1, boardBytes 2 8 0 0 [], 3, _, by decide +kernel, by decide +kernel, by decide +kernel, checked (by decide +kernel) (by decide +kernel)⟩

/-- Hypotheses of BoardsAreStagedAndSwitched that are met together. -/
theorem witness_BoardsAreStagedAndSwitched_5 : ∃ s : State, ∃ n, ∃ b, ∃ r, ∃ v : Board, ∃ u : State, boardHeard s n 2 b = true ∧ 2 ≤ s.boot.stage ∧ boardBusy s = false ∧ checkBoard { s with fab := { s.fab with commitAt := some s.time } } (leAt b 4 4) = (r, some v, u) :=
  ⟨staged (sha256 imageTail), 1, boardBytes 2 8 0 0 [], 0, ⟨8, 0x0140, 1, 1, [0, 0, 0, 0, 0, 0], [0, 0, 0, 0, 0, 0], [], [], []⟩, _, by decide +kernel, by decide +kernel, by decide +kernel, checked (by decide +kernel) (by decide +kernel)⟩

/-- Hypotheses of BoardsAreStagedAndSwitched that are met together. -/
theorem witness_BoardsAreStagedAndSwitched_13 : ∃ s : State, ∃ v : Board, ∃ o, s.fab.active = some o ∧ o.ownId ≠ v.ownId :=
  ⟨node, { board with ownId := 0x0141 }, board, by decide +kernel⟩

/-- Hypotheses of BoardsAreStagedAndSwitched that are met together. -/
theorem witness_BoardsAreStagedAndSwitched_17 : ∃ s : State, ∃ t0, s.fab.graceEnd = some t0 :=
  ⟨{ node with fab := { node.fab with graceEnd := some 3 } }, 3, by decide +kernel⟩

/-- Hypotheses of DiscoveryFramesAnswerAndPass that are met together. -/
theorem witness_DiscoveryFramesAnswerAndPass_0 : ∃ s : State, ∃ i, ∃ f : Frame, ∃ u : State, ∃ rx : Rx, receive s i f = (u, some rx) ∧ rx.hdr.type = ftDiscovery ∧ rx.hdr.dst = 0xFFFF ∧ rx.payload.length = 384 ∧ leAt rx.payload 0 1 = 1 ∧ leAt rx.payload 2 1 = leAt rx.payload 1 1 :=
  ⟨node, 1, discFrame 1 255 255 0, (receive (node) 1 (discFrame 1 255 255 0)).1, rxOf (node) 1 (discFrame 1 255 255 0), received (by decide +kernel), by decide +kernel⟩

/-- Hypotheses of DiscoveryFramesAnswerAndPass that are met together. -/
theorem witness_DiscoveryFramesAnswerAndPass_1 : ∃ s : State, ∃ d : Disc, (s.fab.active = none ∨ ∃ b, s.fab.active = some b ∧ fwdEntry b d.fmId = none) :=
  ⟨booted 3, discIn, .inl rfl⟩

/-- Hypotheses of DiscoveryFramesAnswerAndPass that are met together. -/
theorem witness_DiscoveryFramesAnswerAndPass_2 : ∃ s : State, ∃ d : Disc, ∃ b : Board, s.fab.active = some b ∧ (fwdEntry b d.fmId).isSome = true :=
  ⟨node, discIn, board, by decide +kernel⟩

/-- Hypotheses of DiscoveryFramesAnswerAndPass that are met together. -/
theorem witness_DiscoveryFramesAnswerAndPass_3 : ∃ s : State, ∃ i, ∃ f : Frame, ∃ u : State, ∃ rx : Rx, receive s i f = (u, some rx) ∧ rx.hdr.type = ftDiscovery ∧ rx.hdr.dst = 0xFFFF ∧ rx.payload.length = 384 ∧ leAt rx.payload 0 1 = 3 ∧ leAt rx.payload 2 1 = leAt rx.payload 1 1 :=
  ⟨node, 1, discFrame 3 255 255 0, (receive (node) 1 (discFrame 3 255 255 0)).1, rxOf (node) 1 (discFrame 3 255 255 0), received (by decide +kernel), by decide +kernel⟩

/-- Hypotheses of DiscoveryFramesAnswerAndPass that are met together. -/
theorem witness_DiscoveryFramesAnswerAndPass_4 : ∃ s : State, ∃ i, ∃ f : Frame, ∃ u : State, ∃ rx : Rx, receive s i f = (u, some rx) ∧ rx.hdr.type = ftDiscovery ∧ rx.hdr.dst = 0xFFFF ∧ rx.payload.length = 384 ∧ (leAt rx.payload 0 1 = 2 ∨ leAt rx.payload 0 1 = 4) ∧ leAt rx.payload 2 1 = leAt rx.payload 1 1 :=
  ⟨node, 1, discFrame 4 255 255 0, (receive (node) 1 (discFrame 4 255 255 0)).1, rxOf (node) 1 (discFrame 4 255 255 0), received (by decide +kernel), by decide +kernel⟩

/-- Hypotheses of DiscoveryFramesAnswerAndPass that are met together. -/
theorem witness_DiscoveryFramesAnswerAndPass_5 : ∃ s : State, ∃ i, ∃ f : Frame, ∃ u : State, ∃ rx : Rx, ∃ c : Instr, receive s i f = (u, some rx) ∧ rx.hdr.type = ftDiscovery ∧ rx.hdr.dst = 0xFFFF ∧ rx.payload.length = 384 ∧ ((c = .discoveryProbe i f ∧ leAt rx.payload 0 1 = 1) ∨ (c = .discoveryAssign i f ∧ leAt rx.payload 0 1 = 3) ∨ (c = .discoveryAnswer i f ∧ (leAt rx.payload 0 1 = 2 ∨ leAt rx.payload 0 1 = 4))) ∧ leAt rx.payload 1 1 < leAt rx.payload 2 1 :=
  ⟨node, 1, discFrame 1 0 1 0, (receive (node) 1 (discFrame 1 0 1 0)).1, rxOf (node) 1 (discFrame 1 0 1 0), .discoveryProbe 1 (discFrame 1 0 1 0), received (by decide +kernel), by decide +kernel, by decide +kernel, by decide +kernel, .inl ⟨rfl, by decide +kernel⟩, by decide +kernel⟩

/-- Hypotheses of DiscoveryFramesAnswerAndPass that are met together. -/
theorem witness_DiscoveryFramesAnswerAndPass_6 : ∃ s : State, ∃ i, ∃ f : Frame, ∃ u : State, ∃ rx : Rx, ∃ c : Instr, receive s i f = (u, some rx) ∧ rx.hdr.type = ftDiscovery ∧ rx.hdr.dst = 0xFFFF ∧ rx.payload.length = 384 ∧ ((c = .discoveryProbe i f ∧ leAt rx.payload 0 1 = 1) ∨ (c = .discoveryAssign i f ∧ leAt rx.payload 0 1 = 3) ∨ (c = .discoveryAnswer i f ∧ (leAt rx.payload 0 1 = 2 ∨ leAt rx.payload 0 1 = 4))) ∧ leAt rx.payload 2 1 < leAt rx.payload 1 1 ∧ (6 ≤ seatNibble (slice rx.payload 0x20 128) (leAt rx.payload 2 1) ∨ rx.hdr.hops = 0 ∨ linkUp u (seatNibble (slice rx.payload 0x20 128) (leAt rx.payload 2 1)) = false) :=
  ⟨node, 1, discFrame 1 1 0 6, (receive (node) 1 (discFrame 1 1 0 6)).1, rxOf (node) 1 (discFrame 1 1 0 6), .discoveryProbe 1 (discFrame 1 1 0 6), received (by decide +kernel), by decide +kernel, by decide +kernel, by decide +kernel, .inl ⟨rfl, by decide +kernel⟩, by decide +kernel⟩

/-- Hypotheses of DiscoveryFramesAnswerAndPass that are met together. -/
theorem witness_DiscoveryFramesAnswerAndPass_7 : ∃ s : State, ∃ i, ∃ f : Frame, ∃ u : State, ∃ rx : Rx, ∃ c : Instr, ∃ o, ∃ cls, ∃ k, ∃ pcp, receive s i f = (u, some rx) ∧ rx.hdr.type = ftDiscovery ∧ rx.hdr.dst = 0xFFFF ∧ rx.payload.length = 384 ∧ ((c = .discoveryProbe i f ∧ leAt rx.payload 0 1 = 1) ∨ (c = .discoveryAssign i f ∧ leAt rx.payload 0 1 = 3) ∨ (c = .discoveryAnswer i f ∧ (leAt rx.payload 0 1 = 2 ∨ leAt rx.payload 0 1 = 4))) ∧ leAt rx.payload 2 1 < leAt rx.payload 1 1 ∧ o = seatNibble (slice rx.payload 0x20 128) (leAt rx.payload 2 1) ∧ o < 6 ∧ rx.hdr.hops ≠ 0 ∧ linkUp u o = true ∧ discRoom u o = true ∧ i < 6 ∧ (cls, k) = classify347 u rx.seat (rx.tci.map (· / 8192)) (rx.tos / 4) rx.hdr.colour ∧ pcp = (match rx.tci with | some t => t / 8192 | none => classPrio u o cls) :=
  ⟨node, 1, discFrame 1 1 0 2, (receive (node) 1 (discFrame 1 1 0 2)).1, rxOf (node) 1 (discFrame 1 1 0 2), .discoveryProbe 1 (discFrame 1 1 0 2), 2, _, _, _, received (by decide +kernel), by decide +kernel, by decide +kernel, by decide +kernel, .inl ⟨rfl, by decide +kernel⟩, by decide +kernel, by decide +kernel, by decide +kernel, by decide +kernel, by decide +kernel, by decide +kernel, by decide +kernel, rfl, rfl⟩

/-- Hypotheses of DiscoveryFramesAnswerAndPass that are met together. -/
theorem witness_DiscoveryFramesAnswerAndPass_12 : ∃ s : State, ∃ o, seatVersion s o = 1 :=
  ⟨{ node with seats := [(1, { seatIn seatUp 0x0150 1 with version := 1 })] }, 1, by decide +kernel⟩

/-- Hypotheses of DiscoveryFramesAnswerAndPass that are met together. -/
theorem witness_DiscoveryFramesAnswerAndPass_13 : ∃ op, ∃ d : Disc, op < 256 ∧ d.nonce < 2 ^ 32 :=
  ⟨255, discOf (discBytes 1 0 0 0), by decide +kernel⟩

/-- Hypotheses of DiscoveryFramesAnswerAndPass that are met together. -/
theorem witness_DiscoveryFramesAnswerAndPass_14 : ∃ op, ∃ d : Disc, op < 256 ∧ d.len < 255 ∧ d.fmId < 65536 ∧ d.back.length = 256 ∧ (∀ x ∈ d.back, x < 16) :=
  ⟨2, discIn, by decide +kernel⟩

/-- Hypotheses of DiscoveryFramesAnswerAndPass that are met together. -/
theorem witness_DiscoveryFramesAnswerAndPass_16 : ∃ op, ∃ d : Disc, ∃ j : Nat, op < 256 ∧ d.len < 255 ∧ d.fmId < 65536 ∧ d.back.length = 256 ∧ (∀ x ∈ d.back, x < 16) ∧ j ≤ d.len :=
  ⟨2, discIn, 0, by decide +kernel⟩

/-- Hypotheses of HandOverMessages that are met together. -/
theorem witness_HandOverMessages_0 : ∃ s : State, ∃ b, hears s = true ∧ effRole s ≠ roleUnplaced ∧ tailFits s 4 b = true ∧ (tailMsgOf b).copy = false ∧ effRole s ≠ roleShadow ∧ recordsMeet s (tailMsgOf b) = false ∧ getOwn s (tailMsgOf b).tenant (tailMsgOf b).stream = none :=
  ⟨{ owning .owner none with fab := { node.fab with own := [] } }, tail 4 8 0x0140 0 false, by decide +kernel⟩

/-- Hypotheses of HandOverMessages that are met together. -/
theorem witness_HandOverMessages_1 : ∃ s : State, ∃ n, ∃ b, hears s = true ∧ effRole s ≠ roleUnplaced ∧ tailFits s 4 b = true ∧ (tailMsgOf b).copy = false ∧ effRole s ≠ roleShadow ∧ recordsMeet s (tailMsgOf b) = false ∧ offerMatches s n (tailMsgOf b) = true ∧ Tab.find s.fab.handovers ((tailMsgOf b).tenant, (tailMsgOf b).stream) = none ∧ slotAdmitted s (tailMsgOf b).tenant = true :=
  ⟨owning .awaiting (some (ownRec 0x0140 0x0150 8)), 0x0150, tail 4 8 0x0140 0 false, by decide +kernel⟩

/-- Hypotheses of HandOverMessages that are met together. -/
theorem witness_HandOverMessages_2 : ∃ s : State, ∃ b, ∃ o : Own, hears s = true ∧ effRole s ≠ roleUnplaced ∧ tailFits s 4 b = true ∧ (tailMsgOf b).copy = false ∧ effRole s ≠ roleShadow ∧ recordsMeet s (tailMsgOf b) = false ∧ getOwn s (tailMsgOf b).tenant (tailMsgOf b).stream = some o ∧ o.state = .owner ∧ ((tailMsgOf b).owner ≠ ownId s ∨ (tailMsgOf b).epoch ≠ o.epoch) :=
  ⟨owning .owner none, tail 4 8 0x0150 0 false, ownEntry 0 .owner 7 0x0150 false, by decide +kernel⟩

/-- Hypotheses of HandOverMessages that are met together. -/
theorem witness_HandOverMessages_3 : ∃ s : State, ∃ b, hears s = true ∧ effRole s ≠ roleUnplaced ∧ tailFits s 4 b = true ∧ (tailMsgOf b).copy = true ∧ (effRole s ≠ roleShadow ∨ slotAdmitted s (tailMsgOf b).tenant = false) :=
  ⟨owning .owner none, tail 4 8 0x0150 0 true, by decide +kernel⟩

/-- Hypotheses of HandOverMessages that are met together. -/
theorem witness_HandOverMessages_4 : ∃ s : State, ∃ n, ∃ b, ∃ o : Own, hears s = true ∧ effRole s ≠ roleUnplaced ∧ tailFits s 5 b = true ∧ (tailMsgOf b).copy = false ∧ getOwn s (tailMsgOf b).tenant (tailMsgOf b).stream = some o ∧ o.state = .handing ∧ o.other = n ∧ o.epoch = (tailMsgOf b).epoch ∧ recordsMeet s (tailMsgOf b) = false :=
  ⟨owning .handing none, 0x0150, tail 5 7 0x0150 0 false, ownEntry 0 .handing 7 0x0150 false, by decide +kernel⟩

/-- Hypotheses of HandOverMessages that are met together. -/
theorem witness_HandOverMessages_5 : ∃ s : State, ∃ b, ∃ o : Own, hears s = true ∧ effRole s ≠ roleUnplaced ∧ tailFits s 6 b = true ∧ effRole s ≠ roleShadow ∧ getOwn s (tailMsgOf b).tenant (tailMsgOf b).stream = some o ∧ recordsMeet s (tailMsgOf b) = false ∧ o.state = .owner :=
  ⟨owning .owner none, tail 6 8 0x0150 0 false, ownEntry 0 .owner 7 0x0150 false, by decide +kernel⟩

/-- Hypotheses of HandOverMessages that are met together. -/
theorem witness_HandOverMessages_6 : ∃ s : State, ∃ b, ∃ o : Own, hears s = true ∧ effRole s ≠ roleUnplaced ∧ tailFits s 6 b = true ∧ effRole s ≠ roleShadow ∧ getOwn s (tailMsgOf b).tenant (tailMsgOf b).stream = some o ∧ recordsMeet s (tailMsgOf b) = false ∧ o.state = .handing :=
  ⟨owning .handing none, tail 6 8 0x0150 0 false, ownEntry 0 .handing 7 0x0150 false, by decide +kernel⟩

/-- Hypotheses of HandOverMessages that are met together. -/
theorem witness_HandOverMessages_7 : ∃ s : State, ∃ b, ∃ o : Own, hears s = true ∧ effRole s ≠ roleUnplaced ∧ tailFits s 7 b = true ∧ (tailMsgOf b).copy = false ∧ getOwn s (tailMsgOf b).tenant (tailMsgOf b).stream = some o ∧ recordsMeet s (tailMsgOf b) = false ∧ o.state = .awaiting ∧ o.epoch < (tailMsgOf b).epoch :=
  ⟨owning .awaiting none, tail 7 8 0x0150 1 false, ownEntry 0 .awaiting 7 0x0150 false, by decide +kernel⟩

/-- Hypotheses of HandOverMessages that are met together. -/
theorem witness_HandOverMessages_8 : ∃ s : State, ∃ n, ∃ b, ∃ o : Own, hears s = true ∧ effRole s ≠ roleUnplaced ∧ tailFits s 7 b = true ∧ (tailMsgOf b).copy = false ∧ getOwn s (tailMsgOf b).tenant (tailMsgOf b).stream = some o ∧ recordsMeet s (tailMsgOf b) = false ∧ o.state = .handing ∧ o.other = n ∧ 2 ≤ (tailMsgOf b).reason ∧ (tailMsgOf b).reason ≤ 5 :=
  ⟨owning .handing none, 0x0150, tail 7 7 0x0150 5 false, ownEntry 0 .handing 7 0x0150 false, by decide +kernel⟩

/-- Hypotheses of HandOverMessages that are met together. -/
theorem witness_HandOverMessages_9 : ∃ s : State, ∃ b : List Byte, hears s = true ∧ effRole s ≠ roleUnplaced ∧ effRole s ≠ roleShadow ∧ (tailMsgOf b).copy = false ∧ recordsMeet s (tailMsgOf b) = true ∧ tailFits s 4 b = true :=
  ⟨owning .owner (some (ownRec 0x0151 0 8)), tail 4 8 0x0150 0 false, by decide +kernel⟩

/-- Hypotheses of HandOverMessages that are met together. -/
theorem witness_HandOverMessages_10 : ∃ s : State, ∃ b : List Byte, hears s = true ∧ effRole s ≠ roleUnplaced ∧ effRole s ≠ roleShadow ∧ (tailMsgOf b).copy = false ∧ recordsMeet s (tailMsgOf b) = true ∧ tailFits s 6 b = true :=
  ⟨owning .owner (some (ownRec 0x0151 0 8)), tail 6 8 0x0150 0 false, by decide +kernel⟩

/-- Hypotheses of HandOverMessages that are met together. -/
theorem witness_HandOverMessages_11 : ∃ s : State, ∃ b : List Byte, hears s = true ∧ effRole s ≠ roleUnplaced ∧ effRole s ≠ roleShadow ∧ (tailMsgOf b).copy = false ∧ recordsMeet s (tailMsgOf b) = true ∧ tailFits s 5 b = true :=
  ⟨owning .owner (some (ownRec 0x0151 0 8)), tail 5 8 0x0150 0 false, by decide +kernel⟩

/-- Hypotheses of HandOverMessages that are met together. -/
theorem witness_HandOverMessages_12 : ∃ s : State, ∃ b : List Byte, hears s = true ∧ effRole s ≠ roleUnplaced ∧ effRole s ≠ roleShadow ∧ (tailMsgOf b).copy = false ∧ recordsMeet s (tailMsgOf b) = true ∧ tailFits s 7 b = true :=
  ⟨owning .owner (some (ownRec 0x0151 0 8)), tail 7 8 0x0150 0 false, by decide +kernel⟩

/-- Hypotheses of HandOverMessages that are met together. -/
theorem witness_HandOverMessages_14 : ∃ s : State, ∃ n : Nat, ∃ b : List Byte, ∃ c : Instr, c ∈ [.tailOffer n b, .tailAck n b, .tailAsk n b, .tailRefuse n b, .copyAsk n b, .digest n b] ∧ hears s = true ∧ effRole s = roleUnplaced :=
  ⟨booted 3, 0x0150, [], .copyAsk 0x0150 [], by decide +kernel⟩

/-- Hypotheses of HandOverMessages that are met together. -/
theorem witness_HandOverMessages_15 : ∃ s : State, ∃ n : Nat, ∃ b : List Byte, ∃ c : Instr, c ∈ [.tailOffer n b, .tailAck n b, .tailAsk n b, .tailRefuse n b, .copyAsk n b, .digest n b] ∧ running s = true ∧ hears s = false :=
  ⟨{ booted 3 with rst := { (booted 3).rst with ctlRunning := true } }, 0x0150, [], .copyAsk 0x0150 [], by decide +kernel⟩

/-- Hypotheses of HandOverTimersAndCopies that are met together. -/
theorem witness_HandOverTimersAndCopies_0 : ∃ s : State, ∃ te, ∃ st, ∃ x : Offer, Tab.find s.fab.offers (te, st) = some x :=
  ⟨{ node with fab := { node.fab with offers := [((5, 9), ⟨1, [], 4⟩)] } }, 5, 9, ⟨1, [], 4⟩, by decide +kernel⟩

/-- Hypotheses of HandOverTimersAndCopies that are met together. -/
theorem witness_HandOverTimersAndCopies_1 : ∃ s : State, ∃ te, ∃ st, ∃ o : Own, getOwn s te st = some o ∧ o.state = .awaiting ∧ running s = true ∧ Tab.find s.fab.handovers (te, st) = none :=
  ⟨owning .awaiting none, 5, 9, ownEntry 0 .awaiting 7 0x0150 false, by decide +kernel⟩

/-- Hypotheses of HandOverTimersAndCopies that are met together. -/
theorem witness_HandOverTimersAndCopies_2 : ∃ s : State, ∃ te, ∃ st, ∃ o : Own, ∃ r : OwnRec, getOwn s te st = some o ∧ o.state = .stalled ∧ commits s = true ∧ recOf s te st = some r ∧ namesMe s r = true ∧ o.claimEpoch < r.epoch :=
  ⟨owning .stalled (some (ownRec 0x0140 0 8)), 5, 9, ownEntry 0 .stalled 7 0x0150 false, ownRec 0x0140 0 8, by decide +kernel⟩

/-- Hypotheses of HandOverTimersAndCopies that are met together. -/
theorem witness_HandOverTimersAndCopies_3 : ∃ s : State, ∃ te, ∃ st, ∃ o : Own, ∃ a, getOwn s te st = some o ∧ o.refusedAt = some a ∧ o.state = .handing ∧ running s = true ∧ recOwner s te st = o.other :=
  ⟨{ owning .handing (some (ownRec 0x0150 0 8)) with fab := { (owning .handing (some (ownRec 0x0150 0 8))).fab with own := [((5, 9), { ownEntry 0 .handing 7 0x0150 false with refusedAt := some 3 })] } }, 5, 9, { ownEntry 0 .handing 7 0x0150 false with refusedAt := some 3 }, 3, by decide +kernel⟩

/-- Hypotheses of HandOverTimersAndCopies that are met together. -/
theorem witness_HandOverTimersAndCopies_4 : ∃ s : State, ∃ te, ∃ st, ∃ o : Own, ∃ a, getOwn s te st = some o ∧ o.refusedAt = some a ∧ o.state = .handing ∧ running s = true ∧ recOwner s te st ≠ o.other :=
  ⟨{ owning .handing (some (ownRec 0x0151 0 8)) with fab := { (owning .handing (some (ownRec 0x0151 0 8))).fab with own := [((5, 9), { ownEntry 0 .handing 7 0x0150 false with refusedAt := some 3 })] } }, 5, 9, { ownEntry 0 .handing 7 0x0150 false with refusedAt := some 3 }, 3, by decide +kernel⟩

/-- Hypotheses of HandOverTimersAndCopies that are met together. -/
theorem witness_HandOverTimersAndCopies_5 : ∃ s : State, ∃ te, ∃ st, ∃ h : Handover, Tab.find s.fab.handovers (te, st) = some h ∧ handoverWhole h = false :=
  ⟨{ owning .awaiting none with fab := { (owning .awaiting none).fab with handovers := [((5, 9), ⟨0x0150, 8, false, false, 0, 0x0150000000000001, 1, none, []⟩)] } }, 5, 9, ⟨0x0150, 8, false, false, 0, 0x0150000000000001, 1, none, []⟩, by decide +kernel⟩

/-- Hypotheses of HandOverTimersAndCopies that are met together. -/
theorem witness_HandOverTimersAndCopies_6 : ∃ s : State, ∃ te, ∃ st, ∃ h : Handover, ∃ u : State, ∃ ts, ∃ v, Tab.find s.fab.handovers (te, st) = some h ∧ commits s = true ∧ handoverWhole h = true ∧ slotAdmitted s te = true ∧ (∀ e ∈ handEntries h, e.kind ≠ 3 ∧ openArrived s te st h e ≠ .noKey ∧ openArrived s te st h e ≠ .bad) ∧ installAll s (((handEntries h).map (openArrived s te st h)).filter (wanted s te st)) = some (ts, u) ∧ installRuns u te st h.endPos h.copy ts [] = some v :=
  ⟨{ owning .awaiting none with fab := { (owning .awaiting none).fab with handovers := [((5, 9), ⟨0x0150, 8, false, false, 0, 0x0150000000000001, 1, some [], []⟩)] } }, 5, 9, ⟨0x0150, 8, false, false, 0, 0x0150000000000001, 1, some [], []⟩, _, [], _, by
    refine ⟨?_, ?_, ?_, ?_, ?_, rfl, rfl⟩ <;> decide +kernel⟩

/-- Hypotheses of HandOverTimersAndCopies that are met together. -/
theorem witness_HandOverTimersAndCopies_7 : ∃ s : State, ∃ n : Nat, ∃ b, hears s = true ∧ effRole s ≠ roleUnplaced ∧ tailFits s 8 b = true ∧ s.fab.active.map Board.fmId = some n ∧ holdsTail s (tailMsgOf b).tenant (tailMsgOf b).stream = true ∧ issuedPlies s ≠ [] :=
  ⟨withPly (owning .owner none) (plyIn .decode (some 0) (memberIn (some 9))), 1, tail 8 7 0 0 true, by decide +kernel⟩

/-- Hypotheses of DigestsAreCompared that are met together. -/
theorem witness_DigestsAreCompared_0 : ∃ s : State, holdsPeer s = true ∧ s.fab.digSend ≠ [] :=
  ⟨shadowed [⟨5, 100, 2, 55, 0, 0⟩], by decide +kernel⟩

/-- Hypotheses of DigestsAreCompared that are met together. -/
theorem witness_DigestsAreCompared_1 : ∃ s : State, ∃ b, ∃ e : List Byte, ∃ d : DigEntry, hears s = true ∧ effRole s ≠ roleUnplaced ∧ leAt b 0 1 = 9 ∧ (chunks 32 (b.drop 16)).take (leAt b 2 2) = [e] ∧ 32 ≤ e.length ∧ d = ⟨leAt e 16 4 % 4096, leAt e 0 8, leAt e 18 2, leAt e 8 8, s.time, 0⟩ ∧ s.fab.digMine.find? (DigEntry.same d) = none :=
  ⟨shadowed [], digestBytes 55, entryOf 55, ⟨5, 100, 2, 55, 0, 0⟩, by decide +kernel⟩

/-- Hypotheses of DigestsAreCompared that are met together. -/
theorem witness_DigestsAreCompared_2 : ∃ s : State, ∃ b, ∃ e : List Byte, ∃ d : DigEntry, ∃ m : DigEntry, hears s = true ∧ effRole s ≠ roleUnplaced ∧ leAt b 0 1 = 9 ∧ (chunks 32 (b.drop 16)).take (leAt b 2 2) = [e] ∧ 32 ≤ e.length ∧ d = ⟨leAt e 16 4 % 4096, leAt e 0 8, leAt e 18 2, leAt e 8 8, s.time, 0⟩ ∧ s.fab.digMine.find? (DigEntry.same d) = some m ∧ m.digest = d.digest :=
  ⟨shadowed [⟨5, 100, 2, 55, 0, 0⟩], digestBytes 55, entryOf 55, ⟨5, 100, 2, 55, 0, 0⟩, ⟨5, 100, 2, 55, 0, 0⟩, by decide +kernel⟩

/-- Hypotheses of DigestsAreCompared that are met together. -/
theorem witness_DigestsAreCompared_3 : ∃ s : State, ∃ b, ∃ e : List Byte, ∃ d : DigEntry, ∃ m : DigEntry, hears s = true ∧ effRole s ≠ roleUnplaced ∧ leAt b 0 1 = 9 ∧ (chunks 32 (b.drop 16)).take (leAt b 2 2) = [e] ∧ 32 ≤ e.length ∧ d = ⟨leAt e 16 4 % 4096, leAt e 0 8, leAt e 18 2, leAt e 8 8, s.time, 0⟩ ∧ s.fab.digMine.find? (DigEntry.same d) = some m ∧ m.digest ≠ d.digest :=
  ⟨shadowed [⟨5, 100, 2, 55, 0, 0⟩], digestBytes 54, entryOf 54, ⟨5, 100, 2, 54, 0, 0⟩, ⟨5, 100, 2, 55, 0, 0⟩, by decide +kernel⟩

/-- Hypotheses of DigestsAreCompared that are met together. -/
theorem witness_DigestsAreCompared_4 : ∃ s : State, ∃ b : List Byte, hears s = true ∧ effRole s ≠ roleUnplaced ∧ leAt b 0 1 ≠ 9 :=
  ⟨node, [], by decide +kernel⟩

/-- Hypotheses of DigestsAreCompared that are met together. -/
theorem witness_DigestsAreCompared_5 : ∃ s : State, ∃ te, ∃ p, ∃ k, ∃ d : DigEntry, s.fab.digTheirs.find? (DigEntry.same ⟨te, p, k, 0, 0, 0⟩) = some d :=
  ⟨{ node with fab := { node.fab with digTheirs := [⟨5, 100, 2, 55, 0, 0⟩] } }, 5, 100, 2, ⟨5, 100, 2, 55, 0, 0⟩, by decide +kernel⟩

/-- Hypotheses of DigestsAreCompared that are met together. -/
theorem witness_DigestsAreCompared_6 : ∃ s : State, ∃ te, ∃ p, ∃ k, ∃ d : DigEntry, s.fab.digTheirs.find? (DigEntry.same ⟨te, p, k, 0, 0, 0⟩) = none ∧ s.fab.digMine.find? (DigEntry.same ⟨te, p, k, 0, 0, 0⟩) = some d :=
  ⟨shadowed [⟨5, 100, 2, 55, 0, 0⟩], 5, 100, 2, ⟨5, 100, 2, 55, 0, 0⟩, by decide +kernel⟩

/-- Hypotheses of SpdmRequestsAreAnsweredInOrder that are met together. -/
theorem witness_SpdmRequestsAreAnsweredInOrder_0 : ∃ s : State, ∃ b, spdmHeard s = true ∧ spdmCode b = 0x84 :=
  ⟨hosted, [0x12, 0x84], by decide +kernel⟩

/-- Hypotheses of SpdmRequestsAreAnsweredInOrder that are met together. -/
theorem witness_SpdmRequestsAreAnsweredInOrder_1 : ∃ s : State, ∃ b, spdmHeard s = true ∧ spdmCode b = 0xE1 :=
  ⟨hosted, [0x12, 0xE1], by decide +kernel⟩

/-- Hypotheses of SpdmRequestsAreAnsweredInOrder that are met together. -/
theorem witness_SpdmRequestsAreAnsweredInOrder_2 : ∃ s : State, ∃ b, spdmHeard s = true ∧ spdmCode b = 0xE3 :=
  ⟨hosted, [0x12, 0xE3], by decide +kernel⟩

/-- Hypotheses of SpdmRequestsAreAnsweredInOrder that are met together. -/
theorem witness_SpdmRequestsAreAnsweredInOrder_3 : ∃ s : State, ∃ b, spdmHeard s = true ∧ spdmCode b = 0xE0 ∧ bitN (leAt b 2 1) 0 = true :=
  ⟨hosted, [0x12, 0xE0, 1, 0], by decide +kernel⟩

/-- Hypotheses of SpdmRequestsAreAnsweredInOrder that are met together. -/
theorem witness_SpdmRequestsAreAnsweredInOrder_4 : ∃ s : State, ∃ b, spdmHeard s = true ∧ spdmCode b = 0xE0 ∧ bitN (leAt b 2 1) 0 = false ∧ s.trust.spdm ≠ 3 :=
  ⟨hosted, [0x12, 0xE0, 0, 0], by decide +kernel⟩

/-- Hypotheses of SpdmRequestsAreAnsweredInOrder that are met together. -/
theorem witness_SpdmRequestsAreAnsweredInOrder_5 : ∃ s : State, ∃ b, spdmHeard s = true ∧ spdmCode b = 0xE0 ∧ bitN (leAt b 2 1) 0 = false ∧ s.trust.spdm = 3 ∧ (leAt b 3 1 ≤ 5 ∨ leAt b 3 1 = 0xFF) :=
  ⟨{ hosted with trust := { Trust.reset with spdm := 3 } }, [0x12, 0xE0, 0, 0xFF], by decide +kernel⟩

/-- Hypotheses of SpdmRequestsAreAnsweredInOrder that are met together. -/
theorem witness_SpdmRequestsAreAnsweredInOrder_6 : ∃ s : State, ∃ node : Nat, ∃ x : W64, owningHost s = some (node, x) :=
  ⟨hosted, 0x0002, (getSeat hosted 0).unitId, by decide +kernel⟩

/-- Hypotheses of SpdmRequestsAreAnsweredInOrder that are met together. -/
theorem witness_SpdmRequestsAreAnsweredInOrder_8 : ∃ s : State, ∃ b, spdmHeard s = true ∧ spdmKnown (spdmCode b) = false ∧ spdmCode b ≠ 0xE0 :=
  ⟨hosted, [0x12, 0x85], by decide +kernel⟩

/-- Hypotheses of SpdmRequestsAreAnsweredInOrder that are met together. -/
theorem witness_SpdmRequestsAreAnsweredInOrder_9 : ∃ s : State, ∃ b, spdmHeard s = false ∧ spdmCode b = 0x84 :=
  ⟨node, [0x12, 0x84], by decide +kernel⟩

/-- Hypotheses of SpdmRequestsAreAnsweredInOrder that are met together. -/
theorem witness_SpdmRequestsAreAnsweredInOrder_10 : ∃ s : State, ∃ b, spdmHeard s = false ∧ spdmCode b = 0xE1 :=
  ⟨node, [0x12, 0xE1], by decide +kernel⟩

/-- Hypotheses of SpdmRequestsAreAnsweredInOrder that are met together. -/
theorem witness_SpdmRequestsAreAnsweredInOrder_11 : ∃ s : State, ∃ b, spdmHeard s = false ∧ spdmCode b = 0xE3 :=
  ⟨node, [0x12, 0xE3], by decide +kernel⟩

/-- Hypotheses of SpdmRequestsAreAnsweredInOrder that are met together. -/
theorem witness_SpdmRequestsAreAnsweredInOrder_12 : ∃ s : State, ∃ b, spdmHeard s = false ∧ spdmCode b = 0xE0 :=
  ⟨node, [0x12, 0xE0], by decide +kernel⟩

/-- Hypotheses of StepRunsTheFrontCommand that are met together. -/
theorem witness_StepRunsTheFrontCommand_1 : ∃ s : State, ∃ c, ∃ rest, s.pending = c :: rest :=
  ⟨{ node with pending := [.powerGood true, .pwrgdLow] }, .powerGood true, [.pwrgdLow], rfl⟩

/-- Hypotheses of StepRunsTheFrontCommand that are met together. -/
theorem witness_StepRunsTheFrontCommand_3 : ∃ s : State, s.pending = [] :=
  ⟨node, rfl⟩

/-- Hypotheses of EveryStepKeepsTheInvariant that are met together. -/
theorem witness_EveryStepKeepsTheInvariant_0 : ∃ s : State, ∃ t, Safety.Inv s ∧ step s = .next t :=
  ⟨node, idleCycle node, ⟨by unfold Safety.Sound; decide +kernel, by decide +kernel, by decide +kernel, fun h => ⟨⟨.nil, fun x hx => absurd hx List.not_mem_nil⟩, fun x hx => absurd hx List.not_mem_nil⟩⟩, rfl⟩

end Sys2Proof.Tests
end

section
/-! Lookups of the run directory (06, R137 to R139, R144, R145): the rules of a half and of a counter, what the release of descriptors
leaves, what a group step leaves of the PENDING rows, what a lookup answers; they settle O37. -/

namespace Sys2Proof.Proofs
open Sys2Proof Sys2Proof.Machine Sys2Proof.Safety Sys2Proof.Laws

/-! ### Lists, halves and counters -/

theorem mem_foldl_collect {α : Type} [DecidableEq α] (a : α) (l acc : List α) :
    a ∈ l.foldl (fun acc b => if acc.contains b then acc else b :: acc) acc ↔ a ∈ acc ∨ a ∈ l := by
  induction l generalizing acc with
  | nil => simp
  | cons b l ih =>
    rw [List.foldl_cons, ih]
    by_cases hb : b ∈ acc
    · rw [if_pos (List.contains_iff_mem.mpr hb), List.mem_cons]
      exact ⟨Or.imp_right .inr, fun ha => ha.elim .inl fun ha => ha.imp_left fun e : a = b => e ▸ hb⟩
    · rw [if_neg (mt List.contains_iff_mem.mp hb), List.mem_cons, List.mem_cons, or_assoc, or_left_comm]

@[simp] theorem mem_dedup {α : Type} [DecidableEq α] (a : α) (l : List α) : a ∈ dedup l ↔ a ∈ l := by
  rw [dedup, List.mem_reverse, mem_foldl_collect]
  simp

@[simp] theorem getHalf_putHalf_same (s : State) (h : Nat) (x : Half) : getHalf (putHalf s h x) h = x := get_put_same _ _ _ _

theorem getHalf_putHalf_other (s : State) {g h : Nat} (x : Half) (hg : g ≠ h) : getHalf (putHalf s h x) g = getHalf s g :=
  get_put_other _ _ _ _ _ hg

theorem getHalf_of_dir_eq {s t : State} (e : t.dir = s.dir) (h : Nat) : getHalf t h = getHalf s h := by
  rw [getHalf, e, ← getHalf]

@[simp] theorem getCtr_putHalf (s : State) (h : Nat) (x : Half) (c : Ctr) : getCtr (putHalf s h x) c = getCtr s c := rfl

@[simp] theorem getCtr_bump_same (s : State) (c : Ctr) : getCtr (bump s c) c = satAdd 64 (getCtr s c) 1 := by
  simp [getCtr, bump, addCtr]

theorem getCtr_addCtr_other (s : State) {c d : Ctr} (n : Nat) (hd : d ≠ c) : getCtr (addCtr s c n) d = getCtr s d := by
  unfold getCtr addCtr
  split
  · rfl
  · simp [get_upd_other _ _ _ _ _ hd]

theorem getCtr_bump_other (s : State) {c d : Ctr} (hd : d ≠ c) : getCtr (bump s c) d = getCtr s d := getCtr_addCtr_other s 1 hd

/-! ### The frame `Inward` -/

theorem inward_refl (s : State) : Inward s s := by constructor <;> rfl

theorem inward_trans {s t u : State} (a : Inward s t) (b : Inward t u) : Inward s u :=
  ⟨b.time.trans a.time, b.boot.trans a.boot, by rw [b.rst, a.rst], b.supply.trans a.supply, b.mon.trans a.mon, b.acc.trans a.acc,
    b.pending.trans a.pending⟩

theorem inward_of_outward {s t : State} (a : Outward s t) : Inward s t :=
  ⟨a.time, a.boot, a.rst, a.supply, a.mon, a.acc, a.pending⟩

theorem inward_putHalf (s : State) (h : Nat) (x : Half) : Inward s (putHalf s h x) := by constructor <;> rfl

/-! ### The release of descriptors changes the memory and sends (R41, R135, R165, R297) -/

/-- Between `s` and `t` nothing has changed but the memory, and what sending changes. -/
def MemSent (s t : State) : Prop := Sent { s with mem := t.mem } t

theorem memSent_refl (s : State) : MemSent s s := sent_refl s

theorem memSent_trans {s t u : State} (a : MemSent s t) (b : MemSent t u) : MemSent s u :=
  sent_trans (t := { t with mem := u.mem })
    ⟨a.time, a.boot, a.rst, a.supply, a.mon, a.health, a.cores, a.fab, a.dir, rfl, a.nb, a.pg, a.trust, a.acc, a.pending, a.ev⟩ b

theorem memSent_mem (s : State) (m : Memory) : MemSent s { s with mem := m } := sent_refl _

theorem memSent_of_sent {s t : State} (a : Sent s t) : MemSent s t := by
  unfold MemSent
  rw [a.mem]
  exact a

theorem memSent_ite {s a b : State} {c : Prop} [Decidable c] (ha : MemSent s a) (hb : MemSent s b) : MemSent s (if c then a else b) := by
  split
  · exact ha
  · exact hb

theorem memSent_foldl {α : Type} {f : State → α → State} (hf : ∀ s a, MemSent s (f s a)) (l : List α) (s : State) :
    MemSent s (l.foldl f s) := by
  induction l generalizing s with
  | nil => exact memSent_refl s
  | cons a r ih => exact memSent_trans (hf s a) (ih _)

theorem inward_of_memSent {s t : State} (a : MemSent s t) : Inward s t :=
  ⟨a.time, a.boot, by rw [a.rst], a.supply, a.mon, a.acc, a.pending⟩

theorem getHalf_of_memSent {s t : State} (a : MemSent s t) (h : Nat) : getHalf t h = getHalf s h := getHalf_of_dir_eq a.dir h

theorem memSent_drainReads (s : State) (reads : Ply → Bool) (d : Drain) : MemSent s (drainReads s reads d) := by
  unfold drainReads
  refine memSent_ite ?_ (memSent_mem _ _)
  cases d.desc with
  | none => exact memSent_refl s
  | some k => exact memSent_mem _ _

theorem memSent_releaseReplicas (s : State) (t k : Nat) (ns : List Nat) : MemSent s (releaseReplicas s t k ns) :=
  memSent_foldl (fun _ _ => memSent_of_sent (sent_sendMsg _ _ _ _ _ _)) _ _

theorem memSent_dropCopies (s : State) (t : Tile) : MemSent s (dropCopies s t) := by
  have hf : MemSent s (if (Tab.find s.mem.fetches t.objKey).isSome then delFetch s t.objKey else s) :=
    memSent_ite (memSent_mem _ _) (memSent_refl s)
  unfold dropCopies
  dsimp only
  split
  · exact memSent_trans hf (memSent_trans (memSent_mem _ _) (memSent_releaseReplicas _ _ _ _))
  · exact hf
  · exact memSent_trans hf (memSent_releaseReplicas _ _ _ _)

theorem memSent_retireTile (s : State) (o : Nat) : MemSent s (retireTile s o) := by
  unfold retireTile
  split
  · exact memSent_refl s
  · rename_i t _
    have hd : MemSent s (delTile (dropCopies s t) o) := memSent_trans (memSent_dropCopies s t) (memSent_mem _ _)
    exact memSent_ite hd (memSent_trans hd (memSent_drainReads _ _ _))

theorem memSent_lowerShare (s : State) (o : Nat) : MemSent s (lowerShare s o) := by
  unfold lowerShare
  split
  · exact memSent_refl s
  · exact memSent_ite (memSent_trans (memSent_mem _ _) (memSent_retireTile _ _)) (memSent_mem _ _)

theorem memSent_unlistOwn (s : State) (o : Nat) : MemSent s (unlistOwn s o) := by
  unfold unlistOwn
  split
  · exact memSent_refl s
  · exact memSent_ite (memSent_retireTile _ _) (memSent_mem _ _)

theorem memSent_dropDesc (s : State) (d : Nat) : MemSent s (dropDesc s d) := by
  unfold dropDesc
  split
  · exact memSent_refl s
  · exact memSent_trans (memSent_foldl (fun _ _ => memSent_ite (memSent_lowerShare _ _) (memSent_unlistOwn _ _)) _ _)
      (memSent_drainReads _ _ _)

theorem memSent_replaceDesc (s : State) (d : Nat) : MemSent s (replaceDesc s d) := by
  unfold replaceDesc
  split
  · exact memSent_refl s
  · exact memSent_drainReads _ _ _

theorem memSent_switchDesc (s : State) (d new : Nat) : MemSent s (switchDesc s d new) := by
  unfold switchDesc
  split
  · exact memSent_trans (memSent_mem _ _) (memSent_replaceDesc _ _)
  · exact memSent_refl s

theorem memSent_dropRow (s : State) (r : Row) : MemSent s (dropRow s r) := memSent_trans (memSent_dropDesc _ _) (memSent_mem _ _)

/-! ### Group steps (R144, R145) -/

/-- Steps 2 and 3 of a context write its half once and release descriptors; a row that is PENDING then was PENDING before, for another
context. -/
theorem groupWrite_cases (s : State) (h c : Nat) : ∃ x, MemSent (putHalf s h x) (groupWrite s h c) ∧
    ∀ n r, (n, r) ∈ x.rows → r.state = .pending → r.ctx ≠ c ∧ (n, r) ∈ (getHalf s h).rows := by
  refine ⟨_, memSent_trans (memSent_foldl (fun _ _ => memSent_dropRow _ _) _ _) (memSent_foldl (fun _ _ => memSent_switchDesc _ _ _) _ _), ?_⟩
  intro n r hr hp
  obtain ⟨⟨m, q⟩, hq, e⟩ := List.mem_map.mp hr
  have hq := (List.mem_filter.mp hq).1
  by_cases hc : (q.ctx == c && q.state == .pending) = true
  · rw [if_pos hc] at e
    cases e
    exact RowState.noConfusion hp
  · rw [if_neg hc] at e
    cases e
    exact ⟨fun hn => hc (by simp [hn, hp]), hq⟩

/-- Steps 2 and 3 of the commits of several contexts, as a repeat finds them done. -/
def groupWrites (s : State) (h : Nat) (cs : List Nat) : State := cs.foldl (fun s c => groupWrite s h c) s

/-- A row that is PENDING after the group steps was PENDING before, for none of these contexts. -/
theorem groupWrites_keep (h : Nat) (cs : List Nat) (s : State) : Inward s (groupWrites s h cs) ∧
    ∀ n r, (n, r) ∈ (getHalf (groupWrites s h cs) h).rows → r.state = .pending → r.ctx ∉ cs ∧ (n, r) ∈ (getHalf s h).rows := by
  induction cs generalizing s with
  | nil => exact ⟨inward_refl s, fun _ _ hr _ => ⟨List.not_mem_nil, hr⟩⟩
  | cons c cs ih =>
    obtain ⟨hin, hrows⟩ := ih (groupWrite s h c)
    obtain ⟨x, hx, hxr⟩ := groupWrite_cases s h c
    have hhalf : getHalf (groupWrite s h c) h = x := by rw [getHalf_of_memSent hx, getHalf_putHalf_same]
    refine ⟨inward_trans (inward_trans (inward_putHalf s h x) (inward_of_memSent hx)) hin, fun n r hr hp => ?_⟩
    obtain ⟨hcs, hr⟩ := hrows n r hr hp
    rw [hhalf] at hr
    obtain ⟨hc, hr⟩ := hxr n r hr hp
    exact ⟨by simp [hc, hcs], hr⟩

theorem mem_pendingCtxs {s : State} {h n : Nat} {r : Row} (hr : (n, r) ∈ (getHalf s h).rows) (hp : r.state = .pending) :
    r.ctx ∈ pendingCtxs s h r.tenant r.stream := by
  unfold pendingCtxs
  rw [mem_dedup]
  exact List.mem_map.mpr ⟨(n, r), List.mem_filter.mpr ⟨hr, by simp [Row.of, hp]⟩, rfl⟩

/-- Once every commit with PENDING rows of a stream has done its group steps, the half has no PENDING row of the stream. -/
theorem no_pending_after_groupWrites (s : State) (h t st : Nat) {n : Nat} {r : Row}
    (hr : (n, r) ∈ (getHalf (groupWrites s h (pendingCtxs s h t st)) h).rows) (ht : r.tenant = t) (hs : r.stream = st) :
    r.state ≠ .pending := fun hp => by
  subst ht hs
  obtain ⟨hc, hr⟩ := (groupWrites_keep h _ s).2 n r hr hp
  exact hc (mem_pendingCtxs hr hp)

/-! ### The outcome of a lookup (R137, R138) -/

theorem mem_comparedRows {x : Half} {t st : Nat} {r : Row} :
    r ∈ comparedRows x t st ↔ ∃ n, (n, r) ∈ x.rows ∧ r.state ≠ .staged ∧ r.tag = dirTag t st := by
  simp [comparedRows, Row.compared]

theorem comparedRows_sublist (x : Half) (t st : Nat) : (comparedRows x t st).Sublist (x.rows.map Prod.snd) := List.filter_sublist

theorem lookupOutcome_eq_pending_iff (x : Half) (l : Lookup) : lookupOutcome x l = .pending ↔
    ∃ r ∈ comparedRows x l.tenant l.stream, r.tenant = l.tenant ∧ r.stream = l.stream ∧ r.state = .pending := by
  simp [lookupOutcome, Row.of, and_assoc]

theorem lookupOutcome_eq_rows {x : Half} {l : Lookup} {rs : List Row} (h : lookupOutcome x l = .rows rs) :
    rs = ((comparedRows x l.tenant l.stream).filter (fun r => r.of l.tenant l.stream)).filter
      (fun r => r.state == .valid && decide (r.low ≤ l.high ∧ l.low ≤ r.high)) := by
  unfold lookupOutcome at h
  dsimp only at h
  split at h
  · cases h
  · exact (Outcome138.rows.inj h).symm

theorem lookupOutcome_rows_of_ne_pending {x : Half} {l : Lookup} (h : lookupOutcome x l ≠ .pending) :
    ∃ rs, lookupOutcome x l = .rows rs := by
  cases e : lookupOutcome x l with
  | pending => exact absurd e h
  | rows rs => exact ⟨rs, rfl⟩

theorem lookupOutcome_rows_sublist {x : Half} {l : Lookup} {rs : List Row} (h : lookupOutcome x l = .rows rs) :
    rs.Sublist (x.rows.map Prod.snd) := by
  rw [lookupOutcome_eq_rows h]
  exact (List.filter_sublist.trans List.filter_sublist).trans (comparedRows_sublist _ _ _)

theorem mem_lookupOutcome_rows {x : Half} {l : Lookup} {rs : List Row} (h : lookupOutcome x l = .rows rs) (r : Row) :
    r ∈ rs ↔ r ∈ comparedRows x l.tenant l.stream ∧ r.tenant = l.tenant ∧ r.stream = l.stream ∧ r.state = .valid ∧ r.low ≤ l.high ∧
      l.low ≤ r.high := by
  rw [lookupOutcome_eq_rows h]
  simp only [Row.of, List.mem_filter, Bool.and_eq_true, beq_iff_eq, decide_eq_true_eq, and_assoc]

section Tagged
variable {x : Half} (hx : ∀ r ∈ x.rows, r.2.tag = dirTag r.2.tenant r.2.stream)
include hx

/-- The pre-filter tag drops no row of the stream: only STAGED ones are not compared. -/
theorem mem_comparedRows_of_stream {t st : Nat} {r : Row} (ht : r.tenant = t) (hs : r.stream = st) :
    r ∈ comparedRows x t st ↔ ∃ n, (n, r) ∈ x.rows ∧ r.state ≠ .staged := by
  subst ht hs
  rw [mem_comparedRows]
  exact exists_congr fun n => ⟨fun ⟨hr, hst, _⟩ => ⟨hr, hst⟩, fun ⟨hr, hst⟩ => ⟨hr, hst, hx _ hr⟩⟩

theorem lookup_pending_iff (l : Lookup) : lookupOutcome x l = .pending ↔
    ∃ n r, (n, r) ∈ x.rows ∧ r.tenant = l.tenant ∧ r.stream = l.stream ∧ r.state = .pending := by
  rw [lookupOutcome_eq_pending_iff]
  constructor
  · rintro ⟨r, hr, hof⟩
    obtain ⟨n, hr, -⟩ := mem_comparedRows.mp hr
    exact ⟨n, r, hr, hof⟩
  · rintro ⟨n, r, hr, ht, hs, hp⟩
    exact ⟨r, (mem_comparedRows_of_stream hx ht hs).mpr ⟨n, hr, by simp [hp]⟩, ht, hs, hp⟩

theorem mem_lookup_rows_iff {l : Lookup} {rs : List Row} (h : lookupOutcome x l = .rows rs) (r : Row) :
    r ∈ rs ↔ ∃ n, (n, r) ∈ x.rows ∧ r.tenant = l.tenant ∧ r.stream = l.stream ∧ r.state = .valid ∧ r.low ≤ l.high ∧ l.low ≤ r.high := by
  rw [mem_lookupOutcome_rows h]
  constructor
  · rintro ⟨hr, hof⟩
    obtain ⟨n, hr, -⟩ := mem_comparedRows.mp hr
    exact ⟨n, hr, hof⟩
  · rintro ⟨n, hr, ht, hs, hv, hrange⟩
    exact ⟨(mem_comparedRows_of_stream hx ht hs).mpr ⟨n, hr, by simp [hv]⟩, ht, hs, hv, hrange⟩

end Tagged

/-- Keys of one stream are ordered as their LOWs (R140). -/
theorem low_le_of_key_le {a b : Row} (ht : a.tenant = b.tenant) (hs : a.stream = b.stream) (hk : a.key ≤ b.key) : a.low ≤ b.low := by
  unfold Row.key entryKey at hk
  rw [ht, hs] at hk
  omega

/-- Rows answered from a half in order stand in the order of their LOWs. -/
theorem lookup_rows_ascending {x : Half} {l : Lookup} {rs : List Row} (h : lookupOutcome x l = .rows rs) (ho : RowsOrdered x.rows) :
    rs.Pairwise (fun a b => a.low ≤ b.low) := by
  have hkeys : (x.rows.map Prod.snd).Pairwise (fun a b => a.key ≤ b.key) := List.pairwise_map.mpr (ho.1.imp And.right)
  refine (hkeys.sublist (lookupOutcome_rows_sublist h)).imp_of_mem fun {a b} ha hb hk => ?_
  obtain ⟨-, hat, has, -⟩ := (mem_lookupOutcome_rows h a).mp ha
  obtain ⟨-, hbt, hbs, -⟩ := (mem_lookupOutcome_rows h b).mp hb
  exact low_le_of_key_le (hat.trans hbt.symm) (has.trans hbs.symm) hk

/-! ### One lookup (R138, R139) -/

/-- A half that has noted the outcome of a lookup; the lookup stays noted for its repeat where the outcome is pending. -/
def notedHalf (x : Half) (req : Nat) (l : Lookup) : Half :=
  { x with outcomes := Tab.put x.outcomes req (lookupOutcome x l)
           lookups := if lookupOutcome x l = .pending then Tab.put x.lookups req l else Tab.del x.lookups req }

@[simp] theorem notedHalf_rows (x : Half) (req : Nat) (l : Lookup) : (notedHalf x req l).rows = x.rows := rfl

@[simp] theorem find_notedHalf_outcomes (x : Half) (req : Nat) (l : Lookup) :
    Tab.find (notedHalf x req l).outcomes req = some (lookupOutcome x l) := find_put_same _ _ _

theorem find_notedHalf_lookups {x : Half} {l : Lookup} (req : Nat) (h : lookupOutcome x l ≠ .pending) :
    Tab.find (notedHalf x req l).lookups req = none := by
  rw [notedHalf, if_neg h, find_del_same]

section Lookup
variable (s : State) (h req : Nat) (l : Lookup) (again : Bool)

/-- A lookup counts, and notes its outcome in its half. -/
theorem lookupEffect_cases : ∃ u, Sent s u ∧ lookupEffect s h req l again = putHalf u h (notedHalf (getHalf s h) req l) :=
  ⟨_, sent_trans (sent_trans (sent_addCtr s _ _) (sent_bump _ _)) (sent_ite (sent_bump _ _) (sent_refl _)), rfl⟩

theorem getHalf_lookupEffect_same : getHalf (lookupEffect s h req l again) h = notedHalf (getHalf s h) req l := by
  obtain ⟨u, -, e⟩ := lookupEffect_cases s h req l again
  rw [e, getHalf_putHalf_same]

theorem getHalf_lookupEffect_other {g : Nat} (hg : g ≠ h) : getHalf (lookupEffect s h req l again) g = getHalf s g := by
  obtain ⟨u, hu, e⟩ := lookupEffect_cases s h req l again
  rw [e, getHalf_putHalf_other _ _ hg, getHalf_of_dir_eq hu.dir]

theorem outward_lookupEffect : Outward { s with dir := (lookupEffect s h req l again).dir } (lookupEffect s h req l again) := by
  obtain ⟨u, hu, e⟩ := lookupEffect_cases s h req l again
  have a := outward_of_sent hu
  rw [e]
  exact ⟨a.time, a.boot, a.rst, a.supply, a.mon, a.health, a.cores, a.fab, rfl, a.mem, a.nb, a.pg, a.trust, a.acc, a.pending⟩

theorem inward_lookupEffect : Inward s (lookupEffect s h req l again) := by
  obtain ⟨u, hu, e⟩ := lookupEffect_cases s h req l again
  rw [e]
  exact inward_trans (inward_of_outward (outward_of_sent hu)) (inward_putHalf _ _ _)

/-- A first lookup counts one in DIR_STAT.LOOKUPS (log 14). -/
theorem getCtr_lookupEffect_lookups :
    getCtr (lookupEffect s h req l false) (.dirStat h 0) = satAdd 64 (getCtr s (.dirStat h 0)) 1 := by
  have hpf : Ctr.dirStat h 0 ≠ Ctr.dirPf h := by simp
  have hpend : Ctr.dirStat h 0 ≠ Ctr.dirStat h 1 := by simp
  unfold lookupEffect
  dsimp only
  rw [getCtr_putHalf]
  split
  · rw [getCtr_bump_other _ hpend, if_neg Bool.false_ne_true, getCtr_bump_same, getCtr_addCtr_other _ _ hpf]
  · rw [if_neg Bool.false_ne_true, getCtr_bump_same, getCtr_addCtr_other _ _ hpf]

end Lookup

/-! ### The two commands -/

theorem exec_dirLookup {s : State} {h req t st low high : Nat} (hh : h < 2) (hr : low ≤ high) :
    exec (.dirLookup h req t st low high) s = .next (lookupEffect s h req ⟨t, st, low, high⟩ false) := by
  show Host.Outcome.next (dirLookupEffect s h req t st low high) = _
  unfold dirLookupEffect
  rw [if_neg (by omega)]

theorem exec_dirLookupRepeat {s : State} {h req : Nat} {l : Lookup} (hl : Tab.find (getHalf s h).lookups req = some l) :
    exec (.dirLookupRepeat h req) s =
      .next (lookupEffect (groupWrites s h (pendingCtxs s h l.tenant l.stream)) h req l true) := by
  show Host.Outcome.next (dirLookupRepeatEffect s h req) = _
  unfold dirLookupRepeatEffect
  rw [hl]
  rfl

theorem dirLookup_answers {s : State} {h req t st low high : Nat} (hh : h < 2) (hr : low ≤ high) :
    Answers (.dirLookup h req t st low high) s fun u =>
      Tab.find (getHalf u h).outcomes req = some (lookupOutcome (getHalf s h) ⟨t, st, low, high⟩) ∧
      (getHalf u h).rows = (getHalf s h).rows ∧ (∀ g, g ≠ h → getHalf u g = getHalf s g) ∧
      getCtr u (.dirStat h 0) = satAdd 64 (getCtr s (.dirStat h 0)) 1 ∧ Outward { s with dir := u.dir } u := by
  refine ⟨_, exec_dirLookup hh hr, ?_, ?_, fun g hg => getHalf_lookupEffect_other _ _ _ _ _ hg, getCtr_lookupEffect_lookups _ _ _ _,
    outward_lookupEffect _ _ _ _ _⟩
  · rw [getHalf_lookupEffect_same, find_notedHalf_outcomes]
  · rw [getHalf_lookupEffect_same, notedHalf_rows]

/-- The repeat is final: it answers rows, and the lookup is no longer noted. -/
theorem dirLookupRepeat_answers {s : State} {h req : Nat} {l : Lookup} (hl : Tab.find (getHalf s h).lookups req = some l) :
    Answers (.dirLookupRepeat h req) s fun u =>
      (∃ rs, Tab.find (getHalf u h).outcomes req = some (.rows rs)) ∧ Tab.find (getHalf u h).lookups req = none ∧ Inward s u := by
  refine ⟨_, exec_dirLookupRepeat hl, ?_⟩
  have hin := (groupWrites_keep h (pendingCtxs s h l.tenant l.stream) s).1
  have hno := fun n r => no_pending_after_groupWrites s h l.tenant l.stream (n := n) (r := r)
  generalize groupWrites s h (pendingCtxs s h l.tenant l.stream) = s1 at hin hno ⊢
  have hne : lookupOutcome (getHalf s1 h) l ≠ .pending := fun hp => by
    obtain ⟨r, hr, ht, hs, hp⟩ := (lookupOutcome_eq_pending_iff _ l).mp hp
    obtain ⟨n, hr, -⟩ := mem_comparedRows.mp hr
    exact hno n r hr ht hs hp
  obtain ⟨rs, hrs⟩ := lookupOutcome_rows_of_ne_pending hne
  dsimp only
  rw [getHalf_lookupEffect_same, find_notedHalf_outcomes, hrs]
  exact ⟨⟨rs, rfl⟩, find_notedHalf_lookups req hne, inward_trans hin (inward_lookupEffect _ _ _ _ _)⟩

/-- Settles O37: a lookup notes its outcome and leaves the rows; what the outcome holds follows from the rows that are compared; before a
repeat every commit with PENDING rows of the stream has done its group steps. -/
theorem directoryLookupsAnswer : Obligations.DirectoryLookupsAnswer := by
  unfold Obligations.DirectoryLookupsAnswer
  refine ⟨fun s h req t st low high hh hr => dirLookup_answers hh hr, fun x l hx => ⟨lookup_pending_iff hx l, fun rs hrs => ?_⟩,
    fun s h req l hl => dirLookupRepeat_answers hl⟩
  exact ⟨mem_lookup_rows_iff hx hrs, lookupOutcome_rows_sublist hrs, lookup_rows_ascending hrs⟩

end Sys2Proof.Proofs
end

section
/-! The integrity code of 09 (R206 to R210, R212): exclusive ors of bits, the check word's layout, the syndromes as a linear map of
the stored bits, the rows of R209 one by one; they settle O35 and O36. -/

namespace Sys2Proof.Proofs
open Sys2Proof Sys2Proof.Machine Sys2Proof.Safety

/-! ### Exclusive ors, parities and weights -/

theorem bne_eq_xor (a b : Bool) : (a != b) = (a ^^ b) := rfl

theorem xor_xor_self_left (x y : Nat) : x ^^^ y ^^^ x = y := by
  rw [Nat.xor_comm x y, Nat.xor_assoc, Nat.xor_self, Nat.xor_zero]

theorem eq_of_nat_xor_eq_zero {x y : Nat} (h : x ^^^ y = 0) : x = y := by
  have hy : x ^^^ y ^^^ y = x := by rw [Nat.xor_assoc, Nat.xor_self, Nat.xor_zero]
  rw [← hy, h, Nat.zero_xor]

theorem xor_xor_xor_comm : ∀ a b c d : Bool, ((a ^^ b) ^^ (c ^^ d)) = ((a ^^ c) ^^ (b ^^ d)) := by decide

@[simp] theorem xorBits_zero (f : Nat → Bool) : xorBits 0 f = false := rfl

theorem xorBits_succ (n : Nat) (f : Nat → Bool) : xorBits (n + 1) f = (xorBits n f ^^ f n) := by
  simp [xorBits, List.range_succ]

theorem xorBits_congr {n : Nat} {f g : Nat → Bool} (h : ∀ i < n, f i = g i) : xorBits n f = xorBits n g := by
  induction n with
  | zero => rfl
  | succ n ih => rw [xorBits_succ, xorBits_succ, ih fun i hi => h i (by omega), h n (by omega)]

@[simp] theorem xorBits_false (n : Nat) : xorBits n (fun _ => false) = false := by
  induction n with
  | zero => rfl
  | succ n ih => rw [xorBits_succ, ih]; rfl

theorem xorBits_xor (n : Nat) (f g : Nat → Bool) : xorBits n (fun i => f i ^^ g i) = (xorBits n f ^^ xorBits n g) := by
  induction n with
  | zero => rfl
  | succ n ih => rw [xorBits_succ, xorBits_succ, xorBits_succ, ih, xor_xor_xor_comm]

/-- Rows first or columns first: the order of the two sums does not matter. -/
theorem xorBits_comm (n m : Nat) (f : Nat → Nat → Bool) :
    xorBits n (fun i => xorBits m (f i)) = xorBits m (fun j => xorBits n (fun i => f i j)) := by
  induction m with
  | zero => exact xorBits_false n
  | succ m ih => rw [xorBits_succ, ← ih, ← xorBits_xor]; exact xorBits_congr fun i _ => xorBits_succ m (f i)

theorem xorBits_add (n m : Nat) (f : Nat → Bool) : xorBits (n + m) f = (xorBits n f ^^ xorBits m (fun i => f (n + i))) := by
  induction m with
  | zero => simp
  | succ m ih => rw [← Nat.add_assoc, xorBits_succ, xorBits_succ, ih, Bool.xor_assoc]

/-- The bits of `n` rows of `m`, row after row. -/
theorem xorBits_mul (n m : Nat) (f : Nat → Bool) : xorBits (m * n) f = xorBits n (fun i => xorBits m (fun j => f (m * i + j))) := by
  induction n with
  | zero => rfl
  | succ n ih => rw [Nat.mul_succ, xorBits_add, ih, xorBits_succ]

theorem xorBits_eq_index (n k : Nat) : xorBits n (fun i => decide (k = i)) = decide (k < n) := by
  induction n with
  | zero => rfl
  | succ n ih =>
    rw [xorBits_succ, ih]
    rcases Nat.lt_trichotomy k n with h | rfl | h
    · simp [h, Nat.ne_of_lt h, Nat.lt_succ_of_lt h]
    · simp
    · simp [Nat.ne_of_gt h, Nat.not_lt_of_lt h, Nat.not_lt.mpr h]

theorem parity_eq_xorBits (w v : Nat) : parity w v = xorBits w v.testBit := rfl

@[simp] theorem parity_zero (w : Nat) : parity w 0 = false :=
  (xorBits_congr fun i _ => Nat.zero_testBit i).trans (xorBits_false w)

theorem parity_xor (w x y : Nat) : parity w (x ^^^ y) = (parity w x ^^ parity w y) := by
  rw [parity_eq_xorBits, parity_eq_xorBits, parity_eq_xorBits, ← xorBits_xor]
  exact xorBits_congr fun i _ => Nat.testBit_xor x y i

@[simp] theorem parity_two_pow (w k : Nat) : parity w (2 ^ k) = decide (k < w) := by
  rw [parity_eq_xorBits, ← xorBits_eq_index]
  exact xorBits_congr fun i _ => Nat.testBit_two_pow

theorem weight_succ (n v : Nat) : weight (n + 1) v = weight n v + (v.testBit n).toNat := by
  unfold weight
  rw [List.range_succ, List.filter_append, List.length_append]
  cases h : v.testBit n <;> simp [h]

@[simp] theorem weight_zero_right (n : Nat) : weight n 0 = 0 := by simp [weight]

@[simp] theorem weight_two_pow (n k : Nat) : weight n (2 ^ k) = if k < n then 1 else 0 := by
  induction n with
  | zero => rfl
  | succ n ih =>
    rw [weight_succ, ih, Nat.testBit_two_pow]
    rcases Nat.lt_trichotomy k n with h | rfl | h
    · simp [h, Nat.ne_of_lt h, Nat.lt_succ_of_lt h]
    · simp
    · simp [Nat.ne_of_gt h, Nat.not_lt_of_lt h, Nat.not_lt.mpr h]

theorem weight_xor_le (n x y : Nat) : weight n (x ^^^ y) ≤ weight n x + weight n y := by
  induction n with
  | zero => exact Nat.zero_le _
  | succ n ih =>
    have hbit : ((x ^^^ y).testBit n).toNat ≤ (x.testBit n).toNat + (y.testBit n).toNat := by
      rw [Nat.testBit_xor]; cases x.testBit n <;> cases y.testBit n <;> decide
    simp only [weight_succ]
    omega

theorem parity_eq_odd_weight (n v : Nat) : parity n v = decide (weight n v % 2 = 1) := by
  induction n with
  | zero => rfl
  | succ n ih =>
    rw [parity_eq_xorBits, xorBits_succ, ← parity_eq_xorBits, ih, weight_succ]
    rcases Nat.mod_two_eq_zero_or_one (weight n v) with h | h <;> cases v.testBit n <;> simp [h, Nat.add_mod]

theorem eq_zero_of_weight_eq_zero {n v : Nat} (hv : v < 2 ^ n) (h : weight n v = 0) : v = 0 := by
  refine Nat.eq_of_testBit_eq fun i => ?_
  rw [Nat.zero_testBit]
  by_cases hi : i < n
  · simp only [weight, List.length_eq_zero_iff, List.filter_eq_nil_iff, List.mem_range, Bool.not_eq_true] at h
    exact h i hi
  · exact Nat.testBit_lt_two_pow (Nat.lt_of_lt_of_le hv (Nat.pow_le_pow_right (by decide) (by omega)))

/-! ### Rows and columns of the data -/

theorem testBit_rowOf (d r c : Nat) : (rowOf d r).testBit c = (decide (c < 32) && d.testBit (cell r c)) := by
  rw [rowOf, Nat.testBit_mod_two_pow, Nat.testBit_shiftRight, cell]

/-- The number whose first `n` bits `f` gives, as `rowPar` builds it. -/
theorem testBit_sum_bits (n i : Nat) (f : Nat → Bool) :
    ((List.range n).foldl (fun acc r => acc + (if f r then 2 ^ r else 0)) 0).testBit i = (decide (i < n) && f i) := by
  induction n generalizing i with
  | zero => simp
  | succ n ih =>
    rw [List.range_succ, List.foldl_append, List.foldl_cons, List.foldl_nil]
    have hlt := Nat.lt_pow_two_of_testBit (n := n) _ fun i hi => (ih i).trans (by simp [Nat.not_lt.mpr hi])
    rw [show ∀ acc, acc + (if f n then 2 ^ n else 0) = 2 ^ n * (f n).toNat + acc by intro acc; cases f n <;> simp [Nat.add_comm],
      Nat.testBit_two_pow_mul_add _ hlt, ih]
    rcases Nat.lt_trichotomy i n with h | rfl | h
    · simp [h, Nat.lt_succ_of_lt h]
    · cases f i <;> simp
    · rw [if_neg (by omega), Nat.testBit_lt_two_pow (Nat.lt_of_lt_of_le (Bool.toNat_lt (f n)) (Nat.pow_le_pow_right (n := 2) (by decide) (by omega : 1 ≤ i - n)))]
      simp [Nat.not_lt.mpr h]

theorem testBit_rowPar (d r : Nat) : (rowPar d).testBit r = (decide (r < 16) && xorBits 32 (fun c => d.testBit (cell r c))) := by
  rw [rowPar, testBit_sum_bits, parity_eq_xorBits]
  congr 1
  exact xorBits_congr fun c hc => by rw [testBit_rowOf]; simp [hc]

theorem testBit_xor_range (n i : Nat) (f : Nat → Nat) :
    ((List.range n).foldl (fun acc r => acc ^^^ f r) 0).testBit i = xorBits n (fun r => (f r).testBit i) := by
  induction n with
  | zero => simp
  | succ n ih => rw [xorBits_succ, ← ih, List.range_succ, List.foldl_append, List.foldl_cons, List.foldl_nil, Nat.testBit_xor]

theorem testBit_colPar (d c : Nat) : (colPar d).testBit c = (decide (c < 32) && xorBits 16 (fun r => d.testBit (cell r c))) := by
  rw [colPar, testBit_xor_range]
  by_cases hc : c < 32 <;> simp [testBit_rowOf, hc]

theorem rowPar_lt (d : Nat) : rowPar d < 2 ^ 16 :=
  Nat.lt_pow_two_of_testBit _ fun i hi => by rw [testBit_rowPar]; simp [Nat.not_lt.mpr hi]

theorem colPar_lt (d : Nat) : colPar d < 2 ^ 32 :=
  Nat.lt_pow_two_of_testBit _ fun i hi => by rw [testBit_colPar]; simp [Nat.not_lt.mpr hi]

theorem rowPar_xor (x y : Nat) : rowPar (x ^^^ y) = rowPar x ^^^ rowPar y := by
  refine Nat.eq_of_testBit_eq fun r => ?_
  simp only [Nat.testBit_xor, testBit_rowPar, xorBits_xor, Bool.and_xor_distrib_left]

theorem colPar_xor (x y : Nat) : colPar (x ^^^ y) = colPar x ^^^ colPar y := by
  refine Nat.eq_of_testBit_eq fun c => ?_
  simp only [Nat.testBit_xor, testBit_colPar, xorBits_xor, Bool.and_xor_distrib_left]

@[simp] theorem rowPar_zero : rowPar 0 = 0 := by decide
@[simp] theorem colPar_zero : colPar 0 = 0 := by decide

theorem cell_eq_cell_iff {r q a b : Nat} (ha : a < 32) (hb : b < 32) : cell r a = cell q b ↔ r = q ∧ a = b := by
  unfold cell; omega

theorem rowPar_cell {r c : Nat} (hr : r < 16) (hc : c < 32) : rowPar (2 ^ cell r c) = 2 ^ r := by
  refine Nat.eq_of_testBit_eq fun q => ?_
  rw [testBit_rowPar, Nat.testBit_two_pow, xorBits_congr (g := fun b => decide (r = q) && decide (c = b)) fun b hb => by
    rw [Nat.testBit_two_pow, ← Bool.decide_and]; exact decide_eq_decide.mpr (cell_eq_cell_iff hc hb)]
  by_cases h : r = q
  · subst h; simp [xorBits_eq_index, hr, hc]
  · simp [h]

theorem colPar_cell {r c : Nat} (hr : r < 16) (hc : c < 32) : colPar (2 ^ cell r c) = 2 ^ c := by
  refine Nat.eq_of_testBit_eq fun b => ?_
  rw [testBit_colPar, Nat.testBit_two_pow]
  by_cases hb : b < 32
  · rw [xorBits_congr (g := fun q => decide (r = q) && decide (c = b)) fun q _ => by
      rw [Nat.testBit_two_pow, ← Bool.decide_and]; exact decide_eq_decide.mpr (cell_eq_cell_iff hc hb)]
    by_cases h : c = b
    · simp [h, hb, xorBits_eq_index, hr]
    · simp [h]
  · simp [hb, show c ≠ b by omega]

/-- The parity of all 512 data bits, taken row by row or column by column (R207). -/
theorem parity_rowPar (d : Nat) : parity 16 (rowPar d) = xorBits 512 d.testBit := by
  rw [show 512 = 32 * 16 from rfl, xorBits_mul, parity_eq_xorBits]
  exact xorBits_congr fun r hr => by rw [testBit_rowPar]; simp [hr, cell]

theorem parity_colPar (d : Nat) : parity 32 (colPar d) = xorBits 512 d.testBit := by
  rw [← parity_rowPar, parity_eq_xorBits, parity_eq_xorBits,
    xorBits_congr (g := fun c => xorBits 16 fun r => d.testBit (cell r c)) fun c hc => by rw [testBit_colPar]; simp [hc],
    xorBits_congr (f := (rowPar d).testBit) (g := fun r => xorBits 32 fun c => d.testBit (cell r c)) fun r hr => by
      rw [testBit_rowPar]; simp [hr]]
  exact xorBits_comm 32 16 fun c r => d.testBit (cell r c)

/-! ### The check word -/

theorem testBit_packFields_cons (w v : Nat) (fs : List (Nat × Nat)) (i : Nat) :
    (packFields ((w, v) :: fs)).testBit i = if i < w then v.testBit i else (packFields fs).testBit (i - w) := by
  rw [show packFields ((w, v) :: fs) = 2 ^ w * packFields fs + v % 2 ^ w by rw [Nat.mul_comm, Nat.add_comm]; rfl,
    Nat.testBit_two_pow_mul_add _ (Nat.mod_lt _ (Nat.two_pow_pos w)), Nat.testBit_mod_two_pow]
  split
  · simp [*]
  · rfl

theorem testBit_b2n (b : Bool) (i : Nat) : (b2n b).testBit i = (decide (i = 0) && b) := by
  cases b
  · simp [b2n]
  · rw [show b2n true = 2 ^ 0 from rfl, Nat.testBit_two_pow, Bool.and_true]
    exact decide_eq_decide.mpr eq_comm

/-- The layout of R207, bit by bit. -/
theorem getLsbD_checkOf (rp cp : Nat) (p : Bool) (i : Nat) :
    (checkOf rp cp p).getLsbD i =
      if i < 16 then rp.testBit i else if i < 48 then cp.testBit (i - 16) else if i = 48 then parity 16 rp
      else if i = 49 then parity 32 cp else decide (i = 50) && p := by
  rw [checkOf, BitVec.getLsbD_ofNat]
  simp only [testBit_packFields_cons, testBit_b2n]
  obtain h | ⟨h, h'⟩ | rfl | rfl | rfl | h : i < 16 ∨ (16 ≤ i ∧ i < 48) ∨ i = 48 ∨ i = 49 ∨ i = 50 ∨ 50 < i := by omega
  · simp [h, show i < 64 by omega]
  · simp [h', show ¬ i < 16 by omega, show i < 64 by omega, show i - 16 < 32 by omega]
  · simp
  · simp
  · simp
  · simp [packFields, show ¬ i < 16 by omega, show ¬ i < 48 by omega, show i ≠ 48 by omega, show i ≠ 49 by omega, show i ≠ 50 by omega,
      show ¬ i - 16 < 32 by omega, show i - 16 - 32 ≠ 0 by omega, show i - 16 - 32 - 1 ≠ 0 by omega, show i - 16 - 32 - 1 - 1 ≠ 0 by omega]

theorem getLsbD_checkOf_reserved (rp cp : Nat) (p : Bool) {i : Nat} (hi : 51 ≤ i) : (checkOf rp cp p).getLsbD i = false := by
  rw [getLsbD_checkOf, if_neg (by omega), if_neg (by omega), if_neg (by omega), if_neg (by omega), decide_eq_false (by omega), Bool.false_and]

theorem testBit_fld (v hi lo i : Nat) : (fld v hi lo).testBit i = (decide (i < hi + 1 - lo) && v.testBit (lo + i)) := by
  rw [fld, Nat.testBit_mod_two_pow, Nat.testBit_shiftRight]

theorem fld_lt (v hi lo : Nat) : fld v hi lo < 2 ^ (hi + 1 - lo) := Nat.mod_lt _ (Nat.two_pow_pos _)

theorem fld_xor (x y hi lo : Nat) : fld (x ^^^ y) hi lo = fld x hi lo ^^^ fld y hi lo := by
  rw [fld, Nat.shiftRight_xor_distrib, Nat.xor_mod_two_pow, ← fld, ← fld]

@[simp] theorem fld_two_pow (k hi lo : Nat) : fld (2 ^ k) hi lo = if lo ≤ k ∧ k ≤ hi then 2 ^ (k - lo) else 0 := by
  refine Nat.eq_of_testBit_eq fun i => ?_
  rw [testBit_fld, Nat.testBit_two_pow]
  split
  · rw [Nat.testBit_two_pow, ← Bool.decide_and]
    exact decide_eq_decide.mpr (by omega)
  · rw [Nat.zero_testBit, ← Bool.decide_and]
    exact decide_eq_false (by omega)

@[simp] theorem fld_zero (hi lo : Nat) : fld 0 hi lo = 0 := by simp [fld]

@[simp] theorem bitN_zero (i : Nat) : bitN 0 i = false := Nat.zero_testBit i

@[simp] theorem bitN_two_pow (k i : Nat) : bitN (2 ^ k) i = decide (k = i) := Nat.testBit_two_pow

theorem bitN_xor (x y i : Nat) : bitN (x ^^^ y) i = (bitN x i ^^ bitN y i) := Nat.testBit_xor x y i

theorem bitN_toNat {w : Nat} (x : BitVec w) (i : Nat) : bitN x.toNat i = x.getLsbD i := rfl

/-- A field reads what the bits from its lowest one on hold. -/
theorem fld_eq_of_testBit {v n hi lo : Nat} (hn : n < 2 ^ (hi + 1 - lo)) (h : ∀ i < hi + 1 - lo, v.testBit (lo + i) = n.testBit i) :
    fld v hi lo = n := by
  refine Nat.eq_of_testBit_eq fun i => ?_
  rw [testBit_fld]
  by_cases hi : i < hi + 1 - lo
  · rw [h i hi]; simp [hi]
  · simp [hi, Nat.testBit_lt_two_pow (Nat.lt_of_lt_of_le hn (Nat.pow_le_pow_right (by decide) (Nat.not_lt.mp hi)))]

/-! ### Syndromes -/

/-- What R209 classifies a block by: rs, cs, er, ec and POISON. -/
@[ext] structure Syndrome where
  rows : Nat
  cols : Nat
  er : Bool
  ec : Bool
  poison : Bool

/-- The syndrome of a block that reads as it was written. -/
def Syndrome.zero : Syndrome := ⟨0, 0, false, false, false⟩

def Syndrome.xor (s t : Syndrome) : Syndrome :=
  ⟨s.rows ^^^ t.rows, s.cols ^^^ t.cols, s.er ^^ t.er, s.ec ^^ t.ec, s.poison ^^ t.poison⟩

@[simp] theorem Syndrome.zero_xor (s : Syndrome) : Syndrome.zero.xor s = s := by simp [Syndrome.xor, Syndrome.zero]

theorem Syndrome.xor_self (s : Syndrome) : s.xor s = Syndrome.zero := by simp [Syndrome.xor, Syndrome.zero]

theorem Syndrome.eq_of_xor_eq_zero {s t : Syndrome} (h : s.xor t = Syndrome.zero) : s = t := by
  simp only [Syndrome.xor, Syndrome.zero, Syndrome.mk.injEq, bne_eq_false_iff_eq] at h
  obtain ⟨hr, hc, her, hec, hp⟩ := h
  exact Syndrome.ext (eq_of_nat_xor_eq_zero hr) (eq_of_nat_xor_eq_zero hc) her hec hp

def syndromeOf (b : Blk) : Syndrome :=
  ⟨(syndromes b).1, (syndromes b).2.1, (syndromes b).2.2.1, (syndromes b).2.2.2, bitN b.check.toNat 50⟩

theorem syndromeOf_rows_lt (b : Blk) : (syndromeOf b).rows < 2 ^ 16 := Nat.xor_lt_two_pow (fld_lt _ _ _) (rowPar_lt _)

theorem syndromeOf_cols_lt (b : Blk) : (syndromeOf b).cols < 2 ^ 32 := Nat.xor_lt_two_pow (fld_lt _ _ _) (colPar_lt _)

/-- The syndrome is linear in the stored bits. -/
theorem syndromeOf_xor (d e : BitVec 512) (c x : BitVec 64) :
    syndromeOf ⟨d ^^^ e, c ^^^ x⟩ = (syndromeOf ⟨d, c⟩).xor (syndromeOf ⟨e, x⟩) := by
  simp only [syndromeOf, syndromes, Syndrome.xor, BitVec.toNat_xor, fld_xor, bitN_xor, rowPar_xor, colPar_xor, parity_xor, bne_eq_xor]
  exact Syndrome.ext (by ac_rfl) (by ac_rfl) (xor_xor_xor_comm ..) (xor_xor_xor_comm ..) rfl

theorem syndromeOf_checkOf {d : BitVec 512} {rp cp : Nat} (p : Bool) (hr : rp < 2 ^ 16) (hc : cp < 2 ^ 32) :
    syndromeOf ⟨d, checkOf rp cp p⟩ = ⟨rp ^^^ rowPar d.toNat, cp ^^^ colPar d.toNat, false, false, p⟩ := by
  have hrows : fld (checkOf rp cp p).toNat 15 0 = rp := fld_eq_of_testBit hr fun i hi => by
    rw [BitVec.testBit_toNat, getLsbD_checkOf, Nat.zero_add, if_pos hi]
  have hcols : fld (checkOf rp cp p).toNat 47 16 = cp := fld_eq_of_testBit hc fun i hi => by
    rw [BitVec.testBit_toNat, getLsbD_checkOf, if_neg (by omega), if_pos (by omega), Nat.add_sub_cancel_left]
  simp only [syndromeOf, syndromes, hrows, hcols, bitN_toNat, getLsbD_checkOf]
  simp

theorem syndromeOf_sealedBlk (d : BitVec 512) : syndromeOf (sealedBlk d) = Syndrome.zero := by
  rw [sealedBlk, eccCheck, syndromeOf_checkOf _ (rowPar_lt _) (colPar_lt _), Nat.xor_self, Nat.xor_self]
  rfl

/-- The full-weight syndrome of R208. -/
theorem syndromeOf_poisonCheck (d : BitVec 512) : syndromeOf ⟨d, poisonCheck d⟩ = ⟨0xFFFF, 0xFFFFFFFF, false, false, true⟩ := by
  rw [poisonCheck, syndromeOf_checkOf _ (Nat.xor_lt_two_pow (rowPar_lt _) (by decide)) (Nat.xor_lt_two_pow (colPar_lt _) (by decide)),
    xor_xor_self_left, xor_xor_self_left]

/-- Errors in reserved bits alone leave the syndrome. -/
theorem syndromeOf_reserved (m : Nat) : syndromeOf ⟨0, BitVec.ofNat 64 m <<< 51⟩ = Syndrome.zero := by
  have hlow (i : Nat) (hi : i < 51) : (BitVec.ofNat 64 m <<< 51).toNat.testBit i = false := by
    rw [BitVec.testBit_toNat, BitVec.getLsbD_shiftLeft]; simp [hi]
  generalize BitVec.ofNat 64 m <<< 51 = x at hlow
  have hrows : fld x.toNat 15 0 = 0 := fld_eq_of_testBit (by decide) fun i hi => by rw [hlow _ (by omega), Nat.zero_testBit]
  have hcols : fld x.toNat 47 16 = 0 := fld_eq_of_testBit (by decide) fun i hi => by rw [hlow _ (by omega), Nat.zero_testBit]
  simp only [syndromeOf, syndromes, show (0 : BitVec 512).toNat = 0 from BitVec.toNat_zero, hrows, hcols]
  simp [bitN, hlow, Syndrome.zero]

/-! ### The rows of R209 -/

/-- The table of R209, read off the syndrome. -/
theorem classify_eq {b : Blk} {s : Syndrome} (h : syndromeOf b = s) :
    classify b =
      if weight 16 s.rows = 16 ∧ weight 32 s.cols = 32 then .poisoned
      else if weight 16 s.rows = 0 ∧ weight 32 s.cols = 0 ∧ !s.er ∧ !s.ec then
        (if !s.poison ∧ !decide (fld b.check.toNat 63 51 ≠ 0) then .clean else .corrected (sealedBlk b.data))
      else if s.poison then .uncorrectable
      else if weight 16 s.rows = 1 ∧ weight 32 s.cols = 1 ∧ !s.er ∧ !s.ec then
        .corrected (sealedBlk (b.data ^^^ BitVec.ofNat 512 (2 ^ cell (Nat.log2 s.rows) (Nat.log2 s.cols))))
      else if (weight 16 s.rows = 1 ∧ weight 32 s.cols = 0 ∧ s.er ∧ !s.ec) ∨
          (weight 16 s.rows = 0 ∧ weight 32 s.cols = 1 ∧ !s.er ∧ s.ec) ∨
          (weight 16 s.rows = 0 ∧ weight 32 s.cols = 0 ∧ (s.er != s.ec)) then .corrected (sealedBlk b.data)
      else .uncorrectable := by
  subst h
  rfl

/-- A block of syndrome zero is clean but for its reserved bits. -/
theorem classify_of_zero {b : Blk} (h : syndromeOf b = Syndrome.zero) :
    classify b = if fld b.check.toNat 63 51 = 0 then .clean else .corrected (sealedBlk b.data) := by
  rw [classify_eq h]
  simp [Syndrome.zero]

theorem full_weights : weight 16 0xFFFF = 16 ∧ weight 32 0xFFFFFFFF = 32 := by decide

/-- The first row of R209. -/
theorem classify_of_full {b : Blk} {er ec poison : Bool} (h : syndromeOf b = ⟨0xFFFF, 0xFFFFFFFF, er, ec, poison⟩) :
    classify b = .poisoned :=
  (classify_eq h).trans (if_pos full_weights)

/-- A bit of a stored block outside the reserved ones (R206, R207). -/
inductive Site where
  | data (r : Fin 16) (c : Fin 32)
  | rowPar (r : Fin 16)
  | colPar (c : Fin 32)
  | rowParP
  | colParP
  | poison

/-- The number by which `flipBit` knows the bit. -/
def Site.bit : Site → Nat
  | .data r c => cell r c
  | .rowPar r => 512 + r
  | .colPar c => 528 + c
  | .rowParP => 560
  | .colParP => 561
  | .poison => 562

/-- The syndrome that an error in this bit alone gives. -/
def Site.syndrome : Site → Syndrome
  | .data r c => ⟨2 ^ r.val, 2 ^ c.val, false, false, false⟩
  | .rowPar r => ⟨2 ^ r.val, 0, true, false, false⟩
  | .colPar c => ⟨0, 2 ^ c.val, false, true, false⟩
  | .rowParP => ⟨0, 0, true, false, false⟩
  | .colParP => ⟨0, 0, false, true, false⟩
  | .poison => ⟨0, 0, false, false, true⟩

theorem exists_site_of_lt {i : Nat} (hi : i < 563) : ∃ x : Site, x.bit = i := by
  obtain h | ⟨h, h'⟩ | ⟨h, h'⟩ | rfl | rfl | rfl :
      i < 512 ∨ (512 ≤ i ∧ i < 528) ∨ (528 ≤ i ∧ i < 560) ∨ i = 560 ∨ i = 561 ∨ i = 562 := by omega
  · exact ⟨.data ⟨i / 32, by omega⟩ ⟨i % 32, by omega⟩, Nat.div_add_mod i 32⟩
  · exact ⟨.rowPar ⟨i - 512, by omega⟩, Nat.add_sub_of_le h⟩
  · exact ⟨.colPar ⟨i - 528, by omega⟩, Nat.add_sub_of_le h⟩
  · exact ⟨.rowParP, rfl⟩
  · exact ⟨.colParP, rfl⟩
  · exact ⟨.poison, rfl⟩

theorem flipBit_of_lt (b : Blk) {i : Nat} (h : i < 512) : flipBit b i = ⟨b.data ^^^ BitVec.ofNat 512 (2 ^ i), b.check⟩ := if_pos h

theorem flipBit_of_ge (b : Blk) {i : Nat} (h : 512 ≤ i) : flipBit b i = ⟨b.data, b.check ^^^ BitVec.ofNat 64 (2 ^ (i - 512))⟩ :=
  if_neg (Nat.not_lt.mpr h)

@[simp] theorem flipBit_flipBit_same (b : Blk) (i : Nat) : flipBit (flipBit b i) i = b := by
  rcases Nat.lt_or_ge i 512 with h | h
  · rw [flipBit_of_lt _ h, flipBit_of_lt _ h, BitVec.xor_assoc, BitVec.xor_self, BitVec.xor_zero]
  · rw [flipBit_of_ge _ h, flipBit_of_ge _ h, BitVec.xor_assoc, BitVec.xor_self, BitVec.xor_zero]

theorem cell_lt (r : Fin 16) (c : Fin 32) : cell r c < 512 := by unfold cell; omega

theorem toNat_ofNat_two_pow {w k : Nat} (h : k < w) : (BitVec.ofNat w (2 ^ k)).toNat = 2 ^ k :=
  BitVec.toNat_ofNat .. ▸ Nat.mod_eq_of_lt (Nat.pow_lt_pow_right (by decide) h)

theorem syndromeOf_dataBit (r : Fin 16) (c : Fin 32) :
    syndromeOf ⟨BitVec.ofNat 512 (2 ^ cell r c), 0⟩ = (Site.data r c).syndrome := by
  simp only [syndromeOf, syndromes, toNat_ofNat_two_pow (cell_lt r c), rowPar_cell r.isLt c.isLt, colPar_cell r.isLt c.isLt]
  simp [Site.syndrome]

theorem syndromeOf_checkBit {k : Nat} (hk : k < 51) :
    syndromeOf ⟨0, BitVec.ofNat 64 (2 ^ k)⟩ =
      ⟨fld (2 ^ k) 15 0, fld (2 ^ k) 47 16, decide (k = 48) ^^ parity 16 (fld (2 ^ k) 15 0), decide (k = 49) ^^ parity 32 (fld (2 ^ k) 47 16),
        decide (k = 50)⟩ := by
  simp only [syndromeOf, syndromes, show (0 : BitVec 512).toNat = 0 from BitVec.toNat_zero, toNat_ofNat_two_pow (show k < 64 by omega)]
  simp

/-- The error of bit `k` of the check word. -/
theorem flipBit_zero_check (k : Nat) : flipBit Blk.zero (512 + k) = ⟨0, BitVec.ofNat 64 (2 ^ k)⟩ := by
  rw [flipBit_of_ge _ (Nat.le_add_right ..), Nat.add_sub_cancel_left]
  simp [Blk.zero]

theorem syndromeOf_flipBit_zero (x : Site) : syndromeOf (flipBit Blk.zero x.bit) = x.syndrome := by
  cases x with
  | data r c =>
    rw [Site.bit, flipBit_of_lt _ (cell_lt r c), ← syndromeOf_dataBit]
    simp [Blk.zero]
  | rowPar r =>
    rw [Site.bit, flipBit_zero_check, syndromeOf_checkBit (by omega)]
    simp [Site.syndrome, show r.val ≤ 15 by omega, show ¬ 16 ≤ r.val by omega, show r.val ≠ 48 by omega, show r.val ≠ 49 by omega,
      show r.val ≠ 50 by omega]
  | colPar c =>
    rw [Site.bit, show 528 + c.val = 512 + (16 + c) by omega, flipBit_zero_check, syndromeOf_checkBit (by omega)]
    simp [Site.syndrome, show 16 + c.val ≤ 47 by omega, show ¬ 16 + c.val ≤ 15 by omega, show 16 + c.val ≠ 48 by omega,
      show 16 + c.val ≠ 49 by omega, show 16 + c.val ≠ 50 by omega]
  | rowParP => exact (congrArg syndromeOf (flipBit_zero_check 48)).trans ((syndromeOf_checkBit (by decide)).trans (by simp [Site.syndrome, fld]))
  | colParP => exact (congrArg syndromeOf (flipBit_zero_check 49)).trans ((syndromeOf_checkBit (by decide)).trans (by simp [Site.syndrome, fld]))
  | poison => exact (congrArg syndromeOf (flipBit_zero_check 50)).trans ((syndromeOf_checkBit (by decide)).trans (by simp [Site.syndrome, fld]))

theorem flipBit_eq_xor (b : Blk) (i : Nat) :
    flipBit b i = ⟨b.data ^^^ (flipBit Blk.zero i).data, b.check ^^^ (flipBit Blk.zero i).check⟩ := by
  rcases Nat.lt_or_ge i 512 with h | h
  · simp [flipBit_of_lt _ h, Blk.zero]
  · simp [flipBit_of_ge _ h, Blk.zero]

/-- Flipping a bit adds the bit's syndrome. -/
@[simp] theorem syndromeOf_flipBit (b : Blk) (x : Site) : syndromeOf (flipBit b x.bit) = (syndromeOf b).xor x.syndrome := by
  rw [flipBit_eq_xor, syndromeOf_xor, ← syndromeOf_flipBit_zero]

theorem data_flipBit_of_ge (b : Blk) {i : Nat} (h : 512 ≤ i) : (flipBit b i).data = b.data := by rw [flipBit_of_ge b h]

/-- The correctable rows of R209: the reader flips back the data bit that the syndrome points at and writes the check word anew. -/
theorem classify_of_site {b : Blk} {x : Site} (h : syndromeOf b = x.syndrome) :
    classify b = .corrected (sealedBlk (flipBit b x.bit).data) := by
  rw [classify_eq h]
  cases x with
  | data r c => simp [Site.syndrome, Site.bit, flipBit_of_lt _ (cell_lt r c)]
  | rowPar r => simp [Site.syndrome, Site.bit, data_flipBit_of_ge b (show 512 ≤ 512 + r.val by omega)]
  | colPar c => simp [Site.syndrome, Site.bit, data_flipBit_of_ge b (show 512 ≤ 528 + c.val by omega)]
  | rowParP => simp [Site.syndrome, Site.bit, data_flipBit_of_ge]
  | colParP => simp [Site.syndrome, Site.bit, data_flipBit_of_ge]
  | poison => simp [Site.syndrome, Site.bit, data_flipBit_of_ge]

/-! ### Two errors -/

/-- The parities of rs and cs, er, ec and POISON. -/
def Syndrome.marks (s : Syndrome) : List Bool := [parity 16 s.rows, parity 32 s.cols, s.er, s.ec, s.poison]

/-- The marks of the six kinds of single error. -/
def siteMarks : List (List Bool) :=
  [[true, true, false, false, false], [true, false, true, false, false], [false, true, false, true, false],
    [false, false, true, false, false], [false, false, false, true, false], [false, false, false, false, true]]

theorem marks_xor (s t : Syndrome) : (s.xor t).marks = List.zipWith Bool.xor s.marks t.marks := by
  simp [Syndrome.marks, Syndrome.xor, parity_xor]

theorem marks_site (x : Site) : x.syndrome.marks ∈ siteMarks := by
  cases x <;> simp [Site.syndrome, Syndrome.marks, siteMarks]

/-- No two errors together have the marks of one. -/
theorem sum_notMem_siteMarks : ∀ p ∈ siteMarks, ∀ q ∈ siteMarks, List.zipWith Bool.xor p q ∉ siteMarks := by decide

theorem weight_rows_site_le (x : Site) : weight 16 x.syndrome.rows ≤ 1 := by
  cases x <;> simp [Site.syndrome]

/-- The bit that a single error's syndrome points at. -/
def Syndrome.faultBit (s : Syndrome) : Nat :=
  if s.poison then 562
  else if s.er then (if s.rows = 0 then 560 else 512 + Nat.log2 s.rows)
  else if s.ec then (if s.cols = 0 then 561 else 528 + Nat.log2 s.cols)
  else cell (Nat.log2 s.rows) (Nat.log2 s.cols)

theorem faultBit_site (x : Site) : x.syndrome.faultBit = x.bit := by
  cases x <;> simp [Site.syndrome, Syndrome.faultBit, Site.bit]

/-- The last row of R209, for a syndrome below full weight: not zero and without the parities of a single error. -/
theorem classify_eq_uncorrectable {b : Blk} (hw : weight 16 (syndromeOf b).rows < 16) (hm : (syndromeOf b).marks ∉ siteMarks)
    (hz : syndromeOf b ≠ Syndrome.zero) : classify b = .uncorrectable := by
  have hrows := eq_zero_of_weight_eq_zero (syndromeOf_rows_lt b)
  have hcols := eq_zero_of_weight_eq_zero (syndromeOf_cols_lt b)
  rw [classify_eq rfl]
  generalize syndromeOf b = s at *
  have hnot {wr wc : Nat} {er ec p : Bool} (hr : weight 16 s.rows = wr) (hc : weight 32 s.cols = wc) (her : s.er = er) (hec : s.ec = ec)
      (hp : s.poison = p) : [decide (wr % 2 = 1), decide (wc % 2 = 1), er, ec, p] ∉ siteMarks := by
    rwa [← hr, ← hc, ← her, ← hec, ← hp, ← parity_eq_odd_weight, ← parity_eq_odd_weight]
  simp only [Bool.not_eq_true']
  rw [if_neg fun h => Nat.ne_of_lt hw h.1, if_neg]
  · cases hp : s.poison with
    | true => rfl
    | false =>
      rw [if_neg Bool.false_ne_true, if_neg fun ⟨hr, hc, her, hec⟩ => hnot hr hc her hec hp (by decide), if_neg]
      rintro (⟨hr, hc, her, hec⟩ | ⟨hr, hc, her, hec⟩ | ⟨hr, hc, he⟩)
      · exact hnot hr hc her hec hp (by decide)
      · exact hnot hr hc her hec hp (by decide)
      · have hone := hnot hr hc rfl rfl hp
        revert he hone
        cases s.er <;> cases s.ec <;> decide
  · rintro ⟨hr, hc, her, hec⟩
    cases hp : s.poison with
    | true => exact hnot hr hc her hec hp (by decide)
    | false => exact hz (Syndrome.ext (hrows hr) (hcols hc) her hec hp)

theorem classify_two_sites (d : BitVec 512) {x y : Site} (h : x.bit ≠ y.bit) :
    classify (flipBit (flipBit (sealedBlk d) x.bit) y.bit) = .uncorrectable := by
  have hs : syndromeOf (flipBit (flipBit (sealedBlk d) x.bit) y.bit) = x.syndrome.xor y.syndrome := by
    rw [syndromeOf_flipBit, syndromeOf_flipBit, syndromeOf_sealedBlk, Syndrome.zero_xor]
  refine classify_eq_uncorrectable ?_ ?_ ?_ <;> rw [hs]
  · calc weight 16 (x.syndrome.rows ^^^ y.syndrome.rows) ≤ weight 16 x.syndrome.rows + weight 16 y.syndrome.rows := weight_xor_le ..
      _ ≤ 1 + 1 := Nat.add_le_add (weight_rows_site_le x) (weight_rows_site_le y)
      _ < 16 := by decide
  · rw [marks_xor]
    exact sum_notMem_siteMarks _ (marks_site x) _ (marks_site y)
  · intro hz
    exact h (by rw [← faultBit_site, ← faultBit_site, Syndrome.eq_of_xor_eq_zero hz])

/-! ### The obligations -/

theorem three_corners_syndrome (r q : Fin 16) (a b : Fin 32) :
    ((Site.data r a).syndrome.xor (Site.data r b).syndrome).xor (Site.data q a).syndrome = (Site.data q b).syndrome := by
  simp only [Site.syndrome, Syndrome.xor, Nat.xor_self, Nat.zero_xor, xor_xor_self_left, Bool.xor_false]

theorem syndromeOf_three_corners (d : BitVec 512) (r q : Fin 16) (a b : Fin 32) :
    syndromeOf (flipBit (flipBit (flipBit (sealedBlk d) (cell r a)) (cell r b)) (cell q a)) = (Site.data q b).syndrome := by
  rw [← three_corners_syndrome r q a b, ← Syndrome.zero_xor (Site.data r a).syndrome, ← syndromeOf_sealedBlk d, ← syndromeOf_flipBit,
    ← syndromeOf_flipBit, ← syndromeOf_flipBit]
  rfl

theorem syndromeOf_four_corners (d : BitVec 512) (r q : Fin 16) (a b : Fin 32) :
    syndromeOf (flipBit (flipBit (flipBit (flipBit (sealedBlk d) (cell r a)) (cell r b)) (cell q a)) (cell q b)) = Syndrome.zero := by
  have h := syndromeOf_flipBit (flipBit (flipBit (flipBit (sealedBlk d) (cell r a)) (cell r b)) (cell q a)) (.data q b)
  rw [syndromeOf_three_corners, Syndrome.xor_self] at h
  exact h

/-- Flips of data bits leave the check word. -/
theorem check_flipBit_cell (b : Blk) (r : Fin 16) (c : Fin 32) : (flipBit b (cell r c)).check = b.check := by
  rw [flipBit_of_lt _ (cell_lt r c)]

theorem fld_reserved_eccCheck (d : BitVec 512) : fld (eccCheck d).toNat 63 51 = 0 :=
  fld_eq_of_testBit (by decide) fun i _ => by
    rw [BitVec.testBit_toNat, eccCheck, getLsbD_checkOf_reserved _ _ _ (Nat.le_add_right ..), Nat.zero_testBit]

theorem fld_reserved_mask (m : BitVec 13) : fld (BitVec.ofNat 64 m.toNat <<< 51).toNat 63 51 = m.toNat :=
  fld_eq_of_testBit m.isLt fun i hi => by
    rw [BitVec.testBit_toNat, BitVec.getLsbD_shiftLeft, BitVec.getLsbD_ofNat]
    simp [show 51 + i < 64 by omega, show i < 64 by omega]

theorem classify_sealedBlk (d : BitVec 512) : classify (sealedBlk d) = .clean := by
  rw [classify_of_zero (syndromeOf_sealedBlk d), sealedBlk, if_pos (fld_reserved_eccCheck d)]

theorem classify_one_site (d : BitVec 512) (x : Site) : classify (flipBit (sealedBlk d) x.bit) = .corrected (sealedBlk d) := by
  rw [classify_of_site (x := x) (by rw [syndromeOf_flipBit, syndromeOf_sealedBlk, Syndrome.zero_xor]), flipBit_flipBit_same]
  rfl

theorem classify_four_corners (d : BitVec 512) (r q : Fin 16) (a b : Fin 32) :
    classify (flipBit (flipBit (flipBit (flipBit (sealedBlk d) (cell r a)) (cell r b)) (cell q a)) (cell q b)) = .clean := by
  rw [classify_of_zero (syndromeOf_four_corners d r q a b), check_flipBit_cell, check_flipBit_cell, check_flipBit_cell, check_flipBit_cell,
    sealedBlk, if_pos (fld_reserved_eccCheck d)]

theorem classify_reserved_errors (d : BitVec 512) {m : BitVec 13} (hm : m ≠ 0) :
    classify ⟨d, eccCheck d ^^^ (BitVec.ofNat 64 m.toNat <<< 51)⟩ = .corrected (sealedBlk d) := by
  have h := syndromeOf_xor d 0 (eccCheck d) (BitVec.ofNat 64 m.toNat <<< 51)
  rw [syndromeOf_reserved, ← sealedBlk, syndromeOf_sealedBlk, Syndrome.zero_xor, BitVec.ofNat_eq_ofNat, BitVec.xor_zero] at h
  rw [classify_of_zero h, if_neg]
  rw [BitVec.toNat_xor, fld_xor, fld_reserved_eccCheck, fld_reserved_mask, Nat.zero_xor]
  exact fun h0 => hm (BitVec.eq_of_toNat_eq h0)

/-- Settles O35: a syndrome is the sum of those of the bits in error, so one error is pointed at, two have the parities of none, three corners
of a rectangle have the syndrome of the fourth and four corners none. -/
theorem integrityCodeLimits : Obligations.IntegrityCodeLimits := by
  unfold Obligations.IntegrityCodeLimits
  refine ⟨fun d i hi => ?_, fun d i j hi hj hij => ?_, fun d r q a b hr hq ha hb _ _ => ?_, fun d r q a b hr hq ha hb _ _ => ?_,
    fun d m hm => classify_reserved_errors d hm⟩
  · obtain ⟨x, rfl⟩ := exists_site_of_lt hi
    exact classify_one_site d x
  · obtain ⟨x, rfl⟩ := exists_site_of_lt hi
    obtain ⟨y, rfl⟩ := exists_site_of_lt hj
    exact classify_two_sites d hij
  · exact classify_of_site (syndromeOf_three_corners d ⟨r, hr⟩ ⟨q, hq⟩ ⟨a, ha⟩ ⟨b, hb⟩)
  · exact classify_four_corners d ⟨r, hr⟩ ⟨q, hq⟩ ⟨a, ha⟩ ⟨b, hb⟩

/-! ### Poisoned blocks -/

theorem classify_poisonCheck (d : BitVec 512) : classify ⟨d, poisonCheck d⟩ = .poisoned := classify_of_full (syndromeOf_poisonCheck d)

/-- The full-weight syndrome marks a poisoned block even where its POISON bit is struck. -/
theorem classify_poisonCheck_flipped (d : BitVec 512) : classify (flipBit ⟨d, poisonCheck d⟩ 562) = .poisoned :=
  classify_of_full (er := false) (ec := false) (poison := false) (by
    rw [show 562 = Site.poison.bit from rfl, syndromeOf_flipBit, syndromeOf_poisonCheck]; rfl)

theorem writeBack_of_uncorrectable {b : Blk} (h : classify b = .uncorrectable) : writeBack b = ⟨b.data, poisonCheck b.data⟩ := by
  rw [writeBack, h]

theorem writeBack_of_corrected {b c : Blk} (h : classify b = .corrected c) : writeBack b = c := by rw [writeBack, h]

/-- A reader corrects to a block with its proper check word. -/
theorem exists_sealedBlk_of_corrected {b c : Blk} (h : classify b = .corrected c) : ∃ d, c = sealedBlk d := by
  rw [classify_eq rfl] at h
  split at h
  · cases h
  · split at h
    · split at h
      · cases h
      · exact ⟨_, (EccOut.corrected.inj h).symm⟩
    · split at h
      · cases h
      · split at h
        · exact ⟨_, (EccOut.corrected.inj h).symm⟩
        · split at h
          · exact ⟨_, (EccOut.corrected.inj h).symm⟩
          · cases h

theorem getLsbD_eccCheck_row (d : BitVec 512) {r : Nat} (hr : r < 16) :
    (eccCheck d).getLsbD r = xorBits 32 (fun c => d.getLsbD (cell r c)) := by
  rw [eccCheck, getLsbD_checkOf, if_pos hr, testBit_rowPar, decide_eq_true hr, Bool.true_and]
  rfl

theorem getLsbD_eccCheck_col (d : BitVec 512) {c : Nat} (hc : c < 32) :
    (eccCheck d).getLsbD (16 + c) = xorBits 16 (fun r => d.getLsbD (cell r c)) := by
  rw [eccCheck, getLsbD_checkOf, if_neg (by omega), if_pos (by omega), Nat.add_sub_cancel_left, testBit_colPar, decide_eq_true hc,
    Bool.true_and]
  rfl

/-- ROWPAR_P is the parity of ROWPAR as stored. -/
theorem getLsbD_checkOf_rowParP (rp cp : Nat) (p : Bool) :
    (checkOf rp cp p).getLsbD 48 = xorBits 16 (fun r => (checkOf rp cp p).getLsbD r) := by
  rw [xorBits_congr (g := rp.testBit) fun r hr => by rw [getLsbD_checkOf, if_pos hr], getLsbD_checkOf]
  rfl

/-- COLPAR_P is the parity of COLPAR as stored. -/
theorem getLsbD_checkOf_colParP (rp cp : Nat) (p : Bool) :
    (checkOf rp cp p).getLsbD 49 = xorBits 32 (fun c => (checkOf rp cp p).getLsbD (16 + c)) := by
  rw [xorBits_congr (g := cp.testBit) fun c hc => by
    rw [getLsbD_checkOf, if_neg (by omega), if_pos (by omega), Nat.add_sub_cancel_left], getLsbD_checkOf]
  rfl

theorem getLsbD_checkOf_poison (rp cp : Nat) (p : Bool) : (checkOf rp cp p).getLsbD 50 = p := by
  rw [getLsbD_checkOf]
  rfl

/-- ROWPAR and COLPAR of a poisoned block are the complements (R208). -/
theorem getLsbD_poisonCheck_vector (d : BitVec 512) {i : Nat} (hi : i < 48) : (poisonCheck d).getLsbD i = !(eccCheck d).getLsbD i := by
  rw [poisonCheck, eccCheck, getLsbD_checkOf, getLsbD_checkOf]
  by_cases h : i < 16
  · rw [if_pos h, if_pos h, Nat.testBit_xor, show 0xFFFF = 2 ^ 16 - 1 from rfl, Nat.testBit_two_pow_sub_one, decide_eq_true h, Bool.xor_true]
  · rw [if_neg h, if_neg h, if_pos hi, if_pos hi, Nat.testBit_xor, show 0xFFFFFFFF = 2 ^ 32 - 1 from rfl, Nat.testBit_two_pow_sub_one,
      decide_eq_true (by omega), Bool.xor_true]

theorem getLsbD_eccCheck_rowParP (d : BitVec 512) : (eccCheck d).getLsbD 48 = xorBits 512 (fun i => d.getLsbD i) :=
  (getLsbD_checkOf _ _ _ 48).trans (parity_rowPar d.toNat)

theorem getLsbD_eccCheck_colParP (d : BitVec 512) : (eccCheck d).getLsbD 49 = xorBits 512 (fun i => d.getLsbD i) :=
  (getLsbD_checkOf _ _ _ 49).trans (parity_colPar d.toNat)

/-- Settles O36: the check word bit by bit, from the layout of its fields; a poisoned block has the full-weight syndrome, which a flip of POISON
leaves; what a reader corrects to has its proper check word. -/
theorem poisonedBlocksStayPoisoned : Obligations.PoisonedBlocksStayPoisoned := by
  unfold Obligations.PoisonedBlocksStayPoisoned
  refine ⟨fun d r => getLsbD_eccCheck_row d, fun d c => getLsbD_eccCheck_col d, fun d => ⟨getLsbD_checkOf_rowParP .., getLsbD_checkOf_colParP ..,
      getLsbD_checkOf_poison .., getLsbD_eccCheck_rowParP d, getLsbD_eccCheck_colParP d⟩,
    fun d i hi => ⟨getLsbD_checkOf_reserved _ _ _ hi, getLsbD_checkOf_reserved _ _ _ hi⟩, fun d i => getLsbD_poisonCheck_vector d,
    fun d => ⟨getLsbD_checkOf_rowParP .., getLsbD_checkOf_colParP .., getLsbD_checkOf_poison ..⟩, classify_sealedBlk, classify_poisonCheck,
    classify_poisonCheck_flipped, fun b hb => ?_, fun b c hc => ?_⟩
  · rw [writeBack_of_uncorrectable hb]
    exact ⟨rfl, classify_poisonCheck b.data⟩
  · obtain ⟨d, rfl⟩ := exists_sealedBlk_of_corrected hc
    exact ⟨writeBack_of_corrected hc, classify_sealedBlk d⟩

end Sys2Proof.Proofs
end

section
/-! The core rail and the system reference (17, R419, R420, R422, R424; 19, R482): the bounds of the target, the release of the sag throttle, what a
fault of the regulator sends, when the reference is noted lost; they settle O4. -/

namespace Sys2Proof.Proofs
open Sys2Proof Sys2Proof.Machine Sys2Proof.Safety Sys2Proof.Laws

/-! ### The target of the core rail (R419, R422) -/

/-- The bound of 600 mV from below makes the conversion to a number of mV exact. -/
theorem avsTarget_toInt (s : State) :
    (avsTarget s : Int) = max 600 (min 850 ((Config.avsFused : Int) + 5 * s.supply.offset.toInt)) :=
  Int.toNat_of_nonneg (Int.le_trans (by decide) (Int.le_max_left 600 _))

theorem avsTarget_bounds (s : State) : 600 ≤ avsTarget s ∧ avsTarget s ≤ 850 := by
  have h := avsTarget_toInt s
  omega

theorem exec_avsTargetChange {s : State} (hstart : started s = true) (hsag : s.supply.sagActive = false) (hnew : avsTarget s ≠ s.supply.target) :
    exec .avsTargetChange s =
      .next { s with supply := { s.supply with prevTarget := s.supply.compared, target := avsTarget s, changing := true, settling := true } } := by
  show Host.Outcome.next (avsChangeEffect s) = _
  unfold avsChangeEffect
  rw [if_neg]
  simp [hstart, hsag, hnew]

theorem exec_avsTargetSettled (s : State) : exec .avsTargetSettled s =
    .next { s with supply := { s.supply with prevTarget := s.supply.target, changing := false, settling := false } } := rfl

/-! ### A fault of the regulator (R424) -/

/-- The alert of a regulator's fault, with its status word. -/
def avsAlerted (s : State) (status : Nat) : State := setAlert { s with supply := { s.supply with avsStatus := status } } alAvs

theorem exec_avsFault {s : State} {status : Nat} (hstart : started s = true) (hword : status < 65536) :
    exec (.avsFault status) s = .next (raiseEvent (avsAlerted s status) evAvsFault (monitorPayload 0 0 status 1 0)) := by
  show Host.Outcome.next (avsFaultEffect s status) = _
  unfold avsFaultEffect
  rw [if_pos hstart, Nat.mod_eq_of_lt hword]
  rfl

/-- The event takes its number and its time from the state before the alert, and sending it leaves the alert and the status word. -/
theorem avsFault_answers {s : State} {status : Nat} (hstart : started s = true) (hword : status < 65536) :
    Answers (.avsFault status) s fun t =>
      t.supply.avsStatus = status ∧ AlertSet t alAvs ∧ Raised s t evAvsFault (monitorPayload 0 0 status 1 0) ∧
      t.boot = s.boot ∧ t.mem = s.mem ∧ t.pg = s.pg ∧ t.supply.target = s.supply.target := by
  have hout := outward_raiseEvent (avsAlerted s status) evAvsFault (monitorPayload 0 0 status 1 0)
  refine ⟨_, exec_avsFault hstart hword, ?_, alertSet_raiseEvent (alertSet_or _ alAvs (by decide)) _ _,
    raised_of _ _ (hostLink_congr rfl rfl rfl rfl) rfl rfl, hout.boot, hout.mem, hout.pg, ?_⟩
  · rw [hout.supply]; rfl
  · rw [hout.supply]; rfl

/-! ### The release of the sag throttle (R420, R422) -/

theorem allSampled_iff (s : State) (kind n : Nat) (ok : BitVec 16 → Bool) :
    allSampled s kind n ok = true ↔ ∀ i, i < n → ∃ v, Tab.find s.mon.vals (kind, i) = some v ∧ ok v = true := by
  unfold allSampled
  rw [List.all_eq_true]
  refine forall_congr' fun i => ?_
  rw [List.mem_range]
  cases Tab.find s.mon.vals (kind, i) <;> simp

theorem sagOver_iff (s : State) : sagOver s = true ↔
    ∀ i, i < 48 → ∃ v, Tab.find s.mon.vals (1, i) = some v ∧ 96 * s.supply.compared ≤ 100 * v.toNat := by
  simp only [sagOver, allSampled_iff, decide_eq_true_eq]

/-- The counts of half-rate time stand with the monitors. -/
theorem refreshHalf_eq_with_mon (s : State) : ∃ m, refreshHalf s = { s with mon := m } := by
  unfold refreshHalf
  generalize List.range 8 = l
  induction l generalizing s with
  | nil => exact ⟨s.mon, rfl⟩
  | cons c l ih => exact ih (refreshHalfOf s c)

/-- The supply after the throttle's end, with the time throttled added to the count. -/
def sagReleased (s : State) : Supply :=
  { s.supply with sagActive := false, throttleNs := s.supply.throttleNs + (s.time - s.supply.sagSince) }

theorem exec_sagRelease_of_sagOver {s : State} (hsag : s.supply.sagActive = true) (hover : sagOver s = true) :
    exec .sagRelease s = .next (refreshHalf { s with supply := sagReleased s }) := by
  show Host.Outcome.next (sagReleaseEffect s) = _
  unfold sagReleaseEffect
  exact congrArg _ (if_pos (Bool.and_eq_true_iff.mpr ⟨hsag, hover⟩))

theorem exec_sagRelease_of_not_sagOver {s : State} (hover : ¬ sagOver s = true) : exec .sagRelease s = .next s := by
  show Host.Outcome.next (sagReleaseEffect s) = _
  unfold sagReleaseEffect
  rw [if_neg]
  simp [hover]

theorem sagRelease_answers {s : State} (hsag : s.supply.sagActive = true) (hover : sagOver s = true) :
    Answers .sagRelease s fun t =>
      t.supply = sagReleased s ∧ t.boot = s.boot ∧ t.rst = s.rst ∧ t.ev = s.ev ∧ t.mem = s.mem ∧ t.pg = s.pg := by
  refine ⟨_, exec_sagRelease_of_sagOver hsag hover, ?_⟩
  obtain ⟨m, e⟩ := refreshHalf_eq_with_mon { s with supply := sagReleased s }
  rw [e]
  exact ⟨rfl, rfl, rfl, rfl, rfl, rfl⟩

/-- One monitor that has not been sampled, or whose latest sample is too low, holds the throttle. -/
theorem not_sagOver_of_low {s : State} {i : Nat} (hi : i < 48)
    (hlow : ∀ v, Tab.find s.mon.vals (1, i) = some v → 100 * v.toNat < 96 * s.supply.compared) : ¬ sagOver s = true := fun hover => by
  obtain ⟨v, hv, hge⟩ := (sagOver_iff s).mp hover i hi
  exact absurd (hlow v hv) (Nat.not_lt.mpr hge)

/-! ### The system reference (R482) -/

theorem exec_refclkSysLost {s : State} (hpow : s.boot.powered = true) (hnone : s.mon.sysLost = none) :
    exec .refclkSysLost s = .next { s with mon := { s.mon with sysLost := some s.time } } := by
  show Host.Outcome.next (refclkSysLostEffect s) = _
  unfold refclkSysLostEffect
  rw [if_pos ⟨hpow, by rw [hnone]; rfl⟩]

theorem exec_refclkSysReturn (s : State) : exec .refclkSysReturn s = .next { s with mon := { s.mon with sysLost := none } } := rfl

/-- Settles O4: the target is bounded by its definition, a fault's event leaves all but what goes out, the throttle's end turns on what every
voltage monitor has read, and counting half-rate time touches the monitors alone. -/
theorem supplyAndReferenceCommands : Obligations.SupplyAndReferenceCommands := by
  unfold Obligations.SupplyAndReferenceCommands
  refine ⟨fun s => exec_avsTargetChange, fun s => ⟨(avsTarget_bounds s).1, (avsTarget_bounds s).2, avsTarget_toInt s⟩, fun s => rfl,
    exec_avsTargetSettled, fun s status => avsFault_answers, fun s hsag hread => sagRelease_answers hsag ((sagOver_iff s).mpr hread),
    fun s i hi hlow => exec_sagRelease_of_not_sagOver (not_sagOver_of_low hi hlow), fun s => exec_refclkSysLost, exec_refclkSysReturn⟩

end Sys2Proof.Proofs
end
